-- ==== Sys2Proof/Word.lean ====
section
/-!
DEFINITION. The word types of the part: bytes, 64-bit registers (R8), 16-bit status codes (R11), and
DTIME and step numbers, which are unsigned 64-bit quantities (R7).
-/
namespace Sys2Proof

abbrev Byte := BitVec 8
abbrev Bytes := List (BitVec 8)
abbrev Reg := BitVec 64
abbrev Status := BitVec 16

end Sys2Proof
end

