-- ==== Sys2Proof/Machine/Bits.lean ====
section
/-!
DEFINITION. Byte strings and bit fields: little-endian numbers (R6), fields [msb:lsb] of a word, and slices of
byte strings. A slice that runs past the end of a string is padded with zero bytes.
-/
namespace Sys2Proof.Machine

/-- Access types of Table 0.3 (R8). -/
inductive Access where
  | rw | ro | wo | w1c | w1s | rc | rwt
  deriving DecidableEq, Repr

/-- A field of a register: the register's address, the lowest bit, the width. -/
structure Fld where
  addr : Nat
  lo : Nat
  width : Nat
  deriving DecidableEq, Repr

/-- A field of a register kind that is not read-only. -/
structure FldDef where
  lo : Nat
  width : Nat
  acc : Access
  deriving DecidableEq, Repr

/-- A register kind: first address, count and stride of its copies (outer, inner), reset value, fields. -/
structure RegDef where
  base : Nat
  count : Nat
  stride : Nat
  count2 : Nat
  stride2 : Nat
  reset : Nat
  fields : List FldDef
  deriving DecidableEq, Repr

def byteOf (n : Nat) : Byte := BitVec.ofNat 8 n

/-- Bits [lo + width − 1 : lo] of a number. -/
def bitsOf (x lo width : Nat) : Nat := x / 2 ^ lo % 2 ^ width

def bitOf (x i : Nat) : Bool := x / 2 ^ i % 2 == 1

/-- x with bits [lo + width − 1 : lo] replaced by v modulo 2^width. -/
def putBits (x lo width v : Nat) : Nat :=
  x - bitsOf x lo width * 2 ^ lo + v % 2 ^ width * 2 ^ lo

/-- The number a little-endian byte string spells (R6). -/
def leNat : Bytes → Nat
  | [] => 0
  | b :: bs => b.toNat + 256 * leNat bs

/-- n as `len` little-endian bytes, modulo 2^(8 len). -/
def toLE : Nat → Nat → Bytes
  | 0, _ => []
  | len + 1, n => byteOf n :: toLE len (n / 256)

def beNat (bs : Bytes) : Nat := bs.foldl (fun a b => a * 256 + b.toNat) 0

def toBE (len n : Nat) : Bytes := (toLE len n).reverse

def zeros (n : Nat) : Bytes := List.replicate n 0#8

/-- `len` bytes of `bs` from offset `off`, zero-padded. -/
def slice (bs : Bytes) (off len : Nat) : Bytes :=
  let t := (bs.drop off).take len
  t ++ zeros (len - t.length)

/-- The little-endian number in `size` bytes at `off`. -/
def fieldAt (bs : Bytes) (off size : Nat) : Nat := leNat (slice bs off size)

/-- `bs` with the bytes of `d` written at offset `off` (the string grows with zeros where needed). -/
def putAt (bs : Bytes) (off : Nat) (d : Bytes) : Bytes :=
  let p := bs.take off
  p ++ zeros (off - p.length) ++ d ++ bs.drop (off + d.length)

def allZero (bs : Bytes) : Bool := bs.all (· == 0#8)

def xorBytes : Bytes → Bytes → Bytes
  | a :: as, b :: bs => (a ^^^ b) :: xorBytes as bs
  | as, [] => as
  | [], bs => bs

/-- ASCII bytes of a string. -/
def ascii (s : String) : Bytes := s.toList.map (fun c => byteOf c.toNat)

/-- Division rounding up. -/
def ceilDiv (a b : Nat) : Nat := (a + b - 1) / b

/-- Two's-complement value of the low w bits. -/
def toSigned (w x : Nat) : Int :=
  let y := x % 2 ^ w
  if 2 ^ w ≤ 2 * y then (y : Int) - 2 ^ w else y

/-- The low w bits of an integer, two's complement. -/
def ofSigned (w : Nat) (x : Int) : Nat := (x % (2 ^ w : Nat)).toNat

/-- The first status of the failing checks, in order (none: all pass). -/
def firstErr : List (Bool × Status) → Option Status
  | [] => none
  | (bad, st) :: rest => if bad then some st else firstErr rest

end Sys2Proof.Machine
end

