-- ==== Sys2Proof/Machine/Types.lean ====
section
/-!
DEFINITION. Plain data types shared by the commands (Syntax.lean) and the state: who accesses what, what an error line
carries, what the module is fused with, and what leaves the part.
-/
namespace Sys2Proof.Machine

/-- The three variants of Table 0.1 (R1). -/
inductive Variant where
  | a | b | c
  deriving DecidableEq, Repr

/-- The BARs of Table 19.1 (R423); BAR2 is the doorbell page. -/
inductive Bar where
  | bar0 | bar2 | bar4
  deriving DecidableEq, Repr

/-- One access of a function to a BAR: function (0 is PF0, n is VFn), BAR, offset, size in bytes. -/
structure Access1 where
  fn : Fin 64
  bar : Bar
  off : Nat
  size : Nat
  deriving DecidableEq, Repr

/-- Fault classes of Table 17.3. -/
inductive FClass where
  | f0 | f1 | f2 | f3 | f4 | f5
  deriving DecidableEq, Repr

def FClass.code : FClass → Nat
  | .f0 => 0 | .f1 => 1 | .f2 => 2 | .f3 => 3 | .f4 => 4 | .f5 => 5

/-- The class of a number; numbers above 5 name none. -/
def FClass.named : Nat → Option FClass
  | 0 => some .f0 | 1 => some .f1 | 2 => some .f2 | 3 => some .f3 | 4 => some .f4 | 5 => some .f5 | _ => none

/-- An event that reaches the fault collector (R382, R385): a fault, or an acknowledgement. -/
inductive EventKind where
  | fault | ackF3 | ackF4 | ackF2
  deriving DecidableEq, Repr

structure ErrEvent where
  kind : EventKind
  src : Nat
  status : Status
  unit : Nat
  ctx : Nat
  cls : FClass
  stamp : Nat
  forced : Bool
  discrepancy : Bool
  concurrent : Bool
  deriving DecidableEq, Repr

/-- The two channels of the SAFE_STOP interlock (R394). -/
inductive Pin where
  | safeStopA | safeStopB
  deriving DecidableEq, Repr

/-- The supply rails, in the order of R445. -/
inductive Rail where
  | p3v3Stby | p12vAux | p54v
  deriving DecidableEq, Repr

/-- Output pins that the model drives. -/
inductive OutPin where
  | faultOutN | ppsOut | holdupOk
  deriving DecidableEq, Repr

/-- Syndromes of an Acknowledge packet that the device sends or accepts (Table 10.3). -/
inductive AckKind where
  | ack | nakSequence | nakAccess | nakInvalid
  deriving DecidableEq, Repr

/-- A Lantern control message (Table 18.1). (DESIGN CHOICE, log entry 41.) -/
structure LanMsg where
  kind : Nat
  ctx : Nat
  sender : Nat
  nonce : Nat
  view : Nat
  seq : Nat
  arg0 : Nat
  arg1 : Nat
  arg2 : Nat
  body : Bytes
  deriving DecidableEq, Repr

/-- A view (R405): its number, the live positions, and each pod's
active and standby keeper (0xFFFF: none), pods ascending. -/
structure View where
  num : Nat
  live : List Nat
  keepers : List (Nat × Nat × Nat)
  deriving DecidableEq, Repr

/-- A join of a pod (R302, R408): this device's own, with its position, the view and the members with media it learns of,
or another device's. -/
inductive PodJoin where
  | own (position : Nat) (view : View) (media : List Nat)
  | other (position : Nat) (hasMedia : Bool)
  deriving DecidableEq, Repr

/-- What a frame carries: a RoCEv2 packet of Table 10.3 (with RETH as address, key, length), a Lantern message to a
position, a journal image into a slot of the standby, a PTP or management message.
(DESIGN CHOICE, log entry 41.) -/
inductive Pkt where
  | write (qpn psn : Nat) (last ackReq : Bool) (reth : Option (Nat × Nat × Nat)) (imm : Option Nat) (data : Bytes)
  | readReq (qpn psn addr key len : Nat)
  | readResp (qpn psn : Nat) (last : Bool) (data : Bytes)
  | ack (qpn psn : Nat) (kind : AckKind)
  | lantern (dest : Nat) (m : LanMsg)
  | journal (dest slot : Nat) (image : Bytes)
  | ptp (data : Bytes)
  | pfc (paused : Bool)
  | management (data : Bytes)
  deriving DecidableEq, Repr

/-- What MACsec says of a received frame: protected and valid, without a SecTAG, or failing validation. -/
inductive MacCheck where
  | valid | plain | invalid
  deriving DecidableEq, Repr

/-- What a received frame is by its content (R245): a RoCEv2 packet with its ICRC and P_Key check, one of an opcode the
device does not support, a packet to QP1, a CNP, a PTP message, an MKA frame, management traffic, a PFC frame for a
priority with its pause in ns (0: resume), or anything else. -/
inductive RxBody where
  | rdma (ok : Bool) (p : Pkt)
  | unsupported (ok : Bool) (qpn psn : Nat)
  | qp1
  | cnp
  | ptp
  | mka (data : Bytes)
  | management (data : Bytes)
  | pfc (pcp : Fin 8) (pause : Nat)
  | other
  deriving DecidableEq, Repr

/-- What an MKA exchange leads to on a subport (R247, R248). (DESIGN CHOICE, log entry 15.) -/
inductive MkaEnd where
  | pending | secured | failed
  deriving DecidableEq, Repr

/-- What leaves the part: what a register read returns to a function, host memory writes (function, address,
bytes), MSI-X messages, a frame with its traffic class and the SEAL_SEQ of a sealed packet, levels of pins, replies over I3C, and load-split items. -/
inductive Out where
  | readData (fn : Nat) (value : Nat)
  | hostWrite (fn : Nat) (addr : Nat) (data : Bytes)
  | msix (fn vector : Nat)
  | frame (port sub cls : Nat) (sealSeq : Option Nat) (body : Pkt)
  | pin (p : OutPin) (level : Bool)
  | i3c (data : Bytes)
  | split (ctx item len : Nat)
  deriving DecidableEq, Repr

/-- Who asks for an Innkeeper operation (R318, R319): a lane through the head call of its tile's service queue, or a hub
agent of Table 13.2 for a context. -/
inductive InkCaller where
  | call (tile : Fin 96)
  | hub (agent : Fin 8) (ctx : Fin 64)
  deriving DecidableEq, Repr

/-- What an exchange carries: a call of engine 0x13 with the handle it hands over, or an item back at the hub (R200). -/
inductive ExchWhat where
  | call (tile : Fin 96) (handle : Nat)
  | item (ctx : Fin 64) (id : Nat)
  deriving DecidableEq, Repr

/-- What an MXU residue comparison or the packer's shadow checker found (R191, R209): agreement, agreement on the second execution, or none. -/
inductive Residue where
  | agrees | agreesAgain | disagrees
  deriving DecidableEq, Repr

/-- Early-warning health conditions as measured (Table 12.4, R303): wear and spare in percent, reads of the last 24 h and
those that needed step 2 or 3 of R294. (DESIGN CHOICE, log entry 15.) -/
inductive HealthEvent where
  | wear (pct : Nat) | spare (pct : Nat) | slcFloor | correction (reads retried : Nat)
  deriving DecidableEq, Repr

/-- The step of R294 at which a page read succeeds, or none. (DESIGN CHOICE, log entry 15.) -/
inductive PageRead where
  | hard | soft | retry | row | lost
  deriving DecidableEq, Repr

/-- How a Rounds slice or test ended (R392, R393): passed with more to come, passed as the last of a full pass, failed. -/
inductive RoundsEnd where
  | passed | complete | failed
  deriving DecidableEq, Repr

/-- The levels of an image header (R457, Table 21.3) and its SHA-384. -/
structure FwImage where
  version : Nat
  content : Nat
  compat : Nat
  sv : Nat
  settings : Nat
  wireMin : Nat
  wireMax : Nat
  targetLen : Nat
  digest : Bytes
  deriving DecidableEq, Repr

/-- What a boot stage finds: the image of each bank of the component it verifies (none: the bank fails R461), the key vault's
self-test, whether one key-store copy is unreadable, the media dies per channel and whether they are uniform (R281), the
lowest settings format MP_HUB reads (R468). (DESIGN CHOICE, log entries 14, 15.) -/
structure BootFacts where
  bank0 : Option FwImage
  bank1 : Option FwImage
  selfTest : Bool
  copyLost : Bool
  dies : Nat
  uniform : Bool
  lowest : Nat
  deriving DecidableEq, Repr

/-- What R463 asks beside the levels in an image's header: whether the firmware reads the stored formats, and the wire level
in use with the fabric (none: no peer). (DESIGN CHOICE, log entry 15.) -/
structure FwFit where
  readable : Bool
  wire : Option Nat
  deriving DecidableEq, Repr

/-- The update opcodes of Table 21.4 with their arguments. UPD_VERIFY meets what the reread of the bank finds: a block that
fails (none: every block reads back as written). -/
inductive UpdOp where
  | begin (buf : Bytes) (fit : FwFit)
  | write (off : Nat) (buf : Bytes)
  | verify (bad : Option Nat) (fit : FwFit)
  | activate (fit : FwFit) (readBack : Bool)
  | confirm (readBack : Bool)
  | abort
  | revert
  deriving DecidableEq, Repr

/-- An MCTP request (R397, R462). -/
inductive McMsg where
  | inventory | health | faultRecords
  | update (op : UpdOp)
  deriving DecidableEq, Repr

/-- What an error line reports (R382): an event as its source gives it; corrected memory errors of a block (Table 17.4);
an uncorrectable error of a hub block's memory; codewords a port corrected or could not correct.
(DESIGN CHOICE, log entries 15, 93.) -/
inductive LineEvent where
  | event (src unit ctx : Nat) (status : Status) (cls : FClass)
  | corrected (src unit : Nat)
  | packer | innkeeper | pegs | logbook
  | ledger (queue : Nat)
  | fec (port : Fin 32) (corrected uncorrected : Nat)
  deriving DecidableEq, Repr

/-- A debug token (R380): LEVEL, DEVICE_SERIAL, nonce, NOT_AFTER, and its two signatures. -/
structure DebugToken where
  level : Nat
  serial : Nat
  nonce : Bytes
  notAfter : Nat
  sigEcdsa : Bytes
  sigMldsa : Bytes
  deriving DecidableEq, Repr

/-- Hub checkers that Rounds tests (Tables 17.4 and 17.5). (DESIGN CHOICE, log entry 15.) -/
inductive Checker where
  | dice (unit : Fin 4) | hbm (n : Fin 8) | l2 (n : Fin 4) | packerShadow | lockstep | crypto | inkEcc | pegEcc
  | thermalTrip
  deriving DecidableEq, Repr

/-- Class integer of Table 3.3. (DEDUCED, log entry 18.) -/
inductive IntOp where
  | add | sub | and | or | xor | sll | srl | sra | mulLow | mulHighS | mulHighU | divS | divU | remS | remU
  | eq | ltS | ltU | minS | minU | maxS | maxU | popCount | clz | ctz | byteReverse | illegal
  deriving DecidableEq, Repr

/-- Class integer immediate. (DEDUCED, log entry 18.) -/
inductive ImmOp where
  | add | and | or | xor | sll | srl | sra | eq | ltS | ltU | loadUpper | illegal
  deriving DecidableEq, Repr

/-- Access size of a load or store: 8, 16, 32 or 64 bits. -/
inductive LaneSize where
  | b8 | b16 | b32 | b64
  deriving DecidableEq, Repr

/-- Class branch. -/
inductive BranchOp where
  | eq | ne | ltS | geS | ltU | geU | illegal
  deriving DecidableEq, Repr

/-- Element width of a vector word (Table 3.2). -/
inductive ElemWidth where
  | w8 | w16 | w32 | w64
  deriving DecidableEq, Repr

/-- Class vector integer. -/
inductive VecOp where
  | add | sub | mul | minS | minU | maxS | maxU | sll | srl | sra | eq | ltS | ltU | select
  | addSatS | addSatU | subSatS | subSatU | widenS | widenU | narrowS | narrowU | illegal
  deriving DecidableEq, Repr

/-- Class vector permute: shuffle by an index vector, broadcast of a g register, moves between g and v. -/
inductive PermOp where
  | shuffle | broadcast (g : Fin 32) | toV (g : Fin 32) (elem : Fin 16) | toG (g : Fin 32) (elem : Fin 16) | illegal
  deriving DecidableEq, Repr

/-- Class floating point. (DEDUCED, log entry 18.) -/
inductive FpOp where
  | add | sub | mul | div | sqrt | fma | min | max | eq | lt | le
  | toS64 | toU64 | fromS64 | fromU64 | illegal
  deriving DecidableEq, Repr

inductive FpWidth where
  | single | half
  deriving DecidableEq, Repr

end Sys2Proof.Machine
end

