-- ==== Sys2Proof/Syntax.lean ====
section
/-!
DEFINITION. The commands of the block: one constructor per row of spec/opcode_table.json, with what the row takes from
outside: who accesses what, the numbers and bytes a ring, a port, a pin or a lane carries, and what the part itself
picks in an order the spec leaves to it. A lane command names the operation of its class, because the spec gives
classes and formats (Tables 3.2, 3.3) and no minor numbers; `illegal` stands for a minor field that names none (R79).
-/
namespace Sys2Proof

open Sys2Proof.Machine

inductive Instr where
  | registerWrite (access : Access1) (value : BitVec 64)
  | rcRegisterRead (access : Access1)
  | lowerHalfRead (fn : Fin 64) (bar : Bar) (off : Nat)
  | upperHalfRead (fn : Fin 64) (bar : Bar) (off : Nat)
  | eventCommit
  | errorLineEvent (event : LineEvent)
  | faultCommit
  | f3UnackWrite (fn : Fin 64)
  | f4UnackWrite (fn : Fin 64)
  | fltForceWrite (fn : Fin 64) (upperOnly : Bool) (value : BitVec 64)
  | armF5 (fn : Fin 64) (outF3 : Bool)
  | shadowPairStart (tile : Fin 96)
  | shadowCompare (tile : Fin 96)
  | shadowThirdCompare (tile : Fin 96)
  | roundsTileSlice (tile : Fin 96) (outcome : RoundsEnd)
  | roundsSliceEnd (tile : Fin 96)
  | roundsDispatchWithhold (tile : Fin 96)
  | roundsCheckerTest (checker : Checker) (ok : Bool)
  | roundsSafeStopTest (ok : Bool)
  | safeStopEdge (pin : Pin) (asserted : Bool)
  | safeStopQualify (pin : Pin)
  | discrepancyTimeout
  | perstNAssert
  | modResetNAssert
  | pf0Flr
  | vfFlr (vf : Fin 64)
  | vfDisable
  | vfEnable (count : Fin 64)
  | p54vRemove (stored : Nat)
  | p3v3StbyRemove (stored : Nat)
  | railApply (rail : Rail)
  | pwrGoodFall
  | pwrGoodRise
  | holdupOkFall
  | holdupMeasure (joules : Nat)
  | governorSample (input nonTile : Nat) (estimates : List Nat) (pulses inlet : Nat) (noPulse : Bool)
  | thermalSample (sensor tj : Nat)
  | thermalSoftStep
  | quarterIdleEntry (quarter : Fin 4) (idle : Nat)
  | quarterWake (quarter : Fin 4)
  | clockProfile (sq : Fin 256) (profile : Nat)
  | pllUnlock (quarter : Option (Fin 4))
  | ppsInEdge (offset : Int)
  | ppsInMissing
  | ppsOutPulse
  | cdcResync (quarter : Fin 4) (echo : Bool)
  | cdcSyncTimeout (quarter : Fin 4)
  | cdcUncorrected (quarter : Fin 4)
  | cdcEntryRead (quarter : Fin 4) (up : Bool) (vc : Fin 3)
  | doorbellWrite (fn : Fin 64) (off size : Nat) (value : BitVec 64)
  | ringCfgWrite (fn : Fin 64) (ring : Fin 256) (value : BitVec 64)
  | descriptorExamine (ctx : Fin 64) (sq : Fin 256) (readOk : Bool) (desc : Vector Byte 64) (dma : Bool)
  | completionRelease (ctx : Fin 64) (cq : Fin 256)
  | eventEntryWrite (ctx : Fin 64)
  | quantumInstant (ctx : Fin 64)
  | msixUnmask (fn : Fin 64) (vector : Fin 32)
  | nop (ctx : Fin 64) (sq : Fin 256)
  | dump (ctx : Fin 64) (sq : Fin 256)
  | attest (ctx : Fin 64) (sq : Fin 256) (buf : Bytes)
  | reportExpiry (ctx : Fin 64)
  | keyDeliver (ctx : Fin 64) (sq : Fin 256) (buf : Bytes)
  | blob (ctx : Fin 64) (sq : Fin 256) (engine : Fin 65536) (buf : Bytes)
  | vocabLoadComplete (slot : Fin 8) (bank : Fin 2) (engine : Fin 65536)
  | vocDiscard (ctx : Fin 64) (sq : Fin 256) (slot bank : Nat)
  | splitConfig (ctx : Fin 64) (sq : Fin 256) (qpn : Nat) (enable : Bool) (level : Nat)
  | runConfig (ctx : Fin 64) (sq : Fin 256) (engine : Fin 65536) (buf : Bytes)
  | runEnd (ctx : Fin 64) (sq : Fin 256)
  | logExport (ctx : Fin 64) (sq : Fin 256) (runId first last : Nat)
  | logDelete (ctx : Fin 64) (sq : Fin 256) (runId : Nat)
  | logDigest (ctx : Fin 64) (sq : Fin 256)
  | ingestOpen (ctx : Fin 64) (sq : Fin 256) (engine : Fin 65536) (buf : Bytes)
  | ingestClose (ctx : Fin 64) (sq : Fin 256) (stream : Nat)
  | qpOpen (ctx : Fin 64) (sq : Fin 256) (cls pd port sub pmtu timeout retry initDepth respDepth : Nat)
  | qpConnect (ctx : Fin 64) (sq : Fin 256) (qpn : Nat) (peerGid : BitVec 128) (peerQpn sqPsn ePsn : Nat)
  | qpClose (ctx : Fin 64) (sq : Fin 256) (qpn : Nat)
  | qpDestroy (ctx : Fin 64) (sq : Fin 256) (qpn : Nat)
  | windowOpen (ctx : Fin 64) (sq : Fin 256) (kind pd len handle : Nat) (write read : Bool)
  | windowClose (ctx : Fin 64) (sq : Fin 256) (key : Nat)
  | windowCloseComplete (window : Fin 65536)
  | pegMap (ctx : Fin 64) (sq : Fin 256) (peg : Nat)
  | pegUnmap (ctx : Fin 64) (sq : Fin 256) (peg : Nat)
  | dbarOpen (ctx : Fin 64) (sq : Fin 256) (barrier mode : Nat)
  | dbarClose (ctx : Fin 64) (sq : Fin 256) (barrier : Nat)
  | ldgQueueOpen (ctx : Fin 64) (sq : Fin 256) (queue mode slotBase slotCount qpn cplAddr cplKey cplEntries : Nat)
  | ldgQueueClose (ctx : Fin 64) (sq : Fin 256) (queue : Nat)
  | txnBegin (ctx : Fin 64) (sq : Fin 256)
  | rwtRegisterWrite (access : Access1) (value : BitVec 64)
  | txnCommit (ctx : Fin 64) (sq : Fin 256)
  | txnRollback (ctx : Fin 64) (sq : Fin 256)
  | txnCancel (ctx : Fin 64) (sq : Fin 256) (num : Nat)
  | txnApply (ctx : Fin 64)
  | share (sq : Fin 256) (buf : Bytes)
  | tileSeat (sq : Fin 256) (ctx mask : Nat)
  | tileUnseat (sq : Fin 256) (ctx mask : Nat)
  | vocAssign (sq : Fin 256) (slot ctx : Nat)
  | vocUnassign (sq : Fin 256) (slot : Nat)
  | ctxReset (sq : Fin 256) (target : Fin 64)
  | ctxTeardown (sq : Fin 256) (target : Fin 64)
  | teardownComplete (ctx : Fin 64)
  | decommission (sq : Fin 256)
  | debugChallenge (sq : Fin 256)
  | debugUnlock (sq : Fin 256) (token : DebugToken)
  | ownerDebugWrite (fn : Fin 64) (value : Bool)
  | ctxResetReq (fn ctx : Fin 64)
  | ctxStoppedAck (fn ctx : Fin 64)
  | dumpCaptureComplete (ctx : Fin 64)
  | contextResetComplete (ctx : Fin 64)
  | updBegin (sq : Fin 256) (buf : Bytes) (fit : FwFit)
  | updWrite (sq : Fin 256) (offset : Nat) (buf : Bytes)
  | updVerify (sq : Fin 256) (bad : Option Nat) (fit : FwFit)
  | updActivate (sq : Fin 256) (fit : FwFit) (readBack : Bool)
  | updConfirm (sq : Fin 256) (readBack : Bool)
  | updAbort (sq : Fin 256)
  | updRevert (sq : Fin 256)
  | updSwitchComplete (lowest : Nat) (selfCheck : Bool)
  | trialTimeout (component : Fin 4)
  | bootStage (facts : BootFacts)
  | watchdogExpiry
  /-- A lane executes a format A integer instruction. -/
  | integerOp (tile : Fin 96) (lane : Fin 288) (op : IntOp) (rd rs1 rs2 : Fin 32)
  /-- A lane executes a format I integer immediate instruction. -/
  | integerImmediateOp (tile : Fin 96) (lane : Fin 288) (op : ImmOp) (rd rs1 : Fin 32) (imm : BitVec 16)
  | load (tile : Fin 96) (lane : Fin 288) (size : LaneSize) (signed : Bool) (rd rs1 : Fin 32) (imm : BitVec 16)
  | store (tile : Fin 96) (lane : Fin 288) (size : LaneSize) (rd rs1 : Fin 32) (imm : BitVec 16)
  | vectorLoad (tile : Fin 96) (lane : Fin 288) (vd : Fin 16) (rs1 : Fin 32) (imm : BitVec 16)
  | vectorStore (tile : Fin 96) (lane : Fin 288) (vd : Fin 16) (rs1 : Fin 32) (imm : BitVec 16)
  | branch (tile : Fin 96) (lane : Fin 288) (op : BranchOp) (rs1 rs2 : Fin 32) (off : BitVec 16)
  | jumpAndLink (tile : Fin 96) (lane : Fin 288) (rd : Fin 32) (off : BitVec 21)
  | jumpRegister (tile : Fin 96) (lane : Fin 288) (rd rs1 : Fin 32) (imm : BitVec 16)
  | vectorIntegerOp (tile : Fin 96) (lane : Fin 288) (op : VecOp) (w : ElemWidth) (vd vs1 vs2 : Fin 16)
  | vectorPermute (tile : Fin 96) (lane : Fin 288) (op : PermOp) (w : ElemWidth) (vd vs1 vs2 : Fin 16)
  /-- rd is the addend of an FMA as well as its destination. -/
  | floatingPointOp (tile : Fin 96) (lane : Fin 288) (op : FpOp) (w : FpWidth) (rd rs1 rs2 : Fin 32)
  | barArrive (tile : Fin 96) (lane : Fin 288) (slot : Fin 8)
  | barWait (tile : Fin 96) (lane : Fin 288) (slot : Fin 8)
  | barSync (tile : Fin 96) (lane : Fin 288) (slot : Fin 8)
  /-- query is the rs1 field (R88). -/
  | rank (tile : Fin 96) (lane : Fin 288) (rd : Fin 32) (query : Fin 32) (slot : Fin 8)
  | workGet (tile : Fin 96) (lane : Fin 288) (rd : Fin 32)
  | workDone (tile : Fin 96) (lane : Fin 288) (rs1 : Fin 32)
  | halt (tile : Fin 96) (lane : Fin 288)
  | eng (tile : Fin 96) (lane : Fin 288) (rd rs1 : Fin 32) (engine op : BitVec 8)
  | ewait (tile : Fin 96) (lane : Fin 288) (rd rs1 : Fin 32)
  | epoll (tile : Fin 96) (lane : Fin 288) (rd rs1 : Fin 32)
  /-- A tile engine or hub service executes the head call of its queue. -/
  | tileDmaLoad (tile : Fin 96)
  | tileDmaStore (tile : Fin 96)
  | decompressDecode (tile : Fin 96)
  | hubDecompressDecode (tile : Fin 96)
  | decodeFull (tile : Fin 96)
  | decodeRegion (tile : Fin 96)
  | imageInfo (tile : Fin 96)
  | transform (tile : Fin 96)
  | normalise (tile : Fin 96)
  | tokenize (tile : Fin 96)
  | detokenize (tile : Fin 96)
  | matmul (tile : Fin 96) (residue : Residue)
  | filter (tile : Fin 96) (residue : Residue)
  | mix (tile : Fin 96)
  /-- cls and count are a hub agent's; a lane's stand in its descriptor. -/
  | alloc (who : InkCaller) (cls : Fin 4) (count : Nat)
  | extend (who : InkCaller) (handle : Nat) (cls : Fin 4) (count : Nat)
  | free (who : InkCaller) (handle : Nat)
  | handoff (who : InkCaller) (handle : Nat) (agent : Fin 8)
  | inkInfo (tile : Fin 96)
  /-- The buffer at the front of a class's scrub queue is zeroised. -/
  | bufferScrubComplete (cls : Fin 3)
  | pegAdd (who : InkCaller) (peg value : Nat)
  | pegWait (tile : Fin 96)
  | pegRead (tile : Fin 96)
  | pegSet (who : InkCaller) (peg value : Nat)
  | dbarArrive (tile : Fin 96)
  | dbarWait (tile : Fin 96)
  | exchangeSend (what : ExchWhat)
  /-- The spec gives engine 0x15 no ENGINE_ARGS layout: the call's arguments of R121 stand here. -/
  | vdcDecode (tile : Fin 96) (handle start count stride margin : Nat)
  /-- false: the hub decompressor; true: the video decode cluster. -/
  | hubUnitUncorrected (vdc : Bool)
  | vocabBankHbmError (slot : Fin 8) (bank : Fin 2) (hbm : Fin 8) (channel : Fin 65536)
  /-- The hub picks the tile and the free slot (R92). -/
  | workItemDispatch (ctx : Fin 64) (tile : Fin 96) (slot : Fin 64)
  /-- A result of the endpoint: whether its tag verifies, the prepared bytes and the verdict. -/
  | splitResult (ctx : Fin 64) (item : Nat) (authentic : Bool) (out : Bytes) (verdict : Bool)
  | splitTimeout (ctx : Fin 64) (item : Nat)
  | tileImageLoad (tile : Fin 96)
  | tileLoadComplete (tile : Fin 96)
  | tileDrainStart (tile : Fin 96)
  | tileDrainComplete (tile : Fin 96)
  | tileDrainTimeout (tile : Fin 96)
  | tileScrubComplete (tile : Fin 96)
  /-- unit is the UNIT of Table 17.1: an engine ID, or 0xFF. -/
  | tileUncorrectedError (tile : Fin 96) (unit : Fin 256)
  /-- A write of 1 to TILE_CTRL.FENCE_REQ by a function. -/
  | tileFenceReq (fn : Fin 64) (tile : Fin 96)
  | diceEvaluation (unit : Fin 4) (mismatch : Bool)
  | diceFenceReq (fn : Fin 64) (mask : Fin 16)
  | diceFenceComplete (unit : Fin 4)
  | sampleFetchComplete (ctx : Fin 64) (step place : Nat) (damage1 damage2 : Bytes) (rebuilt : Option Bytes)
  | beaconExamine
  | stepExtrapolate
  | logbookSetWrite (ctx : Fin 64)
  | ptpMessage (port : Fin 32) (sub : Fin 4) (sync : Option (Int × Nat))
  | uncertaintyTick
  | gateOpen (port : Fin 32) (sub : Fin 4) (entry : Fin 32)
  | gateClose (port : Fin 32) (sub : Fin 4)
  | frameStart (port : Fin 32) (sub : Fin 4)
  | queueSample (port : Fin 32)
  | queueSummary (port : Fin 32)
  | stepDeadlineCheck (ctx : Fin 64) (step : Nat)
  | frameReceive (port : Fin 32) (sub : Fin 4) (mac : MacCheck) (tag : Option (Nat × Bool)) (body : RxBody)
  | pfcFrame (port : Fin 32) (sub : Fin 4)
  | mkaFrame (port : Fin 32) (sub : Fin 4) (outcome : MkaEnd)
  | linkDown (port : Fin 32) (sub : Fin 4)
  | linkUp (port : Fin 32) (sub : Fin 4)
  | rdmaWriteReceive (port : Fin 32) (sub : Fin 4)
  | rdmaReadRequestReceive (port : Fin 32) (sub : Fin 4)
  | rdmaReadResponseReceive (port : Fin 32) (sub : Fin 4)
  | ackReceive (port : Fin 32) (sub : Fin 4)
  | ackCoalesceTimer (qp : Fin 16384)
  | ackTimerExpiry (qp : Fin 16384)
  | qpFlushComplete (qp : Fin 16384)
  | packerStart (ctx : Fin 64) (step consumer grp : Nat) (shadow : Residue)
  | creditRead (ctx : Fin 64) (consumer : Nat)
  | creditPollTimer (ctx : Fin 64) (consumer : Nat)
  | rowPayloadWrite (ctx : Fin 64) (step consumer row : Nat)
  | rowHeaderWrite (ctx : Fin 64) (step consumer row : Nat)
  | rowStampWrite (ctx : Fin 64) (step consumer row : Nat)
  | stepStampedReport (ctx : Fin 64) (step : Nat)
  | mixRecordExamine (ctx : Fin 64)
  | mixDistReceive (m : LanMsg)
  | mixDistResend (ctx : Fin 64)
  | mixAckReceive (m : LanMsg)
  | mixDecide (ctx : Fin 64)
  | mixOutcomeReceive (m : LanMsg)
  | ledgerRecordExamine (ctx : Fin 64)
  | ledgerCommandStart (queue : Fin 1024) (slot : Fin 1024)
  | sampleRead (queue : Fin 1024) (slot : Fin 1024) (damage1 damage2 : Bytes) (rebuilt : Option Bytes)
  | objectRead (queue : Fin 1024) (slot : Fin 1024)
  | objectWrite (queue : Fin 1024) (slot : Fin 1024)
  | ckptAbsorb (queue : Fin 1024) (slot : Fin 1024)
  | ckptRestore (queue : Fin 1024) (slot : Fin 1024) (crcOk : Bool)
  | flush (queue : Fin 1024) (slot : Fin 1024)
  | trim (queue : Fin 1024) (slot : Fin 1024)
  | queueReset (queue : Fin 1024)
  | fragmentRead (queue : Fin 1024) (slot : Fin 1024)
  | ledgerTimeout (queue : Fin 1024) (slot : Fin 1024)
  | ledgerCompletionWrite (queue : Fin 1024)
  | mediaIdleTimer
  | mediaWake
  | resumeRecordWrite (readBack : Bool)
  | mediaPageRead (block : Nat) (result : PageRead)
  | retentionScan (block : Nat) (weak : Bool)
  | mapCheckpoint (full : Bool)
  | writeBufferDrain
  | fold
  | relocationErase
  | dieLost (channel : Fin 96) (die : Fin 16)
  | superblockRebuilt (group : Fin 192) (pageLost : Bool)
  | podRecoveryStart
  | podRecoveryComplete (got : Fin 4096)
  | mediaHealthEvent (event : HealthEvent)
  | mediaReadOnly
  | flushComplete (readBack : Bool)
  | heartbeatSend
  | heartbeatReceive (m : LanMsg)
  | peerSilence (pos : Nat)
  | deviceLostReceive (m : LanMsg)
  | hangTimeout (pos : Nat)
  | lossReportReceive (m : LanMsg)
  | viewPropose
  | viewProposeReceive (m : LanMsg)
  | viewAckReceive (m : LanMsg)
  | viewCommitReceive (m : LanMsg)
  | quorumTimeout
  | legAbortReceive (m : LanMsg)
  | abortDoneReceive (m : LanMsg)
  | abortTimeout (ctx : Fin 64) (pos : Nat)
  | stepReportReceive (m : LanMsg)
  | stepCommitReceive (m : LanMsg)
  | restart (ctx : Fin 64) (carriers : List (Nat × Nat))
  | restartReceive (m : LanMsg) (remaps : List (Nat × Nat))
  | sealMessageReceive (m : LanMsg)
  | controlAckReceive (m : LanMsg)
  | controlResend
  | journalCopy
  | journalCopyReceive (m : LanMsg) (image : Bytes)
  | journalAckReceive (m : LanMsg)
  | watchdogKick
  | holdupOkRise
  | vfFlrComplete (vf : Fin 64)
  | pf0PowerState (d3hot : Bool)
  | mctpRequest (msg : McMsg)
  | perstNRelease
  | modResetNRelease
  | pausedStepEnd
  | podJoin (how : PodJoin)
  | roundsUnseatedTileTest (tile : Fin 96) (ok : Bool)
  | pfcPauseExpiry (port : Fin 32) (sub : Fin 4)
  deriving DecidableEq, Repr

end Sys2Proof
end

