-- ==== Sys2Proof/Decode.lean ====
section
/-!
DEFINITION. The table gives no row any bits (every row's "fields" is empty), so no word spells a command: commands come
as ring descriptors, register accesses, frames and pins, with the operands of their constructors.
-/
namespace Sys2Proof

/-- The command that a word spells by the table's bits: none, for every word.
(DESIGN CHOICE, log entry 13.) -/
def decodeTableWord (_nbits _w : Nat) : Option Instr := none

end Sys2Proof
end

