-- ==== Sys2Proof/Machine/Codes.lean ====
section
/-!
DEFINITION. The status codes of the spec: 16 bits, the high byte is the group of Table 0.4 (R11).
Each code stands in the status table of the chapter that owns it (Tables 0.4, 2.x to 21.x).
-/
namespace Sys2Proof.Machine

def stOK : Status := 0x0000#16
def stHOST_OPCODE : Status := 0x0101#16
def stHOST_ARGS : Status := 0x0102#16
def stTXN_STATE : Status := 0x0103#16
def stRING_CONFIG : Status := 0x0104#16
def stRING_FAULT : Status := 0x0105#16
def stHOST_DMA : Status := 0x0106#16
def stUPD_ARGS : Status := 0x0107#16
def stUPD_BASE : Status := 0x0108#16
def stSEC_ARGS : Status := 0x0111#16
def stMAN_FORMAT : Status := 0x0121#16
def stMAN_COUNT : Status := 0x0122#16
def stMAN_PLACEMENT : Status := 0x0123#16
def stRUN_GEOMETRY : Status := 0x0124#16
def stMAN_EPOCH : Status := 0x0125#16
def stINGEST_TOO_LARGE : Status := 0x0126#16
def stINGEST_TYPE : Status := 0x0127#16
def stIMG_FORMAT : Status := 0x0131#16
def stENG_DESC : Status := 0x0132#16
def stLANE_ILLEGAL : Status := 0x0133#16
def stLANE_ADDRESS : Status := 0x0134#16
def stLANE_BUDGET : Status := 0x0135#16
def stDEC_MALFORMED : Status := 0x0141#16
def stDEC_UNSUPPORTED : Status := 0x0142#16
def stDEC_LENGTH : Status := 0x0143#16
def stDEC_LIMIT : Status := 0x0144#16
def stDEC_CHECKSUM : Status := 0x0145#16
def stDEC_REGION : Status := 0x0146#16
def stINGEST_MALFORMED : Status := 0x0147#16
def stGEO_ARGS : Status := 0x0151#16
def stGEO_COVERAGE : Status := 0x0152#16
def stGEO_LIMIT : Status := 0x0153#16
def stTOK_ARGS : Status := 0x0161#16
def stTOK_ID : Status := 0x0162#16
def stVOC_FORMAT : Status := 0x0163#16
def stMXU_ARGS : Status := 0x0171#16
def stMODEL_FORMAT : Status := 0x0172#16
def stMIX_FORMAT : Status := 0x0173#16
def stMXU_SPECIAL : Status := 0x0174#16
def stPACK_CONFIG : Status := 0x0181#16
def stCONS_FORMAT : Status := 0x0182#16
def stSTEP_BEACON_FORMAT : Status := 0x0191#16
def stGATE_PLAN : Status := 0x0192#16
def stSHAPER_CONFIG : Status := 0x0193#16
def stNET_PORT_CONFIG : Status := 0x01A1#16
def stNET_QP_ARGS : Status := 0x01A2#16
def stNET_WINDOW_ARGS : Status := 0x01A3#16
def stLDG_ARGS : Status := 0x01B1#16
def stLDG_SEQUENCE : Status := 0x01B2#16
def stLDG_QUEUE_CONFIG : Status := 0x01B3#16
def stLDG_NOT_HOLDER : Status := 0x01B4#16
def stMED_CONFIG : Status := 0x01C1#16
def stLOG_ARGS : Status := 0x01E1#16
def stCTX_STATE : Status := 0x01F1#16
def stCTX_SHARE : Status := 0x01F2#16
def stTXN_LIMIT : Status := 0x0201#16
def stSEC_REPORT_BUSY : Status := 0x0211#16
def stCLK_BUSY : Status := 0x0212#16
def stCOOLANT_LOW : Status := 0x0213#16
def stHOLDUP_LOST : Status := 0x0214#16
def stPOWER_CLAMP : Status := 0x0215#16
def stTHERMAL_THROTTLE : Status := 0x0216#16
def stTILE_SEAT_BUSY : Status := 0x0231#16
def stTILE_FENCED : Status := 0x0232#16
def stTILE_NOT_SEATED : Status := 0x0233#16
def stTILE_FENCE_REQUESTED : Status := 0x0234#16
def stDEC_WINDOW : Status := 0x0241#16
def stTOK_LIMIT : Status := 0x0261#16
def stVOC_SLOT_BUSY : Status := 0x0262#16
def stVOC_BIND : Status := 0x0263#16
def stVOC_FAILED : Status := 0x0264#16
def stMXU_LIMIT : Status := 0x0271#16
def stMODEL_REGION_BUSY : Status := 0x0272#16
def stPACK_GROUPS : Status := 0x0281#16
def stNET_QP_EXHAUSTED : Status := 0x02A1#16
def stNET_WINDOW_EXHAUSTED : Status := 0x02A2#16
def stLDG_NO_SPACE : Status := 0x02B1#16
def stLDG_QUEUE_EXHAUSTED : Status := 0x02B2#16
def stPEG_EXHAUSTED : Status := 0x02D1#16
def stLOG_FULL : Status := 0x02E1#16
def stCTX_SHARE_EXCEEDED : Status := 0x02F1#16
def stSEAL_REPAIRED : Status := 0x0321#16
def stSEAL_UNRECOVERABLE : Status := 0x0322#16
def stLDG_DEFERRED : Status := 0x03B1#16
def stLDG_DAMAGED : Status := 0x03B2#16
def stLDG_NOT_FOUND : Status := 0x03B3#16
def stMED_DIE_LOST : Status := 0x03C1#16
def stMED_STRIPE_LOST : Status := 0x03C2#16
def stMED_POD_RECOVERED : Status := 0x03C3#16
def stMED_POD_UNRECOVERABLE : Status := 0x03C4#16
def stMED_METADATA_LOST : Status := 0x03C5#16
def stMED_HEALTH : Status := 0x03C6#16
def stMED_FLUSH_INCOMPLETE : Status := 0x03C7#16
def stMED_RESUME_REPAIRED : Status := 0x03C8#16
def stMED_RESUME_LOST : Status := 0x03C9#16
def stLAN_PEER_LOST : Status := 0x0401#16
def stLAN_NO_QUORUM : Status := 0x0402#16
def stLAN_EXCLUDED : Status := 0x0403#16
def stDELIVER_FAILED : Status := 0x0481#16
def stTIME_DEGRADED : Status := 0x0491#16
def stTIME_LOST : Status := 0x0492#16
def stNET_RETRY_EXCEEDED : Status := 0x04A1#16
def stNET_REMOTE_ACCESS : Status := 0x04A2#16
def stNET_REMOTE_INVALID : Status := 0x04A3#16
def stNET_FLUSHED : Status := 0x04A4#16
def stNET_LINK_DOWN : Status := 0x04A5#16
def stSEC_BLOB_AUTH : Status := 0x0511#16
def stSEC_DELIVERY : Status := 0x0512#16
def stSEC_REPLAY : Status := 0x0513#16
def stSEC_DEBUG_TOKEN : Status := 0x0514#16
def stSEC_SEAL_FAIL : Status := 0x0515#16
def stSEC_NO_KEYS : Status := 0x0516#16
def stUPD_SIGNATURE : Status := 0x0517#16
def stUPD_SECURITY : Status := 0x0518#16
def stUPD_BLOCK : Status := 0x0519#16
def stIMG_AUTH : Status := 0x0531#16
def stVOC_SLOT_DENIED : Status := 0x0561#16
def stVOC_AUTH : Status := 0x0562#16
def stNET_INSECURE : Status := 0x05A1#16
def stLOG_AUTH : Status := 0x05E1#16
def stREPRO_MISMATCH : Status := 0x0601#16
def stSHADOW_MISMATCH : Status := 0x0602#16
def stSHADOW_DIVERGE : Status := 0x0603#16
def stROUNDS_FAIL : Status := 0x0604#16
def stLOCKSTEP_MISMATCH : Status := 0x0605#16
def stENGINE_COMPARE : Status := 0x0606#16
def stFLT_FORCED : Status := 0x0607#16
def stUPD_CONTENT : Status := 0x0608#16
def stUPD_COMPAT : Status := 0x0609#16
def stSHADOW_TRANSIENT : Status := 0x060A#16
def stDICE_CHECK : Status := 0x0621#16
def stDICE_ALL_FENCED : Status := 0x0622#16
def stIMG_COMPAT : Status := 0x0631#16
def stSPLIT_COMPAT : Status := 0x0632#16
def stTILE_UNCORRECTED : Status := 0x0635#16
def stMXU_RANGE : Status := 0x0671#16
def stMXU_RESIDUE : Status := 0x0672#16
def stEXCH_CHECK : Status := 0x0681#16
def stPACK_SHADOW : Status := 0x0682#16
def stLOG_CHAIN : Status := 0x06E1#16
def stUNIT_ABSENT : Status := 0x0701#16
def stMED_FENCED : Status := 0x07C1#16
def stINK_NOT_OWNER : Status := 0x0801#16
def stINK_ALREADY_FREE : Status := 0x0802#16
def stINK_OVER_CAP : Status := 0x0803#16
def stINK_BOOK_SHORT : Status := 0x0804#16
def stINK_ARGS : Status := 0x0805#16
def stSAFE_STOP_DEMAND : Status := 0x0901#16
def stSAFE_STOP_DISAGREE : Status := 0x0902#16
def stTHERMAL_TRIP : Status := 0x0903#16
def stLEG_ABORTED : Status := 0x0904#16
def stLEG_NO_CARRIER : Status := 0x0905#16
def stJOURNAL_CHECK : Status := 0x0906#16
def stTXN_CANCEL_LATE : Status := 0x0907#16
def stCDC_SYNC : Status := 0x0908#16
def stPLL_UNLOCK : Status := 0x0909#16
def stCDC_UNCORRECTED : Status := 0x090A#16
def stPPS_IN_MISSING : Status := 0x090B#16
def stUPD_STATE : Status := 0x090C#16
def stUPD_ROLLED_BACK : Status := 0x090D#16
def stSETTINGS_DEFAULTED : Status := 0x090E#16
def stBAR_NOT_MEMBER : Status := 0x0931#16
def stBAR_TWICE : Status := 0x0932#16
def stBAR_NO_ARRIVAL : Status := 0x0933#16
def stENG_OVERLAP : Status := 0x0934#16
def stMIX_LATE : Status := 0x0971#16
def stMIX_SEQUENCE : Status := 0x0972#16
def stEXCH_DUPLICATE : Status := 0x0981#16
def stCONS_CREDIT : Status := 0x0982#16
def stSTEP_SEQUENCE : Status := 0x0991#16
def stSTEP_JUMP : Status := 0x0992#16
def stSTEP_LATE : Status := 0x0993#16
def stSTEP_DEADLINE : Status := 0x0994#16
def stSTEP_HOLD : Status := 0x0995#16
def stSTEP_COMMIT_LATE : Status := 0x0996#16
def stSTEP_SOURCE_CONFLICT : Status := 0x0997#16
def stSTEP_PERIOD : Status := 0x0998#16
def stLDG_GEN_STATE : Status := 0x09B1#16
def stLDG_ABORTED : Status := 0x09B2#16
def stLDG_TIMEOUT : Status := 0x09B3#16
def stLDG_RESET_DENIED : Status := 0x09B4#16
def stPEG_UNMAPPED : Status := 0x09D1#16
def stPEG_OVERFLOW : Status := 0x09D2#16
def stPEG_RANGE : Status := 0x09D3#16
def stDBAR_SENSE : Status := 0x09D4#16
def stDBAR_NOT_MEMBER : Status := 0x09D5#16
def stCTX_RESET : Status := 0x09F1#16

end Sys2Proof.Machine
end

