-- ==== Sys2Proof/Machine/Crypto.lean ====
section
/-!
DEFINITION. The outside standards the spec names by number, written out: AES-128 and AES-256 (FIPS 197), GCM
(SP 800-38D), XTS (SP 800-38E), KMAC256 (SP 800-185 over FIPS 202), SHA-384 (FIPS 180-4), and the checksums CRC-64 of R52,
CRC-32 (RFC 1952) and Adler-32 (RFC 1950). Byte strings are `Bytes`; inside, bytes are numbers below 256.
-/
namespace Sys2Proof.Machine

/-! ## AES -/

def gfDouble (x : Nat) : Nat := (2 * x) ^^^ (x / 128 * 283)

def gfMulAux : Nat → Nat → Nat → Nat
  | 0, _, _ => 0
  | k + 1, a, b => (b % 2 * a) ^^^ gfMulAux k (gfDouble a) (b / 2)

/-- Product in GF(2^8) modulo x^8 + x^4 + x^3 + x + 1. -/
def gfMul (a b : Nat) : Nat := gfMulAux 8 a b

def gfInv (x : Nat) : Nat :=
  let x2 := gfMul x x
  let x3 := gfMul x2 x
  let x6 := gfMul x3 x3
  let x12 := gfMul x6 x6
  let x15 := gfMul x12 x3
  let x30 := gfMul x15 x15
  let x60 := gfMul x30 x30
  let x120 := gfMul x60 x60
  let x126 := gfMul x120 x6
  let x127 := gfMul x126 x
  gfMul x127 x127

def aesSboxOf (x : Nat) : Nat :=
  let b := gfInv x
  let rot (n : Nat) := (b * 2 ^ n % 256) ^^^ (b / 2 ^ (8 - n))
  b ^^^ rot 1 ^^^ rot 2 ^^^ rot 3 ^^^ rot 4 ^^^ 99

/-- A 256-byte substitution table as one number: byte x at bits [8x + 7 : 8x]. -/
def packTable (f : Nat → Nat) : Nat := (List.range 256).foldr (fun x a => a * 256 + f (x)) 0

def aesSboxTable : Nat := packTable aesSboxOf

def aesSbox (x : Nat) : Nat := aesSboxTable / 2 ^ (8 * x) % 256

def aesInvTable : Nat :=
  (List.range 256).foldl (fun a x => a + x * 2 ^ (8 * aesSboxOf x)) 0

def aesInvSbox (x : Nat) : Nat := aesInvTable / 2 ^ (8 * x) % 256

def xorNats (a b : List Nat) : List Nat := List.zipWith (· ^^^ ·) a b

/-- Key expansion: four-byte words, `nk` words of key, `total` words in all. The list is kept newest first. -/
def aesExpand (nk : Nat) : Nat → Nat → Nat → List (List Nat) → List (List Nat)
  | 0, _, _, ws => ws.reverse
  | fuel + 1, i, rcon, ws =>
    let prev := ws.headD []
    let back := ws.getD (nk - 1) []
    let t :=
      if i % nk = 0 then
        xorNats ((prev.drop 1 ++ prev.take 1).map aesSbox) [rcon, 0, 0, 0]
      else if nk = 8 ∧ i % nk = 4 then prev.map aesSbox
      else prev
    aesExpand nk fuel (i + 1) (if i % nk = 0 then gfDouble rcon else rcon) (xorNats back t :: ws)

def chunks4 : Nat → List Nat → List (List Nat)
  | 0, _ => []
  | n + 1, l => l.take 4 :: chunks4 n (l.drop 4)

/-- Round keys of 16 bytes each, for a 16- or 32-byte key. -/
def aesRoundKeys (key : Bytes) : List (List Nat) :=
  let nk := if key.length = 32 then 8 else 4
  let rounds := nk + 6
  let ws := aesExpand nk (4 * (rounds + 1) - nk) nk 1 (chunks4 nk (key.map (·.toNat))).reverse
  (List.range (rounds + 1)).map (fun r => ((ws.drop (4 * r)).take 4).flatten)

def aesShift (st : List Nat) : List Nat :=
  (List.range 16).map (fun i => st.getD ((i + 4 * (i % 4)) % 16) 0)

def aesInvShift (st : List Nat) : List Nat :=
  (List.range 16).map (fun i => st.getD ((i + 12 * (i % 4)) % 16) 0)

/-- One column times the circulant matrix whose first row is m (entries below 16). -/
def aesMixColumn (m : List Nat) (c : List Nat) : List Nat :=
  match m, c with
  | [m0, m1, m2, m3], [c0, c1, c2, c3] =>
    let row (a b c d : Nat) := gfMulAux 4 c0 a ^^^ gfMulAux 4 c1 b ^^^ gfMulAux 4 c2 c ^^^ gfMulAux 4 c3 d
    [row m0 m1 m2 m3, row m3 m0 m1 m2, row m2 m3 m0 m1, row m1 m2 m3 m0]
  | _, _ => []

def aesMix (m : List Nat) (st : List Nat) : List Nat := ((chunks4 4 st).map (aesMixColumn m)).flatten

def aesRounds : List (List Nat) → List Nat → List Nat
  | [], st => st
  | [k], st => xorNats (aesShift (st.map aesSbox)) k
  | k :: ks, st => aesRounds ks (xorNats (aesMix [2, 3, 1, 1] (aesShift (st.map aesSbox))) k)

def toNats (b : Bytes) : List Nat := b.map (·.toNat)

def ofNats (l : List Nat) : Bytes := l.map byteOf

/-- AES encryption of one 16-byte block (AES-128 or AES-256 by the key's length). -/
def aesEncrypt (key block : Bytes) : Bytes :=
  match aesRoundKeys key with
  | [] => block
  | k :: ks => ofNats (aesRounds ks (xorNats (toNats block) k))

def aesInvRounds : List (List Nat) → List Nat → List Nat
  | [], st => st
  | [k], st => xorNats ((aesInvShift st).map aesInvSbox) k
  | k :: ks, st => aesInvRounds ks (aesMix [14, 11, 13, 9] (xorNats ((aesInvShift st).map aesInvSbox) k))

def aesDecrypt (key block : Bytes) : Bytes :=
  match (aesRoundKeys key).reverse with
  | [] => block
  | k :: ks => ofNats (aesInvRounds ks (xorNats (toNats block) k))

/-! ## GCM -/

/-- GHASH product: bit 0 of GCM is the most significant bit of the big-endian 128-bit number. -/
def ghashMulAux : Nat → Nat → Nat → Nat → Nat
  | 0, _, _, z => z
  | k + 1, x, v, z =>
    ghashMulAux k x ((v / 2) ^^^ (v % 2 * (225 * 2 ^ 120))) (z ^^^ (x / 2 ^ k % 2 * v))

def ghashMul (x y : Nat) : Nat := ghashMulAux 128 x y 0

/-- Blocks of at most 16 bytes, the last zero-padded. -/
def blocks16 : Nat → Bytes → List Bytes
  | 0, _ => []
  | n + 1, b => slice b 0 16 :: blocks16 n (b.drop 16)

def blocksOf (b : Bytes) : List Bytes := blocks16 (ceilDiv b.length 16) b

def ghash (h : Nat) (aad ct : Bytes) : Nat :=
  let lens := toBE 8 (8 * aad.length) ++ toBE 8 (8 * ct.length)
  (blocksOf aad ++ blocksOf ct ++ [lens]).foldl (fun y b => ghashMul (y ^^^ beNat b) h) 0

def gcmCtr (key nonce : Bytes) : Nat → List Bytes → Bytes
  | _, [] => []
  | c, b :: bs => xorBytes b (aesEncrypt key (nonce ++ toBE 4 c)) ++ gcmCtr key nonce (c + 1) bs

def gcmCrypt (key nonce data : Bytes) : Bytes := (gcmCtr key nonce 2 (blocksOf data)).take data.length

def gcmTag (key nonce aad ct : Bytes) : Bytes :=
  let h := beNat (aesEncrypt key (zeros 16))
  xorBytes (toBE 16 (ghash h aad ct)) (aesEncrypt key (nonce ++ toBE 4 1))

/-- AES-GCM with a 12-byte nonce: ciphertext and 16-byte tag. -/
def gcmSeal (key nonce aad pt : Bytes) : Bytes × Bytes :=
  let ct := gcmCrypt key nonce pt
  (ct, gcmTag key nonce aad ct)

/-- The plaintext, or none when the tag does not verify. -/
def gcmOpen (key nonce aad ct tag : Bytes) : Option Bytes :=
  if gcmTag key nonce aad ct = tag then some (gcmCrypt key nonce ct) else none

/-! ## XTS -/

def xtsDouble (t : Nat) : Nat :=
  let d := 2 * t
  if 2 ^ 128 ≤ d then (d - 2 ^ 128) ^^^ 135 else d

def xtsBlocks (cipher : Bytes → Bytes) : Nat → List Bytes → Bytes
  | _, [] => []
  | t, b :: bs =>
    let tw := toLE 16 t
    xorBytes (cipher (xorBytes b tw)) tw ++ xtsBlocks cipher (xtsDouble t) bs

/-- AES-256-XTS of a whole number of 16-byte blocks: data key, tweak key, tweak. -/
def xtsEncrypt (k1 k2 tweak data : Bytes) : Bytes :=
  xtsBlocks (aesEncrypt k1) (leNat (aesEncrypt k2 tweak)) (blocksOf data)

def xtsDecrypt (k1 k2 tweak data : Bytes) : Bytes :=
  xtsBlocks (aesDecrypt k1) (leNat (aesEncrypt k2 tweak)) (blocksOf data)

/-! ## Keccak and KMAC256 -/

def rotl64 (x n : Nat) : Nat := (x * 2 ^ (n % 64)) % 2 ^ 64 + x / 2 ^ (64 - n % 64)

/-- Rotation offsets of Keccak-f[1600], lane x + 5 y. -/
def keccakRot : List Nat :=
  [0, 1, 62, 28, 27, 36, 44, 6, 55, 20, 3, 10, 43, 25, 39, 41, 45, 15, 21, 8, 18, 2, 61, 56, 14]

def keccakRC : List Nat :=
  [0x0000000000000001, 0x0000000000008082, 0x800000000000808A, 0x8000000080008000, 0x000000000000808B,
   0x0000000080000001, 0x8000000080008081, 0x8000000000008009, 0x000000000000008A, 0x0000000000000088,
   0x0000000080008009, 0x000000008000000A] ++
  [0x000000008000808B, 0x800000000000008B, 0x8000000000008089, 0x8000000000008003, 0x8000000000008002,
   0x8000000000000080, 0x000000000000800A, 0x800000008000000A, 0x8000000080008081, 0x8000000000008080,
   0x0000000080000001, 0x8000000080008008]

def keccakRound (a : List Nat) (rc : Nat) : List Nat :=
  let at' (l : List Nat) (i : Nat) := l.getD i 0
  let c := (List.range 5).map (fun x =>
    at' a x ^^^ at' a (x + 5) ^^^ at' a (x + 10) ^^^ at' a (x + 15) ^^^ at' a (x + 20))
  let d := (List.range 5).map (fun x => at' c ((x + 4) % 5) ^^^ rotl64 (at' c ((x + 1) % 5)) 1)
  let t := (List.range 25).map (fun i => at' a i ^^^ at' d (i % 5))
  let b := (List.range 25).map (fun i =>
    let x := i % 5
    let y := i / 5
    let src := (x + 3 * y) % 5 + 5 * x
    rotl64 (at' t src) (at' keccakRot src))
  (List.range 25).map (fun i =>
    let x := i % 5
    let y := i / 5
    let v := at' b i ^^^ ((2 ^ 64 - 1 - at' b ((x + 1) % 5 + 5 * y)) &&& at' b ((x + 2) % 5 + 5 * y))
    if i = 0 then v ^^^ rc else v)

def keccakF (a : List Nat) : List Nat := keccakRC.foldl keccakRound a

def lanesOf : Nat → Bytes → List Nat
  | 0, _ => []
  | n + 1, b => fieldAt b 0 8 :: lanesOf n (b.drop 8)

def absorb : Nat → Nat → Bytes → List Nat → List Nat
  | 0, _, _, st => st
  | n + 1, rate, b, st => absorb n rate (b.drop rate) (keccakF (xorNats st (lanesOf 25 (b.take rate))))

def squeeze : Nat → Nat → List Nat → Bytes
  | 0, _, _ => []
  | n + 1, rate, st => ((st.flatMap (toLE 8)).take rate) ++ squeeze n rate (keccakF st)

/-- Keccak sponge with domain bits `dom` (pad10*1 included). -/
def sponge (rate dom len : Nat) (msg : Bytes) : Bytes :=
  let n := msg.length / rate + 1
  let padded := msg ++ [byteOf dom] ++ zeros (n * rate - msg.length - 1)
  let last := n * rate - 1
  let padded := putAt padded last [byteOf ((padded.getD last 0).toNat ^^^ 128)]
  (squeeze (ceilDiv len rate) rate (absorb n rate padded (List.replicate 25 0))).take len

def beMinimalAux : Nat → Nat → Bytes → Bytes
  | 0, _, acc => acc
  | fuel + 1, n, acc => if n = 0 then acc else beMinimalAux fuel (n / 256) (byteOf n :: acc)

/-- Big-endian bytes of n without leading zeros, at least one byte. -/
def beMinimal (n : Nat) : Bytes := if n = 0 then [0#8] else beMinimalAux 16 n []

def leftEncode (n : Nat) : Bytes := let b := beMinimal n; byteOf b.length :: b
def rightEncode (n : Nat) : Bytes := let b := beMinimal n; b ++ [byteOf b.length]
def encodeString (b : Bytes) : Bytes := leftEncode (8 * b.length) ++ b
def bytepad (b : Bytes) (w : Nat) : Bytes :=
  let t := leftEncode w ++ b
  t ++ zeros ((w - t.length % w) % w)

/-- KMAC256(K, X, L, S) with L in bits, L a multiple of 8. -/
def kmac256 (k x : Bytes) (lBits : Nat) (s : Bytes) : Bytes :=
  let head := bytepad (encodeString (ascii "KMAC") ++ encodeString s) 136
  sponge 136 4 (lBits / 8) (head ++ bytepad (encodeString k) 136 ++ x ++ rightEncode lBits)

/-! ## SHA-384 -/

def rotr64 (x n : Nat) : Nat := x / 2 ^ n + (x * 2 ^ (64 - n)) % 2 ^ 64

def sha512K : List Nat :=
  [0x428a2f98d728ae22, 0x7137449123ef65cd, 0xb5c0fbcfec4d3b2f, 0xe9b5dba58189dbbc, 0x3956c25bf348b538,
   0x59f111f1b605d019, 0x923f82a4af194f9b, 0xab1c5ed5da6d8118, 0xd807aa98a3030242, 0x12835b0145706fbe,
   0x243185be4ee4b28c, 0x550c7dc3d5ffb4e2, 0x72be5d74f27b896f, 0x80deb1fe3b1696b1, 0x9bdc06a725c71235,
   0xc19bf174cf692694, 0xe49b69c19ef14ad2, 0xefbe4786384f25e3, 0x0fc19dc68b8cd5b5, 0x240ca1cc77ac9c65] ++
  [0x2de92c6f592b0275, 0x4a7484aa6ea6e483, 0x5cb0a9dcbd41fbd4, 0x76f988da831153b5, 0x983e5152ee66dfab,
   0xa831c66d2db43210, 0xb00327c898fb213f, 0xbf597fc7beef0ee4, 0xc6e00bf33da88fc2, 0xd5a79147930aa725,
   0x06ca6351e003826f, 0x142929670a0e6e70, 0x27b70a8546d22ffc, 0x2e1b21385c26c926, 0x4d2c6dfc5ac42aed,
   0x53380d139d95b3df, 0x650a73548baf63de, 0x766a0abb3c77b2a8, 0x81c2c92e47edaee6, 0x92722c851482353b] ++
  [0xa2bfe8a14cf10364, 0xa81a664bbc423001, 0xc24b8b70d0f89791, 0xc76c51a30654be30, 0xd192e819d6ef5218,
   0xd69906245565a910, 0xf40e35855771202a, 0x106aa07032bbd1b8, 0x19a4c116b8d2d0c8, 0x1e376c085141ab53,
   0x2748774cdf8eeb99, 0x34b0bcb5e19b48a8, 0x391c0cb3c5c95a63, 0x4ed8aa4ae3418acb, 0x5b9cca4f7763e373,
   0x682e6ff3d6b2b8a3, 0x748f82ee5defb2fc, 0x78a5636f43172f60, 0x84c87814a1f0ab72, 0x8cc702081a6439ec] ++
  [0x90befffa23631e28, 0xa4506cebde82bde9, 0xbef9a3f7b2c67915, 0xc67178f2e372532b, 0xca273eceea26619c,
   0xd186b8c721c0c207, 0xeada7dd6cde0eb1e, 0xf57d4f7fee6ed178, 0x06f067aa72176fba, 0x0a637dc5a2c898a6,
   0x113f9804bef90dae, 0x1b710b35131c471b, 0x28db77f523047d84, 0x32caab7b40c72493, 0x3c9ebe0a15c9bebc,
   0x431d67c49c100d4c, 0x4cc5d4becb3e42b6, 0x597f299cfc657e2a, 0x5fcb6fab3ad6faec, 0x6c44198c4a475817]

def sha384Init : List Nat :=
  [0xcbbb9d5dc1059ed8, 0x629a292a367cd507, 0x9159015a3070dd17, 0x152fecd8f70e5939,
   0x67332667ffc00b31, 0x8eb44a8768581511, 0xdb0c2e0d64f98fa7, 0x47b5481dbefa4fa4]

def shaSchedule : Nat → List Nat → List Nat
  | 0, ws => ws.reverse
  | n + 1, ws =>
    let w15 := ws.getD 14 0
    let w2 := ws.getD 1 0
    let s0 := rotr64 w15 1 ^^^ rotr64 w15 8 ^^^ (w15 / 128)
    let s1 := rotr64 w2 19 ^^^ rotr64 w2 61 ^^^ (w2 / 64)
    shaSchedule n ((ws.getD 15 0 + s0 + ws.getD 6 0 + s1) % 2 ^ 64 :: ws)

def shaStep (h : List Nat) (kw : Nat × Nat) : List Nat :=
  match h with
  | [a, b, c, d, e, f, g, i] =>
    let s1 := rotr64 e 14 ^^^ rotr64 e 18 ^^^ rotr64 e 41
    let ch := (e &&& f) ^^^ ((2 ^ 64 - 1 - e) &&& g)
    let t1 := i + s1 + ch + kw.1 + kw.2
    let s0 := rotr64 a 28 ^^^ rotr64 a 34 ^^^ rotr64 a 39
    let maj := (a &&& b) ^^^ (a &&& c) ^^^ (b &&& c)
    [(t1 + s0 + maj) % 2 ^ 64, a, b, c, (d + t1) % 2 ^ 64, e, f, g]
  | _ => h

def bigLanes : Nat → Bytes → List Nat
  | 0, _ => []
  | n + 1, b => beNat (slice b 0 8) :: bigLanes n (b.drop 8)

def shaBlocks : Nat → Bytes → List Nat → List Nat
  | 0, _, h => h
  | n + 1, b, h =>
    let ws := shaSchedule 64 (bigLanes 16 (b.take 128)).reverse
    let h' := (List.zip sha512K ws).foldl shaStep h
    shaBlocks n (b.drop 128) (List.zipWith (fun x y => (x + y) % 2 ^ 64) h h')

def sha384 (msg : Bytes) : Bytes :=
  let n := (msg.length + 16) / 128 + 1
  let padded := msg ++ [128#8] ++ zeros (n * 128 - msg.length - 17) ++ toBE 16 (8 * msg.length)
  ((shaBlocks n padded sha384Init).flatMap (toBE 8)).take 48

/-! ## Checksums -/

def crcStep (poly : Nat) : Nat → Nat → Nat
  | 0, c => c
  | k + 1, c => crcStep poly k (if c % 2 = 1 then (c / 2) ^^^ poly else c / 2)

/-- CRC-64 of R52: reflected polynomial, initial value and final exclusive-or all ones. -/
def crc64 (bs : Bytes) : Nat :=
  bs.foldl (fun c b => crcStep 0x9A6C9329AC4BC9B5 8 (c ^^^ b.toNat)) (2 ^ 64 - 1) ^^^ (2 ^ 64 - 1)

def crc32 (bs : Bytes) : Nat :=
  bs.foldl (fun c b => crcStep 0xEDB88320 8 (c ^^^ b.toNat)) (2 ^ 32 - 1) ^^^ (2 ^ 32 - 1)

def adler32 (bs : Bytes) : Nat :=
  let r := bs.foldl (fun (p : Nat × Nat) b =>
    let a := (p.1 + b.toNat) % 65521
    (a, (p.2 + a) % 65521)) (1, 0)
  r.2 * 65536 + r.1

end Sys2Proof.Machine
end

