-- ==== Sys2Proof/Machine/Inflate.lean ====
section
/-!
DEFINITION. Engine 0x01 and 0x14, CODEC 1 to 3: raw DEFLATE, zlib and gzip as R107, R108 and R109 bound them.
A decoder works on the input's bits (least significant first) and on its output, newest byte first.
-/
namespace Sys2Proof.Machine

/-- What a decoding call ends with: status, produced length, output bytes (Table 3.5 takes status and length). -/
structure EngRes where
  status : Status
  len : Nat
  out : Bytes
  deriving DecidableEq, Repr

def engFail (st : Status) : EngRes := ⟨st, 0, []⟩

/-- Why a stream stops: a status before the end of its checks, or the bound of R109 (output so far, newest first). -/
inductive Stop where
  | bad (st : Status)
  | full (out : Bytes)
  deriving DecidableEq, Repr

/-- A decoder's place: bits not yet read, bytes produced (newest first), their number, the bound EXPECT_LEN. -/
structure Infl where
  bits : List Bool
  out : Bytes
  n : Nat
  limit : Nat
  deriving DecidableEq, Repr

abbrev Step (α : Type) := Except Stop (α × Infl)

def byteBits (b : Byte) : List Bool := (List.range 8).map (fun i => bitOf b.toNat i)

def bitsOfBytes (b : Bytes) : List Bool := b.flatMap byteBits

def bitsNat : List Bool → Nat
  | [] => 0
  | b :: bs => (if b then 1 else 0) + 2 * bitsNat bs

/-- The next k bits, least significant first; a stream that ends early is DEC_MALFORMED (R108). -/
def takeBits (k : Nat) (z : Infl) : Step Nat :=
  let t := z.bits.take k
  if t.length = k then .ok (bitsNat t, { z with bits := z.bits.drop k }) else .error (.bad stDEC_MALFORMED)

def malformed {α : Type} : Step α := .error (.bad stDEC_MALFORMED)

/-- One output byte; at EXPECT_LEN the engine stops (R109). -/
def emit (b : Byte) (z : Infl) : Except Stop Infl :=
  if z.limit ≤ z.n then .error (.full z.out) else .ok { z with out := b :: z.out, n := z.n + 1 }

def emitAll : Bytes → Infl → Except Stop Infl
  | [], z => .ok z
  | b :: bs, z => (emit b z).bind (emitAll bs)

/-- `len` bytes copied from distance `d`. -/
def copyBack : Nat → Nat → Infl → Except Stop Infl
  | 0, _, z => .ok z
  | len + 1, d, z => (emit (z.out.getD (d - 1) 0#8) z).bind (copyBack len d)

/-- A prefix code: symbols of each length 1 to 15, in code order. -/
abbrev Huff := List (List Nat)

def huffSyms (lens : List Nat) : Huff :=
  (List.range 15).map (fun l =>
    (List.zip lens (List.range lens.length)).filterMap (fun p => if p.1 = l + 1 then some p.2 else none))

/-- Unused code space, in units of 2^-15; none when over-subscribed. -/
def huffLeft (lens : List Nat) : Option Nat :=
  let used := (lens.map (fun l => if l = 0 then 0 else 2 ^ (15 - l))).sum
  if 2 ^ 15 < used then none else some (2 ^ 15 - used)

/-- A code of R108: complete, but for a distance code of one length-1 code or of none. -/
def mkHuff (lens : List Nat) (dist : Bool) : Option Huff :=
  let used := lens.filter (· ≠ 0)
  match huffLeft lens with
  | none => none
  | some 0 => some (huffSyms lens)
  | some _ => if dist && (used = [] || used = [1]) then some (huffSyms lens) else none

def huffWalk : Huff → Nat → Nat → Infl → Step Nat
  | [], _, _, _ => malformed
  | row :: rows, code, first, z =>
    match takeBits 1 z with
    | .error e => .error e
    | .ok (b, z) =>
      let code := 2 * code + b
      let first := 2 * first
      if code < first + row.length then .ok (row.getD (code - first) 0, z)
      else huffWalk rows code (first + row.length) z

def huffSym (h : Huff) (z : Infl) : Step Nat := huffWalk h 0 0 z

def lengthBase : List Nat :=
  [3, 4, 5, 6, 7, 8, 9, 10, 11, 13, 15, 17, 19, 23, 27, 31, 35, 43, 51, 59, 67, 83, 99, 115, 131, 163, 195, 227, 258]
def lengthExtra (s : Nat) : Nat := if s < 8 ∨ s = 28 then 0 else s / 4 - 1
def distBase (s : Nat) : Nat := if s < 4 then s + 1 else (2 + s % 2) * 2 ^ (s / 2 - 1) + 1
def distExtra (s : Nat) : Nat := if s < 4 then 0 else s / 2 - 1

/-- A length and distance pair: the match is checked, then copied up to the bound (R108, R109). -/
def inflMatch (dst : Huff) (sym : Nat) (z : Infl) : Except Stop Infl := do
  if 286 ≤ sym then throw (.bad stDEC_MALFORMED)
  if dst.all (·.isEmpty) then throw (.bad stDEC_MALFORMED)
  let s := sym - 257
  let (ex, z) ← takeBits (lengthExtra s) z
  let (d, z) ← huffSym dst z
  if 30 ≤ d then throw (.bad stDEC_MALFORMED)
  let (dx, z) ← takeBits (distExtra d) z
  let dist := distBase d + dx
  if z.n < dist then throw (.bad stDEC_MALFORMED)
  copyBack (lengthBase.getD s 0 + ex) dist z

def inflCodes (lit dst : Huff) : Nat → Infl → Except Stop Infl
  | 0, _ => .error (.bad stDEC_MALFORMED)
  | fuel + 1, z =>
    match huffSym lit z with
    | .error e => .error e
    | .ok (s, z) =>
      if s < 256 then (emit (byteOf s) z).bind (inflCodes lit dst fuel)
      else if s = 256 then .ok z
      else (inflMatch dst s z).bind (inflCodes lit dst fuel)

/-- Code lengths of a dynamic block: `total` of them, newest first. -/
def readLens (cl : Huff) (total : Nat) : Nat → List Nat → Infl → Step (List Nat)
  | 0, _, _ => malformed
  | fuel + 1, acc, z =>
    if acc.length = total then .ok (acc.reverse, z)
    else
      match huffSym cl z with
      | .error e => .error e
      | .ok (s, z) =>
        if s < 16 then readLens cl total fuel (s :: acc) z
        else
          let (k, base) := if s = 16 then (2, 3) else if s = 17 then (3, 3) else (7, 11)
          match takeBits k z with
          | .error e => .error e
          | .ok (x, z) =>
            let v := if s = 16 then acc.headD 0 else 0
            let rep := base + x
            if (s = 16 ∧ acc = []) ∨ total < acc.length + rep then malformed
            else readLens cl total fuel (List.replicate rep v ++ acc) z

def clOrder : List Nat := [16, 17, 18, 0, 8, 7, 9, 6, 10, 5, 11, 4, 12, 3, 13, 2, 14, 1, 15]

def readTriples : Nat → Infl → Step (List Nat)
  | 0, z => .ok ([], z)
  | n + 1, z =>
    match takeBits 3 z with
    | .error e => .error e
    | .ok (x, z) =>
      match readTriples n z with
      | .error e => .error e
      | .ok (xs, z) => .ok (x :: xs, z)

def dynamicCodes (z : Infl) : Except Stop ((Huff × Huff) × Infl) := do
  let (hlit, z) ← takeBits 5 z
  let (hdist, z) ← takeBits 5 z
  let (hclen, z) ← takeBits 4 z
  if 29 < hlit ∨ 29 < hdist then throw (.bad stDEC_MALFORMED)
  let (ls, z) ← readTriples (hclen + 4) z
  let byOrder := List.zip clOrder ls
  let cls := (List.range 19).map (fun i => ((byOrder.find? (fun p => p.1 = i)).map (·.2)).getD 0)
  match mkHuff cls false with
  | none => malformed
  | some cl =>
    let total := hlit + 257 + hdist + 1
    let (lens, z) ← readLens cl total (total + 1) [] z
    match mkHuff (lens.take (hlit + 257)) false, mkHuff (lens.drop (hlit + 257)) true with
    | some l, some d => .ok ((l, d), z)
    | _, _ => malformed

def staticLens : List Nat :=
  List.replicate 144 8 ++ List.replicate 112 9 ++ List.replicate 24 7 ++ List.replicate 8 8

/-- Drops bits up to the next byte boundary of the stream (the list's length is a multiple of 8 at a boundary). -/
def alignBits (z : Infl) : Infl := { z with bits := z.bits.drop (z.bits.length % 8) }

def bytesOfBits : Nat → List Bool → Bytes
  | 0, _ => []
  | n + 1, bs => byteOf (bitsNat (bs.take 8)) :: bytesOfBits n (bs.drop 8)

def storedBlock (z : Infl) : Except Stop Infl := do
  let (len, z) ← takeBits 16 (alignBits z)
  let (nlen, z) ← takeBits 16 z
  if len + nlen ≠ 65535 then throw (.bad stDEC_MALFORMED)
  let have_ := min len (z.bits.length / 8)
  let z' ← emitAll (bytesOfBits have_ z.bits) { z with bits := z.bits.drop (8 * have_) }
  if have_ < len then throw (if z'.limit ≤ z'.n then .full z'.out else .bad stDEC_MALFORMED)
  return z'

/-- Blocks up to and including the final one. (DEDUCED, log entry 21.) -/
def inflBlocks : Nat → Infl → Except Stop Infl
  | 0, _ => .error (.bad stDEC_MALFORMED)
  | fuel + 1, z => do
    let (fin, z) ← takeBits 1 z
    let (kind, z) ← takeBits 2 z
    let budget := z.bits.length + 1
    let z ←
      if kind = 0 then storedBlock z
      else if kind = 1 then
        match mkHuff staticLens false with
        | some l => inflCodes l (huffSyms (List.replicate 32 5)) budget z
        | none => .error (.bad stDEC_MALFORMED)
      else if kind = 2 then do
        let (c, z) ← dynamicCodes z
        inflCodes c.1 c.2 budget z
      else .error (.bad stDEC_MALFORMED)
    if fin = 1 then return alignBits z else inflBlocks fuel z

def startInfl (data : Bytes) (limit : Nat) : Infl := ⟨bitsOfBytes data, [], 0, limit⟩

/-- One DEFLATE stream: its output (oldest first) and the bytes after it. -/
def inflate (data : Bytes) (limit : Nat) : Except Stop (Bytes × Bytes) :=
  match inflBlocks (8 * data.length + 1) (startInfl data limit) with
  | .error e => .error e
  | .ok z => .ok (z.out.reverse, data.drop (data.length - z.bits.length / 8))

def badIf (b : Bool) (st : Status) : Except Stop Unit := if b then .error (.bad st) else .ok ()

def rawDeflate (data : Bytes) (limit : Nat) : Except Stop Bytes := do
  let (o, rest) ← inflate data limit
  badIf (rest ≠ []) stDEC_UNSUPPORTED
  return o

/-- zlib (RFC 1950) as Table 4.2 supports it. -/
def zlibDecode (data : Bytes) (limit : Nat) : Except Stop Bytes := do
  badIf (data.length < 2) stDEC_MALFORMED
  let cmf := fieldAt data 0 1
  let flg := fieldAt data 1 1
  badIf ((cmf * 256 + flg) % 31 ≠ 0) stDEC_MALFORMED
  badIf (cmf % 16 ≠ 8 ∨ 7 < cmf / 16 ∨ bitOf flg 5) stDEC_UNSUPPORTED
  let (o, rest) ← inflate (data.drop 2) limit
  badIf (rest.length < 4) stDEC_MALFORMED
  badIf (beNat (rest.take 4) ≠ adler32 o) stDEC_CHECKSUM
  badIf (4 < rest.length) stDEC_UNSUPPORTED
  return o

/-- The bytes after a zero-terminated string; none when the input ends first. -/
def skipZ : Bytes → Option Bytes
  | [] => none
  | b :: bs => if b = 0#8 then some bs else skipZ bs

def gzipName (present : Bool) (d : Bytes) : Except Stop Bytes :=
  if present then
    match skipZ d with
    | some r => .ok r
    | none => .error (.bad stDEC_MALFORMED)
  else .ok d

/-- gzip (RFC 1952), one member, as Table 4.2 supports it. -/
def gzipDecode (data : Bytes) (limit : Nat) : Except Stop Bytes := do
  badIf (data.length < 10) stDEC_MALFORMED
  badIf (fieldAt data 0 2 ≠ 0x8B1F) stDEC_MALFORMED
  badIf (fieldAt data 2 1 ≠ 8) stDEC_UNSUPPORTED
  let flg := fieldAt data 3 1
  badIf (32 ≤ flg) stDEC_MALFORMED
  let d := data.drop 10
  badIf (bitOf flg 2 ∧ d.length < 2) stDEC_MALFORMED
  let xlen := if bitOf flg 2 then 2 + fieldAt d 0 2 else 0
  badIf (d.length < xlen) stDEC_MALFORMED
  let d ← gzipName (bitOf flg 3) (d.drop xlen)
  let d ← gzipName (bitOf flg 4) d
  badIf (bitOf flg 1 ∧ d.length < 2) stDEC_MALFORMED
  badIf (bitOf flg 1 ∧ fieldAt d 0 2 ≠ crc32 (data.take (data.length - d.length)) % 65536) stDEC_CHECKSUM
  let (o, rest) ← inflate (if bitOf flg 1 then d.drop 2 else d) limit
  badIf (rest.length < 8) stDEC_MALFORMED
  badIf (fieldAt rest 0 4 ≠ crc32 o ∨ fieldAt rest 4 4 ≠ o.length % 2 ^ 32) stDEC_CHECKSUM
  badIf (8 < rest.length) stDEC_UNSUPPORTED
  return o

/-- R109: what a decoder's end means for the call. -/
def decodeEnd (expect : Nat) (r : Except Stop Bytes) : EngRes :=
  match r with
  | .error (.full o) => ⟨stDEC_LENGTH, expect, o.reverse⟩
  | .error (.bad st) => engFail st
  | .ok o => if o.length < expect then ⟨stDEC_LENGTH, o.length, o⟩ else ⟨stOK, o.length, o⟩

end Sys2Proof.Machine
end

