-- ==== Sys2Proof/Machine/Maps.lean ====
section
/-!
DEFINITION. Finite maps as sorted lists of (number, value) pairs: one entry per key, keys strictly rising, so
that equal maps are equal lists. The sparse form `setD` keeps no entry equal to the default an absent key reads as.
-/
namespace Sys2Proof.Machine

abbrev Map (α : Type) := List (Nat × α)

variable {α β : Type}

def Map.find : Map α → Nat → Option α
  | [], _ => none
  | (k, v) :: m, i => if k = i then some v else Map.find m i

def Map.getD (m : Map α) (i : Nat) (d : α) : α := (Map.find m i).getD d

def Map.has (m : Map α) (i : Nat) : Bool := (Map.find m i).isSome

def Map.put : Map α → Nat → α → Map α
  | [], i, v => [(i, v)]
  | (k, w) :: m, i, v =>
    if i < k then (i, v) :: (k, w) :: m
    else if i = k then (i, v) :: m
    else (k, w) :: Map.put m i v

def Map.del (m : Map α) (i : Nat) : Map α := m.filter (fun e => e.1 != i)

/-- A sparse write: an entry equal to the default is removed. -/
def Map.setD [DecidableEq α] (d : α) (m : Map α) (i : Nat) (v : α) : Map α :=
  if v = d then Map.del m i else Map.put m i v

def Map.update (m : Map α) (i : Nat) (d : α) (f : α → α) : Map α := Map.put m i (f (Map.getD m i d))

def Map.adjust (m : Map α) (i : Nat) (f : α → α) : Map α :=
  match Map.find m i with
  | some v => Map.put m i (f v)
  | none => m

def Map.keys (m : Map α) : List Nat := m.map (·.1)

def Map.vals (m : Map α) : List α := m.map (·.2)

def Map.filterVals (m : Map α) (p : Nat → α → Bool) : Map α := m.filter (fun e => p e.1 e.2)

def Map.mapVals (m : Map α) (f : Nat → α → α) : Map α := m.map (fun e => (e.1, f e.1 e.2))

/-- Keys strictly rising. -/
def Map.sorted : Map α → Bool
  | [] => true
  | [_] => true
  | (a, _) :: (b, w) :: m => decide (a < b) && Map.sorted ((b, w) :: m)

/-- The canonical sparse form: keys strictly rising, no entry equal to what an absent key reads as. -/
def Map.canonical [DecidableEq α] (d : Nat → α) (m : Map α) : Bool :=
  Map.sorted m && m.all (fun e => decide (e.2 ≠ d e.1))

end Sys2Proof.Machine
end

