-- ==== Sys2Proof/Machine/Mem.lean ====
section
/-!
DEFINITION. Addressed byte memories of the block (the tile store, R89; the bytes of an Innkeeper chain, R312): a list of
(address, byte) pairs with rising addresses; an unlisted address reads 0 (R313, Table 3.9: both are zeroised), and no
listed byte is 0.
-/
namespace Sys2Proof.Machine

abbrev Mem := Map Byte

def Mem.get (m : Mem) (a : Nat) : Byte := Map.getD m a 0#8

def Mem.set (m : Mem) (a : Nat) (b : Byte) : Mem := Map.setD 0#8 m a b

/-- The canonical form. -/
def Mem.wf (m : Mem) : Bool := Map.canonical (fun _ => 0#8) m

def Mem.read (m : Mem) (a : Nat) : Nat → Bytes
  | 0 => []
  | n + 1 => Mem.get m a :: Mem.read m (a + 1) n

def Mem.write (m : Mem) (a : Nat) : Bytes → Mem
  | [] => m
  | b :: bs => Mem.write (Mem.set m a b) (a + 1) bs

end Sys2Proof.Machine
end

