-- ==== Sys2Proof/Config.lean ====
section
/-!
DEFINITION. What the spec leaves open: every constant here is opaque (it has no body that a proof can see), so
that a claim about a free value holds for every value of it. `freeValue w n` is the n-th free value, w bits wide
(State.freeCtr counts them); the other constants stand for functions the spec names by an outside standard
(signatures, key agreement, video codecs) and do not write out.
-/
namespace Sys2Proof.Config

/-- The n-th free value of width w: a value the spec does not fix (log entry 4).
(DESIGN CHOICE, log entry 4.) -/
opaque freeValue (w : Nat) : Nat → BitVec w

/-- ECDSA P-384 over SHA-384: public key, message, signature (log entry 5).
(DESIGN CHOICE, log entry 5.) -/
opaque ecdsaVerify : Bytes → Bytes → Bytes → Bool

/-- ML-DSA-87: public key, message, signature (log entry 5). (DESIGN CHOICE, log entry 5.) -/
opaque mldsaVerify : Bytes → Bytes → Bytes → Bool

/-- Signature halves the device itself makes: key seed, message (log entry 5).
(DESIGN CHOICE, log entry 5.) -/
opaque ecdsaSign : Bytes → Bytes → Bytes
opaque mldsaSign : Bytes → Bytes → Bytes

/-- Public keys of a key seed (log entry 5). -/
opaque ecdsaPublic : Bytes → Bytes
opaque mldsaPublic : Bytes → Bytes
opaque ecdhPublic : Bytes → Bytes
opaque mlkemPublic : Bytes → Bytes

/-- ECDH P-384 shared secret and ML-KEM-1024 decapsulation: own seed, peer data; none: invalid (log entry 5).
(DESIGN CHOICE, log entry 5.) -/
opaque ecdhShared : Bytes → Bytes → Option Bytes
opaque mlkemDecap : Bytes → Bytes → Option Bytes

/-- Decoding of a video stream by its standard (R121; log entry 6): the status of the stream (0: it decodes), its width,
height and bit depth, whether it is 4:2:0, and a plane (0 Y, 1 U, 2 V) of a frame in presentation order.
(DESIGN CHOICE, log entry 6.) -/
opaque videoStatus : Bytes → Nat
opaque videoWidth : Bytes → Nat
opaque videoHeight : Bytes → Nat
opaque videoDepth : Bytes → Nat
opaque video420 : Bytes → Bool
opaque videoPlane : Bytes → Nat → Nat → List Nat

/-- The DIS of the device with a serial number: 32 fused bytes (Table 16.2).
(DESIGN CHOICE, log entry 5.) -/
opaque deviceSecret : Nat → Bytes

/-- Authority keys whose digests lie in the ROM, ECDSA P-384 then ML-DSA-87: of updates (R461) and of debug tokens (R380).
(DESIGN CHOICE, log entry 5.) -/
opaque updateKeys : Bytes × Bytes
opaque debugKeys : Bytes × Bytes

/-- The bytes of an image that the factory installed: component × 2 + bank (R456).
(DESIGN CHOICE, log entry 14.) -/
opaque storedImage : Nat → Bytes

/-- Certificate chains of an attestation report (R368): serial number, alias public keys.
(DESIGN CHOICE, log entry 5.) -/
opaque certChains : Nat → Bytes → Bytes → Bytes

/-- What ingest selects for a source object (R61, item 1), whose wrapper the spec does not lay out: CODEC and MEDIA_TYPE (none: no
value of Table 2.3 applies), the payload it stores, and for video its frames (payload offset, number, key frame) and tiles
(frame, column, row, payload offset), log entry 7. (DESIGN CHOICE, log entry 7.) -/
opaque sourceType : Bytes → Option (Nat × Nat)
opaque sourcePayload : Bytes → Bytes
opaque videoFrames : Bytes → List (Nat × Nat × Bool)
opaque videoTiles : Bytes → List (Nat × Nat × Nat × Nat)

end Sys2Proof.Config
end

