-- ==== Sys2Proof/Machine/Blocks/Host.lean ====
section
/-!
DEFINITION. State of the host interface (spec/19_host_interface.md), the fault collector and SAFE_STOP monitor
(spec/17_faults_and_integrity.md) and the context lifecycle (spec/15_contexts.md) that no register holds.
-/
namespace Sys2Proof.Machine

/-- A submission descriptor the device has examined and not yet completed (Table 19.11, R431).
(DESIGN CHOICE, log entry 4.) (DEDUCED, log entry 17.) -/
structure HostReq where
  ctx : Nat
  sq : Nat
  opcode : Nat
  staged : Bool
  tag : Nat
  addr : Nat
  len : Nat
  effStep : Nat
  args : Bytes
  sqHead : Nat
  deriving DecidableEq, Repr

/-- A completion that waits for its entry in the CQ (Table 19.12, R433). -/
structure Completion where
  ctx : Nat
  cq : Nat
  tag : Nat
  status : Status
  sq : Nat
  sqHead : Nat
  result0 : Nat
  result1 : Nat
  deriving DecidableEq, Repr

/-- Ring state beside RING_ADDR, RING_CFG and RING_STATUS (R429, R430, R433): SQ tail, or CQ and event head; phase. -/
structure RingPtr where
  mark : Nat
  phase : Bool
  deriving DecidableEq, Repr

/-- An event entry that waits for its ring (Table 19.13, R434): plaintext record and its TYPE. -/
structure EventItem where
  ctx : Nat
  type : Nat
  record : Bytes
  deriving DecidableEq, Repr

/-- MSI-X of one function (R355, R356): masked and pending entries, messages held to the quantum instant. -/
structure Msix where
  masked : Nat
  pendingBits : Nat
  held : Nat
  deriving DecidableEq, Repr

/-- A half-read latch (R427): the register address and its stored upper half. -/
structure Latch where
  addr : Nat
  upper : Nat
  deriving DecidableEq, Repr

/-- Items of a configuration transaction (R438): a register write, or the payload of a staged descriptor; at commit an image
becomes its number among the device's images. -/
inductive TxnItem where
  | regWrite (addr mask value : Nat)
  | image (plain : Bytes)
  | placed (image : Nat)
  | table (plain : Bytes)
  | share (record : Bytes)
  deriving DecidableEq, Repr

/-- States of Table 19.16 while a transaction lives. -/
inductive TxnState where
  | open_ | pending | fixed
  deriving DecidableEq, Repr

structure Txn where
  num : Nat
  eff : Nat
  state : TxnState
  marked : Bool
  staged : Nat
  items : List TxnItem
  deriving DecidableEq, Repr

/-- What a request waits for after it has had its effect: a revoked window, a vocabulary bank, a teardown, an update. -/
inductive WaitFor where
  | window (index : Nat) | bank (number : Nat) | teardown (ctx : Nat) | update (component : Nat)
  deriving DecidableEq, Repr

structure HostState where
  latches : Map Latch
  rings : Map RingPtr
  started : List HostReq
  waiting : List (WaitFor × HostReq)
  done : List Completion
  events : List EventItem
  msix : Map Msix
  d3hot : Bool
  numVFs : Nat
  vfReady : List Nat
  txns : Map (List Txn)
  lastNum : Map Nat
  deriving DecidableEq, Repr

def HostState.off : HostState :=
  { latches := [], rings := [], started := [], waiting := [], done := [], events := [], msix := [], d3hot := false, numVFs := 0,
    vfReady := [], txns := [], lastNum := [] }

/-- A committed fault record (Table 17.2). -/
structure FaultRec where
  stamp : Nat
  seq : Nat
  status : Status
  source : Nat
  unit : Nat
  ctx : Nat
  raised : FClass
  applied : FClass
  concurrent : Bool
  escalated : Bool
  consequential : Bool
  forced : Bool
  first : Bool
  discrepancy : Bool
  step : Nat
  deriving DecidableEq, Repr

/-- One SAFE_STOP channel (R394): asserted level, time of its last edge, qualified level. -/
structure Channel where
  raw : Bool
  edgeAt : Nat
  qualified : Bool
  qualAt : Nat
  deriving DecidableEq, Repr

structure FaultState where
  lines : List ErrEvent
  committed : List ErrEvent
  recentStamps : List Nat
  seq : Nat
  records : List FaultRec
  armPrev : Bool
  chanA : Channel
  chanB : Channel
  timer : Option Nat
  demanded : Bool
  sinceStandby : Nat
  roundsPass : Map Nat
  roundsSlices : Map Nat
  withheld : List Nat
  checkers : Map Nat
  fencedSlices : List Nat
  deriving DecidableEq, Repr

def Channel.idle : Channel := { raw := false, edgeAt := 0, qualified := false, qualAt := 0 }

def FaultState.off : FaultState :=
  { lines := [], committed := [], recentStamps := [], seq := 0, records := [], armPrev := false, chanA := Channel.idle,
    chanB := Channel.idle, timer := none, demanded := false, sinceStandby := 0, roundsPass := [],
    roundsSlices := [], withheld := [], checkers := [],
    fencedSlices := [] }

/-- What a context's dumps hold (R334): the status that stopped it and captured bytes. -/
structure DumpRec where
  status : Status
  stamp : Nat
  body : Bytes
  deriving DecidableEq, Repr

/-- Dumps captured from a context when an F2 stopped it (R334), which CTX_INFO, CTX_STATUS and CTX_SHARE do not show. -/
structure CtxLife where
  dumps : List DumpRec
  deriving DecidableEq, Repr

end Sys2Proof.Machine
end

