-- ==== Sys2Proof/Machine/Blocks/Lantern.lean ====
section
/-!
DEFINITION. State of Lantern (spec/18_fabric_resilience.md): the view, peers, agreement, control messages that wait for an
acknowledgement, the keeper journal, and what a coordinator knows of each run. A device is named by the SENDER value of its
messages: its logical rank, or its physical position; its pod is that value / 32.
-/
namespace Sys2Proof.Machine

/-- States of Table 18.3. -/
inductive PeerState where
  | alive | hung | reported | excluded
  deriving DecidableEq, Repr

structure PeerRec where
  state : PeerState
  lastBeat : Nat
  since : Nat
  deriving DecidableEq, Repr

/-- A proposal under way at the coordinator (R406). -/
structure Proposal where
  view : View
  removed : List Nat
  acks : List Nat
  deriving DecidableEq, Repr

/-- To whom a control message goes: a position, or whoever is the active keeper of the sender's pod. -/
inductive LanDest where
  | pos (p : Nat) | keeper
  deriving DecidableEq, Repr

/-- A control message that waits for its ACK (R418). -/
structure OutMsg where
  dest : LanDest
  msg : LanMsg
  sentAt : Nat
  deriving DecidableEq, Repr

/-- States of a journal entry (Table 18.4). -/
inductive JState where
  | running | aborting | restarting
  deriving DecidableEq, Repr

/-- A run entry of the journal (Table 18.4). -/
structure JEntry where
  state : JState
  restarts : Nat
  runId : Nat
  committed : Nat
  restartStep : Nat
  sealedGen : Nat
  abortMask : Nat
  reported : Map Nat
  mixSeq : Nat
  mixStatus : Status
  deriving DecidableEq, Repr

/-- A message an active keeper holds until a standby image that contains it is acknowledged (R418): the image's JOURNAL_SEQ
once one has been sent. -/
structure HeldMsg where
  msg : LanMsg
  image : Option Nat
  deriving DecidableEq, Repr

/-- What the coordinator gathers of a run: pods done with the abort, pods that reported a step, mixing decisions that wait
their turn (SEQUENCE, status, entry device), and keepers that have not acknowledged the outcome being sent. -/
structure CoordRun where
  abortDone : List Nat
  stepPods : Map (List Nat)
  decisions : Map Status
  fixed : Option (Nat × Status)
  unacked : List Nat
  deriving DecidableEq, Repr

def CoordRun.empty : CoordRun := { abortDone := [], stepPods := [], decisions := [], fixed := none, unacked := [] }

structure LanternState where
  joined : Bool
  view : View
  peers : Map PeerRec
  nonce : Nat
  seq : Nat
  fwAlive : Bool
  fwKicked : Nat
  beatAt : Nat
  reports : List (Nat × Nat)
  gatherAt : Option Nat
  proposal : Option Proposal
  waitCommit : Option Nat
  noQuorum : Bool
  outbox : List OutMsg
  journal : Map JEntry
  journalSeq : Nat
  copyAt : Nat
  dirty : Bool
  held : List HeldMsg
  slots : Map Bytes
  validSlot : Option Nat
  coord : Map CoordRun
  deriving DecidableEq, Repr

def LanternState.off : LanternState :=
  { joined := false, view := { num := 0, live := [], keepers := [] }, peers := [], nonce := 0, seq := 0, fwAlive := false,
    fwKicked := 0, beatAt := 0, reports := [], gatherAt := none, proposal := none, waitCommit := none, noQuorum := false,
    outbox := [], journal := [], journalSeq := 0, copyAt := 0, dirty := false, held := [], slots := [], validSlot := none,
    coord := [] }

end Sys2Proof.Machine
end

