-- ==== Sys2Proof/Machine/Blocks/Ledger.lean ====
section
/-!
DEFINITION. State of the Ledger (spec/11_ledger.md): queues, task slots, commands in flight, deferred errors, completions.
-/
namespace Sys2Proof.Machine

/-- A task record as copied at examination (Table 11.4). -/
structure TaskRec where
  opcode : Nat
  flags : Nat
  tag : Nat
  seq : Nat
  object : Nat
  offset : Nat
  length : Nat
  addr : Nat
  key : Nat
  gen : Nat
  timeout : Nat
  elem : Nat
  deriving DecidableEq, Repr

/-- A POSTED or ACTIVE command (Table 11.3): its slot within the queue, posting order, examination stamp; once active, the
data parts posted, those finished with their bytes, the first failure; whether its data stands in the
write buffer; what a read decided at its start;
whether a seal waits for the keeper's acknowledgement. -/
structure LedgerCmd where
  slot : Nat
  order : Nat
  at_ : Nat
  task : TaskRec
  active : Bool
  parts : Nat
  finished : Map Bytes
  failed : Option Status
  inBuffer : Bool
  taken : List Nat
  kept : List Nat
  sealWait : Bool
  verdict : Option (Status × Nat)
  deriving DecidableEq, Repr

/-- A completion that waits for its entry (Table 11.6). -/
structure LedgerCpl where
  tag : Nat
  status : Status
  slot : Nat
  seq : Nat
  result : Nat
  deriving DecidableEq, Repr

/-- A queue (Table 11.1): parameters, next SEQ, completions written, commands, deferred errors (TAG, status), whether any
was recorded since the last FLUSH, an accepted QUEUE_RESET (its TAG), completions to write. `recovery`: a queue of R302. -/
structure LedgerQueue where
  ctx : Nat
  mode : Nat
  base : Nat
  count : Nat
  qp : Nat
  cplAddr : Nat
  cplKey : Nat
  cplEntries : Nat
  recovery : Bool
  expected : Nat
  posted : Nat
  written : Nat
  cmds : List LedgerCmd
  deferred : List (Nat × Status)
  deferredSince : Bool
  reset : Option Nat
  cpls : List LedgerCpl
  deriving DecidableEq, Repr

abbrev LedgerState := Map LedgerQueue

end Sys2Proof.Machine
end

