-- ==== Sys2Proof/Machine/Floats.lean ====
section
/-!
DEFINITION. Binary floating-point formats: exact values as integer × power of two, rounding to nearest with ties to even
(R76, R141, R172, R173), and the lane's operations on them.
-/
namespace Sys2Proof.Machine

/-- A format: exponent bits, fraction bits, and the code of the largest finite magnitude. -/
structure FFmt where
  ebits : Nat
  mbits : Nat
  maxCode : Nat
  hasInf : Bool
  deriving DecidableEq, Repr

def fmtFP32 : FFmt := ⟨8, 23, 0x7F7FFFFF, true⟩
def fmtBF16 : FFmt := ⟨8, 7, 0x7F7F, true⟩
def fmtFP16 : FFmt := ⟨5, 10, 0x7BFF, true⟩
def fmtE4M3 : FFmt := ⟨4, 3, 0x7E, false⟩
def fmtE5M2 : FFmt := ⟨5, 2, 0x7B, true⟩

def FFmt.bias (f : FFmt) : Nat := 2 ^ (f.ebits - 1) - 1
def FFmt.signBit (f : FFmt) : Nat := 2 ^ (f.ebits + f.mbits)
def FFmt.inf (f : FFmt) : Nat := f.maxCode + 1
def FFmt.nan (f : FFmt) : Nat := f.maxCode + 1 + 2 ^ (f.mbits - 1)

/-- n / 2^k to the nearest integer, ties to even. -/
def divPow2Even (n k : Nat) : Nat :=
  let q := n / 2 ^ k
  let r := n % 2 ^ k
  let half := 2 ^ k / 2
  if k = 0 then n
  else if half < r then q + 1
  else if r = half then q + q % 2
  else q

/-- n × 2^sh with n exact, rounded to a magnitude code (it may pass maxCode). -/
def roundMag (f : FFmt) (n : Nat) (sh : Int) : Nat :=
  if n = 0 then 0
  else
    let emin : Int := 1 - (f.bias : Int)
    let e : Int := max ((Nat.log2 n : Int) + sh) emin
    let k : Int := sh - e + f.mbits
    let m := if 0 ≤ k then n * 2 ^ k.toNat else divPow2Even n (-k).toNat
    (e - emin).toNat * 2 ^ f.mbits + m

/-- The same with magnitudes above the largest finite value held to it (saturating), or carried to infinity. -/
def encodeMag (f : FFmt) (saturate : Bool) (n : Nat) (sh : Int) : Nat :=
  let c := roundMag f n sh
  if c ≤ f.maxCode then c else if saturate then f.maxCode else f.inf

/-- A signed value v × 2^sh; zero is +0 (R141), a negative value that rounds to zero is −0. -/
def encodeFloat (f : FFmt) (saturate : Bool) (v sh : Int) : Nat :=
  let c := encodeMag f saturate v.natAbs sh
  if v < 0 then f.signBit + c else c

/-- Classes of a code. -/
inductive FVal where
  | nan
  | inf (neg : Bool)
  | fin (neg : Bool) (n : Nat) (sh : Int)
  deriving DecidableEq, Repr

def decodeFloat (f : FFmt) (x : Nat) : FVal :=
  let neg := x / f.signBit % 2 = 1
  let c := x % f.signBit
  if f.maxCode < c then
    (if f.hasInf && c = f.inf then .inf neg else .nan)
  else
    let e := c / 2 ^ f.mbits
    let m := c % 2 ^ f.mbits
    let emin : Int := 1 - (f.bias : Int)
    if e = 0 then .fin neg m (emin - f.mbits)
    else .fin neg (2 ^ f.mbits + m) (emin - f.mbits + (e - 1 : Nat))

def signedMag (neg : Bool) (n : Nat) : Int := if neg then -(n : Int) else n

/-- Exact sum of two scaled integers. -/
def addScaled (a : Int) (sa : Int) (b : Int) (sb : Int) : Int × Int :=
  let s := min sa sb
  (a * 2 ^ (sa - s).toNat + b * 2 ^ (sb - s).toNat, s)

/-- a × b + c in one rounding (R76: results of binary32 and binary16 operations round to nearest even). -/
def fmaFloat (f : FFmt) (a b c : Nat) : Nat :=
  match decodeFloat f a, decodeFloat f b, decodeFloat f c with
  | .nan, _, _ => f.nan
  | _, .nan, _ => f.nan
  | _, _, .nan => f.nan
  | .inf na, .inf nb, .inf nc => if (na != nb) = nc then f.inf + (if nc then f.signBit else 0) else f.nan
  | .inf na, .inf nb, .fin _ _ _ => f.inf + (if na != nb then f.signBit else 0)
  | .inf na, .fin nb n _, z =>
    if n = 0 then f.nan
    else
      let s := na != nb
      match z with
      | .inf nc => if s = nc then f.inf + (if s then f.signBit else 0) else f.nan
      | _ => f.inf + (if s then f.signBit else 0)
  | .fin na n _, .inf nb, z =>
    if n = 0 then f.nan
    else
      let s := na != nb
      match z with
      | .inf nc => if s = nc then f.inf + (if s then f.signBit else 0) else f.nan
      | _ => f.inf + (if s then f.signBit else 0)
  | .fin _ _ _, .fin _ _ _, .inf nc => f.inf + (if nc then f.signBit else 0)
  | .fin na n sn, .fin nb m sm, .fin nc k sk =>
    let ps := na != nb
    let (v, sh) := addScaled (signedMag ps (n * m)) (sn + sm) (signedMag nc k) sk
    if v = 0 then (if ps && nc then f.signBit else 0)
    else encodeFloat f false v sh

def fltOne (f : FFmt) : Nat := f.bias * 2 ^ f.mbits

def negFloat (f : FFmt) (x : Nat) : Nat := if x / f.signBit % 2 = 1 then x - f.signBit else x + f.signBit

def addFloat (f : FFmt) (a b : Nat) : Nat := fmaFloat f a (fltOne f) b

def subFloat (f : FFmt) (a b : Nat) : Nat :=
  match decodeFloat f b with
  | .nan => f.nan
  | _ => addFloat f a (negFloat f b)

def mulFloat (f : FFmt) (a b : Nat) : Nat :=
  match decodeFloat f a, decodeFloat f b with
  | .fin na n sn, .fin nb m sm =>
    (if na != nb then f.signBit else 0) + encodeMag f false (n * m) (sn + sm)
  | _, _ =>
    -- a product with an infinity or NaN: the sum with a zero of the product's sign changes nothing
    fmaFloat f a b (if (a / f.signBit % 2 != b / f.signBit % 2) then f.signBit else 0)

def divFloat (f : FFmt) (a b : Nat) : Nat :=
  match decodeFloat f a, decodeFloat f b with
  | .nan, _ => f.nan
  | _, .nan => f.nan
  | .inf _, .inf _ => f.nan
  | .inf na, .fin nb _ _ => f.inf + (if na != nb then f.signBit else 0)
  | .fin na _ _, .inf nb => if na != nb then f.signBit else 0
  | .fin na n sn, .fin nb m sm =>
    let s := if na != nb then f.signBit else 0
    if m = 0 then (if n = 0 then f.nan else s + f.inf)
    else
      let num := n * 2 ^ 80
      let q := num / m
      let sticky := if num % m = 0 then 0 else 1
      s + encodeMag f false (2 * q + sticky) (sn - sm - 81)

def sqrtFloat (f : FFmt) (a : Nat) : Nat :=
  match decodeFloat f a with
  | .nan => f.nan
  | .inf neg => if neg then f.nan else f.inf
  | .fin neg n sn =>
    if n = 0 then (if neg then f.signBit else 0)
    else if neg then f.nan
    else
      let n' := if sn % 2 = 0 then n * 2 ^ 80 else n * 2 ^ 81
      let e := if sn % 2 = 0 then sn - 80 else sn - 81
      let r := Nat.sqrt n'
      let sticky := if r * r = n' then 0 else 1
      encodeMag f false (2 * r + sticky) (e / 2 - 1)

/-- Exact order of two finite or infinite values; none with a NaN. -/
def cmpFloat (f : FFmt) (a b : Nat) : Option Ordering :=
  match decodeFloat f a, decodeFloat f b with
  | .nan, _ => none
  | _, .nan => none
  | .inf na, .inf nb => some (compare (if na then 0 else 1) (if nb then 0 else 1))
  | .inf na, _ => some (if na then .lt else .gt)
  | _, .inf nb => some (if nb then .gt else .lt)
  | .fin na n sn, .fin nb m sm =>
    let (d, _) := addScaled (signedMag na n) sn (-(signedMag nb m)) sm
    some (compare d 0)

end Sys2Proof.Machine
end

