-- ==== Sys2Proof/Machine/Mxu.lean ====
section
/-!
DEFINITION. Engine 0x05 (spec/07_matrix_unit_and_filters.md): operand formats (R169, R170), the exact long accumulator
(R171 to R174), the BF16 order (R175), MATMUL (R177), filter models (R179, R182 to R186) and MIX (R187).
-/
namespace Sys2Proof.Machine

/-- An element of an operand: NaN, an infinity, or significand × 2^exponent. -/
inductive MVal where
  | nan
  | inf (neg : Bool)
  | fin (m : Int) (x : Int)
  deriving DecidableEq, Repr

def fmtE2M1 : FFmt := ⟨2, 1, 7, false⟩
def fmtE2M3 : FFmt := ⟨2, 3, 31, false⟩
def fmtE3M2 : FFmt := ⟨3, 2, 31, false⟩

/-- Element format of a code of Table 7.1 (code 0 is INT8, not a floating format). -/
def mxuFmt (code : Nat) : FFmt :=
  [fmtE4M3, fmtE4M3, fmtE5M2, fmtE2M1, fmtE2M3, fmtE3M2, fmtE4M3, fmtE5M2, fmtBF16].getD code fmtE4M3

def elemVal (code raw : Nat) : MVal :=
  if code = 0 then .fin (toSigned 8 raw) 0
  else
    match decodeFloat (mxuFmt code) raw with
    | .nan => .nan
    | .inf n => .inf n
    | .fin n m x => .fin (signedMag n m) x

def isMx (code : Nat) : Bool := 3 ≤ code && code ≤ 7

/-- Group of a format (R169): both operands must be of one group. -/
def mxuGroup (code : Nat) : Nat := if code = 0 then 0 else if code ≤ 2 then 1 else if code ≤ 7 then 2 else 3

def elemBytes (code count : Nat) : Nat :=
  if code = 3 then count / 2 else if code = 4 ∨ code = 5 then count / 4 * 3 else if code = 8 then 2 * count else count

def align64 (n : Nat) : Nat := ceilDiv n 64 * 64

/-- Size of an operand of `rows` rows of `k` (R170). -/
def operandSize (code rows k : Nat) : Nat :=
  let e := elemBytes code (rows * k)
  if isMx code then align64 e + rows * (k / 32) else e

/-- Raw code of element i of the operand. -/
def rawElem (code : Nat) (a : Array Byte) (i : Nat) : Nat :=
  let byte (j : Nat) : Nat := (a.getD j 0#8).toNat
  if code = 3 then (if i % 2 = 0 then byte (i / 2) % 16 else byte (i / 2) / 16)
  else if code = 4 ∨ code = 5 then
    let w := byte (i / 4 * 3) + 256 * byte (i / 4 * 3 + 1) + 65536 * byte (i / 4 * 3 + 2)
    w / 2 ^ (6 * (i % 4)) % 64
  else if code = 8 then byte (2 * i) + 256 * byte (2 * i + 1)
  else byte i

/-- Scale byte of block b of row r (plain formats: exponent 0, byte 127). -/
def scaleByte (code : Nat) (a : Array Byte) (rows k r b : Nat) : Nat :=
  if isMx code then (a.getD (align64 (elemBytes code (rows * k)) + r * (k / 32) + b) 0#8).toNat else 127

/-- Element (r, i) with its block's scale (R171, R173). -/
def operandAt (code : Nat) (a : Array Byte) (rows k r i : Nat) : MVal :=
  let s := scaleByte code a rows k r (i / 32)
  if s = 255 then .nan
  else
    match elemVal code (rawElem code a (r * k + i)) with
    | .fin m x => .fin m (x + (s : Int) - 127)
    | v => v

/-- log2 of the lowest nonzero magnitude (Table 7.1). -/
def lowExp (code : Nat) : Int := [0, -9, -16, -1, -3, -4, -9, -16].getD code 0
/-- The largest magnitude as an integer × 2^−1. -/
def highHalf (code : Nat) : Nat := [256, 896, 114688, 12, 15, 56, 896, 114688].getD code 0

/-- The exact window of R172 for a sum s of scale exponents. -/
def inWindow (ca cb : Nat) (s : Int) : Bool :=
  decide (-56 ≤ lowExp ca + lowExp cb + s) &&
    (let hi := highHalf ca * highHalf cb
     if 0 ≤ s then decide (hi * 2 ^ s.toNat < 2 ^ 34) else decide (hi < 2 ^ 34 * 2 ^ (-s).toNat))

/-- The exact window of R172 for an MXFP4 block summed without a second factor, as a product with 1.
(DEDUCED, log entry 23.) -/
def inWindowAlone (scale : Nat) : Bool :=
  let s : Int := (scale : Int) - 127
  decide (-56 ≤ lowExp 3 + s) && decide (s ≤ 0 ∨ highHalf 3 * 2 ^ s.toNat < 2 ^ 33)

/-- A long accumulator with its specials (R173). -/
structure Acc where
  a : Int
  nan : Bool
  posInf : Bool
  negInf : Bool
  deriving DecidableEq, Repr

def accZero : Acc := ⟨0, false, false, false⟩

/-- m × 2^(x + 56), exact inside the window (R171). -/
def accTerm (m x : Int) : Int :=
  let e := x + 56
  if 0 ≤ e then m * 2 ^ e.toNat else m / 2 ^ (-e).toNat

def accMul (acc : Acc) (u v : MVal) : Acc :=
  match u, v with
  | .nan, _ => { acc with nan := true }
  | _, .nan => { acc with nan := true }
  | .inf a, .inf b => if a = b then { acc with posInf := true } else { acc with negInf := true }
  | .inf a, .fin m _ =>
    if m = 0 then { acc with nan := true }
    else if (a = true) ↔ (m < 0) then { acc with posInf := true } else { acc with negInf := true }
  | .fin m _, .inf a =>
    if m = 0 then { acc with nan := true }
    else if (a = true) ↔ (m < 0) then { acc with posInf := true } else { acc with negInf := true }
  | .fin m x, .fin n y => { acc with a := acc.a + accTerm (m * n) (x + y) }

def Acc.isNan (c : Acc) : Bool := c.nan || (c.posInf && c.negInf)
def Acc.special (c : Acc) : Bool := c.nan || c.posInf || c.negInf

/-- Round-half-to-even of n × 2^sh. -/
def roundEvenShift (n sh : Int) : Int :=
  if 0 ≤ sh then n * 2 ^ sh.toNat
  else
    let m := divPow2Even n.natAbs (-sh).toNat
    if n < 0 then -(m : Int) else m

def satS32 (x : Int) : Int := clampI32 x
where clampI32 (x : Int) : Int := if x < -2147483648 then -2147483648 else if 2147483647 < x then 2147483647 else x

def outElemSize (fmt : Nat) : Nat := if fmt = 0 then 16 else if fmt ≤ 2 then 4 else 2

/-- Conversion to OUT_FMT (R174). -/
def convertAcc (fmt shift : Nat) (c : Acc) : Bytes :=
  if fmt = 0 then (if c.special then zeros 16 else toLE 16 (ofSigned 128 c.a))
  else if fmt = 1 then
    (if c.special then zeros 4 else toLE 4 (ofSigned 32 (satS32 (roundEvenShift c.a ((shift : Int) - 56)))))
  else
    let f := if fmt = 2 then fmtFP32 else if fmt = 3 then fmtFP16 else fmtBF16
    toLE (outElemSize fmt)
      (if c.isNan then f.nan
       else if c.posInf then f.inf
       else if c.negInf then f.signBit + f.inf
       else encodeFloat f false c.a (-56))

/-! ## BF16 order (R175) -/

def pairSums (f : FFmt) : List Nat → List Nat
  | a :: b :: l => addFloat f a b :: pairSums f l
  | l => l

def treeSum (f : FFmt) : Nat → List Nat → Nat
  | 0, l => l.headD 0
  | n + 1, l => treeSum f n (pairSums f l)

def bf16Chunks : Nat → List Nat → List Nat
  | 0, _ => []
  | g + 1, p =>
    let c := p.take 64
    treeSum fmtFP32 6 (c ++ List.replicate (64 - c.length) 0) :: bf16Chunks g (p.drop 64)

def bf16Dot (a b : List Nat) : Nat :=
  let p := List.zipWith (fun x y => mulFloat fmtFP32 (x * 65536) (y * 65536)) a b
  match bf16Chunks (ceilDiv p.length 64) p with
  | [] => 0
  | t :: ts => ts.foldl (addFloat fmtFP32) t

def narrowFloat (f : FFmt) (x : Nat) : Nat :=
  match decodeFloat fmtFP32 x with
  | .nan => f.nan
  | .inf n => (if n then f.signBit else 0) + f.inf
  | .fin n m e => (if n then f.signBit else 0) + encodeMag f false m e

/-! ## MATMUL -/

def matmulArgsOk (args : Bytes) (inLen auxLen : Nat) : Bool :=
  let m := fieldAt args 0 2
  let n := fieldAt args 2 2
  let k := fieldAt args 4 4
  let fa := fieldAt args 8 1
  let fb := fieldAt args 9 1
  let fo := fieldAt args 10 1
  let sh := fieldAt args 11 1
  decide (1 ≤ m ∧ m ≤ 4096 ∧ 1 ≤ n ∧ n ≤ 4096 ∧ 1 ≤ k ∧ k ≤ 4194304 ∧ fa ≤ 8 ∧ fb ≤ 8 ∧ fo ≤ 4 ∧ sh ≤ 111) &&
    allZero (slice args 12 20) && mxuGroup fa == mxuGroup fb &&
    (!(mxuGroup fa == 2) || k % 32 == 0) && (!(mxuGroup fa == 3) || 2 ≤ fo) &&
    inLen == operandSize fa m k && auxLen == operandSize fb n k

def windowOk (fa fb : Nat) (a b : Array Byte) (m n k : Nat) : Bool :=
  !(isMx fa) ||
    (List.range (k / 32)).all (fun blk =>
      (List.range m).all (fun i =>
        let sa := scaleByte fa a m k i blk
        sa == 255 || (List.range n).all (fun j =>
          let sb := scaleByte fb b n k j blk
          sb == 255 || inWindow fa fb ((sa : Int) + sb - 254))))

/-- MATMUL (R177): `args` is ENGINE_ARGS (descriptor bytes 32 to 63). (DEDUCED, log entry 30.) -/
def matmul (args inp aux : Bytes) (cap : Nat) : EngRes :=
  if !matmulArgsOk args inp.length aux.length then engFail stMXU_ARGS
  else
    let m := fieldAt args 0 2
    let n := fieldAt args 2 2
    let k := fieldAt args 4 4
    let fa := fieldAt args 8 1
    let fb := fieldAt args 9 1
    let fo := fieldAt args 10 1
    let sh := fieldAt args 11 1
    let len := m * n * outElemSize fo
    if cap < len then engFail stMXU_LIMIT
    else
      let a := inp.toArray
      let b := aux.toArray
      if !windowOk fa fb a b m n k then engFail stMXU_RANGE
      else if fa = 8 then
        let row (x : Array Byte) (r : Nat) := (List.range k).map (fun i => rawElem 8 x (r * k + i))
        let f := if fo = 2 then fmtFP32 else if fo = 3 then fmtFP16 else fmtBF16
        ⟨stOK, len, (List.range m).flatMap (fun i => (List.range n).flatMap (fun j =>
          toLE (outElemSize fo) (narrowFloat f (bf16Dot (row a i) (row b j)))))⟩
      else
        let accs := (List.range m).flatMap (fun i => (List.range n).map (fun j =>
          (List.range k).foldl (fun c t => accMul c (operandAt fa a m k i t) (operandAt fb b n k j t)) accZero))
        let st := if fo ≤ 1 && accs.any (·.special) then stMXU_SPECIAL else stOK
        ⟨st, len, accs.flatMap (convertAcc fo sh)⟩

/-! ## Filter models -/

structure FLayer where
  type : Nat
  act : Nat
  kh : Nat
  kw : Nat
  stride : Nat
  pad : Nat
  frac : Nat
  outShift : Nat
  inDim : Nat
  outDim : Nat
  src : Nat
  deriving DecidableEq, Repr

structure FModel where
  layers : List FLayer
  scores : Nat
  inputKind : Nat
  inZero : Nat
  inShift : Nat
  inH : Nat
  inW : Nat
  inC : Nat
  maxTokens : Nat
  w0 : Bytes
  w1 : Bytes
  acts : List Bytes
  deriving DecidableEq, Repr

def parseLayer (b : Bytes) : FLayer :=
  ⟨fieldAt b 0 1, fieldAt b 1 1, fieldAt b 2 1, fieldAt b 3 1, fieldAt b 4 1, fieldAt b 5 1, fieldAt b 6 1,
   fieldAt b 7 1, fieldAt b 8 4, fieldAt b 12 4, fieldAt b 16 1⟩

/-- The model whose header stands at `off` of an MXU settings block (Tables 7.5, 7.6). -/
def parseModel (block : Bytes) (off : Nat) : FModel :=
  let h := block.drop off
  let lt := fieldAt h 24 4
  let w0 := fieldAt h 28 4
  let w1 := fieldAt h 32 4
  let at' := fieldAt h 44 4
  { layers := (List.range (fieldAt h 6 1)).map (fun i => parseLayer (slice h (lt + 32 * i) 32)),
    scores := fieldAt h 7 1, inputKind := fieldAt h 8 1, inZero := fieldAt h 9 1, inShift := fieldAt h 10 1,
    inH := fieldAt h 12 2, inW := fieldAt h 14 2, inC := fieldAt h 16 2, maxTokens := fieldAt h 20 4,
    w0 := slice h w0 (fieldAt h 36 4), w1 := if w1 = 0 then [] else slice h w1 (fieldAt h 40 4),
    acts := (List.range (fieldAt h 48 2)).map (fun i => slice h (at' + 8192 * i) 8192) }

/-- The models of an MXU settings block (R179). -/
def parseModels (block : Bytes) : List FModel :=
  (List.range (fieldAt block 1 1)).map (fun i => parseModel block (fieldAt block (8 + 4 * i) 4))

/-- Shape (H, W, C) after a layer, when R182 allows the layer there. `shapes` holds the earlier layers' outputs. -/
def layerShape (m : FModel) (i : Nat) (l : FLayer) (prev : Nat × Nat × Nat) (shapes : List (Nat × Nat × Nat)) :
    Option (Nat × Nat × Nat) :=
  let (h, w, c) := prev
  if l.type = 1 then (if i = 0 ∧ m.inputKind ≤ 1 ∧ 1 ≤ l.inDim then some (1, 1, l.outDim) else none)
  else if i = 0 ∧ m.inputKind ≤ 1 then none
  else if l.type = 2 then (if l.inDim = h * w * c then some (1, 1, l.outDim) else none)
  else if l.type = 3 then
    if 1 ≤ l.kh ∧ l.kh ≤ 7 ∧ 1 ≤ l.kw ∧ l.kw ≤ 7 ∧ 1 ≤ l.stride ∧ l.stride ≤ 4 ∧ l.pad ≤ 3 ∧
       l.kh ≤ h + 2 * l.pad ∧ l.kw ≤ w + 2 * l.pad then
      some ((h + 2 * l.pad - l.kh) / l.stride + 1, (w + 2 * l.pad - l.kw) / l.stride + 1, l.outDim)
    else none
  else if l.type = 4 then (if l.outDim = c then some (1, 1, c) else none)
  else if l.type = 5 then
    match shapes[l.src]? with
    | some sh => if l.src < i ∧ sh = prev ∧ l.outDim = c then some sh else none
    | none => none
  else none

def modelShapes (m : FModel) : List FLayer → Nat → (Nat × Nat × Nat) → List (Nat × Nat × Nat) → Option (List (Nat × Nat × Nat))
  | [], _, _, acc => some acc
  | l :: ls, i, prev, acc =>
    match layerShape m i l prev acc with
    | none => none
    | some sh => modelShapes m ls (i + 1) sh (acc ++ [sh])

def layerFieldsOk (m : FModel) (l : FLayer) : Bool :=
  decide (l.frac ≤ 56 ∧ l.outShift ≤ 63 ∧ 1 ≤ l.outDim ∧ l.outDim ≤ 4096) && (l.act == 255 || l.act < m.acts.length) &&
    (l.type == 3 || (l.kh == 0 && l.kw == 0 && l.stride == 0 && l.pad == 0))

/-- Rows and row length of a layer's weights, 0 rows for a layer without any. -/
def weightDims (l : FLayer) (prevC : Nat) : Nat × Nat :=
  if l.type = 1 then (l.inDim, l.outDim)
  else if l.type = 2 then (l.outDim, l.inDim)
  else if l.type = 3 then (l.outDim, l.kh * l.kw * prevC)
  else (0, 0)

def setOk (code : Nat) (set : Bytes) (dims : List (Nat × Nat)) : Bool :=
  (List.zip dims (List.range dims.length)).all (fun p =>
    let o := 16 * p.2
    let wOff := fieldAt set o 4
    let wLen := fieldAt set (o + 4) 4
    let bOff := fieldAt set (o + 8) 4
    p.1.1 == 0 || (wLen == operandSize code p.1.1 p.1.2 && decide (wOff + wLen ≤ set.length) &&
      (bOff == 0 || decide (bOff + 8 * p.1.1 ≤ set.length)) && (!(isMx code) || p.1.2 % 32 == 0)))

/-- R179, R181 and R182 for one model; `pp1` says that the image permits PP1.
(DEDUCED, log entry 94.) -/
def modelOk (block : Bytes) (off : Nat) (pp1 : Bool) : Bool :=
  let h := block.drop off
  let m := parseModel block off
  let n := m.layers.length
  let start := (m.inH, m.inW, m.inC)
  decide (off + 64 ≤ block.length ∧ fieldAt h 0 4 = 0x4D46464F ∧ fieldAt h 4 2 = 1 ∧ 1 ≤ n ∧ n ≤ 64 ∧
    1 ≤ m.scores ∧ m.scores ≤ 16 ∧ m.inputKind ≤ 2 ∧ m.inShift ≤ 15 ∧ fieldAt h 48 2 ≤ 16 ∧
    (m.inputKind ≤ 1 → 1 ≤ m.maxTokens ∧ m.maxTokens ≤ 1048576) ∧
    fieldAt h 24 4 + 32 * n ≤ h.length ∧ fieldAt h 28 4 + fieldAt h 36 4 ≤ h.length ∧
    fieldAt h 32 4 + fieldAt h 40 4 ≤ h.length ∧ fieldAt h 44 4 + 8192 * fieldAt h 48 2 ≤ h.length ∧
    (pp1 = true → fieldAt h 32 4 ≠ 0)) &&
    m.layers.all (layerFieldsOk m) &&
    (match modelShapes m m.layers 0 start [] with
     | none => false
     | some shapes =>
       let ins := start :: shapes
       let dims := (List.zip m.layers ins).map (fun p => weightDims p.1 p.2.2.2)
       (shapes.getLast?.map (fun s => s.2.2 == m.scores && s.1 == 1 && s.2.1 == 1)).getD false &&
       setOk 1 m.w0 dims && (m.w1 == [] || setOk 3 m.w1 dims))

/-- The MXU settings block of an image (R179). -/
def modelBlockOk (block : Bytes) (pp1 : Bool) : Bool :=
  let n := fieldAt block 1 1
  decide (8 ≤ block.length ∧ fieldAt block 0 1 = 5 ∧ 1 ≤ n ∧ n ≤ 4 ∧ fieldAt block 4 4 = block.length ∧ 8 + 4 * n ≤ block.length) &&
    (List.range n).all (fun i => modelOk block (fieldAt block (8 + 4 * i) 4) pp1)

/-- A quantised value: significand × 2^exponent, and the scale byte of its block (127 without blocks). -/
structure QVal where
  m : Int
  x : Int
  scale : Nat
  deriving DecidableEq, Repr

/-- floor(log2) of n × 2^sh for n > 0. -/
def floorLog2 (n : Nat) (sh : Int) : Int := (Nat.log2 n : Int) + sh

def quantE4M3 (n sh : Int) : QVal :=
  match decodeFloat fmtE4M3 (encodeFloat fmtE4M3 true n sh) with
  | .fin neg m x => ⟨signedMag neg m, x, 127⟩
  | _ => ⟨0, 0, 127⟩

/-- One MXFP4 block (R183): values n × 2^sh of up to 32 consecutive channels.
(DEDUCED, log entry 23.) -/
def quantFP4Block (l : List Int) (sh : Int) : List QVal :=
  let mx := (l.map Int.natAbs).foldl max 0
  if mx = 0 then l.map (fun _ => ⟨0, 0, 0⟩)
  else
    let e := floorLog2 mx sh - 2
    let e := if e < -127 then -127 else if 127 < e then 127 else e
    l.map (fun n =>
      match decodeFloat fmtE2M1 (encodeFloat fmtE2M1 true n (sh - e)) with
      | .fin neg m x => ⟨signedMag neg m, x + e, (e + 127).toNat⟩
      | _ => ⟨0, 0, 0⟩)

def chunks (n : Nat) : Nat → List Int → List (List Int)
  | 0, _ => []
  | f + 1, l => if l = [] then [] else l.take n :: chunks n f (l.drop n)

/-- Quantises one position's channels (R183) under the power profile. -/
def quantise (pp1 : Bool) (l : List Int) (sh : Int) : List QVal :=
  if pp1 then (chunks 32 l.length l).flatMap (fun b => quantFP4Block b sh) else l.map (fun n => quantE4M3 n sh)

/-- How a model run stops: R173 or R172. -/
inductive FStop where
  | special | range
  deriving DecidableEq, Repr

def clampAct (x : Int) : Int := satS32 x

/-- Activation table lookup (R184). -/
def activate (m : FModel) (act : Nat) (y : Int) : Int :=
  match m.acts[act]? with
  | none => y
  | some t =>
    let i := ((y + 2147483648) / 4194304).toNat
    let yi : Int := -2147483648 + (i : Int) * 4194304
    let base := toSigned 32 (fieldAt t (8 * i) 4)
    let slope := toSigned 32 (fieldAt t (8 * i + 4) 4)
    clampAct (base + (slope * (y - yi) + 32768) / 65536)

/-- Weights of a layer: operand bytes and its biases' offset. -/
def layerWeights (set : Bytes) (i : Nat) : Array Byte × Nat :=
  ((slice set (fieldAt set (16 * i) 4) (fieldAt set (16 * i + 4) 4)).toArray, fieldAt set (16 * i + 8) 4)

def biasAt (set : Bytes) (bOff r : Nat) : Int := if bOff = 0 then 0 else toSigned 64 (fieldAt set (bOff + 8 * r) 8)

/-- One output of a weighted sum: inputs (none: a tap outside) against weight row r (R171, R172). -/
def dotQ (code : Nat) (w : Array Byte) (rows k r : Nat) (xs : List (Option QVal)) : Except FStop Acc :=
  (List.zip xs (List.range k)).foldl (fun acc p =>
    match acc, p.1 with
    | .error e, _ => .error e
    | .ok a, none => .ok a
    | .ok a, some q =>
      let sb := scaleByte code w rows k r (p.2 / 32)
      if code = 3 && sb != 255 && !inWindow 3 3 ((q.scale : Int) + sb - 254) then .error .range
      else .ok (accMul a (.fin q.m q.x) (operandAt code w rows k r p.2))) (.ok accZero)

def finishAcc (frac : Nat) (bias : Int) (r : Except FStop Acc) : Except FStop Int :=
  match r with
  | .error e => .error e
  | .ok c => if c.special then .error .special else .ok (satS32 (roundEvenShift (c.a + bias * 2 ^ 32) ((frac : Int) - 56)))

def collect {ε α : Type} : List (Except ε α) → Except ε (List α)
  | [] => .ok []
  | .error e :: _ => .error e
  | .ok a :: l => (collect l).map (fun r => a :: r)

/-- Mean of n exact sums (EMBED_MEAN, POOL_MEAN): round-half-to-even(A × 2^FRAC / (2^56 × n)). -/
def meanOf (frac n : Nat) (a : Int) : Int :=
  if n = 0 then 0
  else
    let num := a.natAbs * 2 ^ frac
    let den := 2 ^ 56 * n
    let q := num / den
    let r := num % den
    let q := if den < 2 * r then q + 1 else if 2 * r = den then q + q % 2 else q
    satS32 (if a < 0 then -(q : Int) else q)

def sumVals (l : List MVal) : Acc := l.foldl (fun c v => accMul c v (.fin 1 0)) accZero

/-- A mean, unless a block lies outside the window (R172) or the sum is special (R173). -/
def meanAcc (frac n : Nat) (outside : Bool) (c : Acc) : Except FStop Int :=
  if outside then .error .range else if c.special then .error .special else .ok (meanOf frac n c.a)

/-- A layer's s32 results before activation: input shape, quantised input (position-major), token IDs. -/
def layerRun (code : Nat) (set : Bytes) (i : Nat) (l : FLayer) (shape : Nat × Nat × Nat) (x : Array QVal)
    (tokens : List Nat) (prev : List Int) (results : List (List Int)) : Except FStop (List Int) :=
  let (h, w, c) := shape
  let (wt, bOff) := layerWeights set i
  if l.type = 1 then
    let ids := tokens.filter (· < l.inDim)
    collect ((List.range l.outDim).map (fun ch =>
      let scales := ids.map (fun id => scaleByte code wt l.inDim l.outDim id (ch / 32))
      meanAcc l.frac ids.length (code == 3 && scales.any (fun b => b != 255 && !inWindowAlone b))
        (sumVals (ids.map (fun id => operandAt code wt l.inDim l.outDim id ch)))))
  else if l.type = 2 then
    collect ((List.range l.outDim).map (fun r =>
      finishAcc l.frac (biasAt set bOff r) (dotQ code wt l.outDim l.inDim r (x.toList.map some))))
  else if l.type = 3 then
    let oh := (h + 2 * l.pad - l.kh) / l.stride + 1
    let ow := (w + 2 * l.pad - l.kw) / l.stride + 1
    let k := l.kh * l.kw * c
    collect ((List.range oh).flatMap (fun oy => (List.range ow).flatMap (fun ox =>
      let taps := (List.range l.kh).flatMap (fun ky => (List.range l.kw).flatMap (fun kx => (List.range c).map (fun ch =>
        let y := oy * l.stride + ky
        let xx := ox * l.stride + kx
        if y < l.pad ∨ h + l.pad ≤ y ∨ xx < l.pad ∨ w + l.pad ≤ xx then none
        else x[((y - l.pad) * w + (xx - l.pad)) * c + ch]?)))
      (List.range l.outDim).map (fun r => finishAcc l.frac (biasAt set bOff r) (dotQ code wt l.outDim k r taps)))))
  else if l.type = 4 then
    collect ((List.range c).map (fun ch =>
      let vals := (List.range (h * w)).filterMap (fun p => x[p * c + ch]?)
      meanAcc l.frac (h * w) (code == 3 && vals.any (fun q => !inWindowAlone q.scale))
        (sumVals (vals.map (fun q => .fin q.m q.x)))))
  else .ok (List.zipWith (fun a b => satS32 (a + b)) prev (results.getD l.src []))

def quantAll (pp1 : Bool) (c : Nat) (sh : Int) (y : List Int) : List QVal :=
  (chunks (max c 1) y.length y).flatMap (fun pos => quantise pp1 pos sh)

def runLayers (m : FModel) (pp1 : Bool) (set : Bytes) (tokens : List Nat) :
    List FLayer → Nat → (Nat × Nat × Nat) → Array QVal → List Int → List (List Int) → Except FStop (List Int)
  | [], _, _, _, y, _ => .ok y
  | l :: ls, i, shape, x, prev, results =>
    match layerRun (if pp1 then 3 else 1) set i l shape x tokens prev results with
    | .error e => .error e
    | .ok y =>
      let y := if l.act = 255 then y else y.map (activate m l.act)
      let shape' := (layerShape m i l shape (List.replicate (l.src + 1) shape)).getD shape
      runLayers m pp1 set tokens ls (i + 1) shape' (quantAll pp1 shape'.2.2 (-(l.outShift : Int)) y).toArray y (results ++ [y])

/-- The scores of a model on its input (R182). -/
def modelScores (m : FModel) (pp1 : Bool) (input : Bytes) : Except FStop (List Int) :=
  let idw := if m.inputKind = 0 then 2 else 4
  let ids := (List.range (min (input.length / idw) m.maxTokens)).map (fun i => fieldAt input (i * idw) idw)
  let tens := input.map (fun b => (b.toNat : Int) - m.inZero)
  let x := if m.inputKind = 2 then quantAll pp1 m.inC (-(m.inShift : Int)) tens else []
  runLayers m pp1 (if pp1 then m.w1 else m.w0) (if m.inputKind = 2 then [] else ids) m.layers 0 (m.inH, m.inW, m.inC) x.toArray [] []

/-- One entry of the decision table (R186): threshold and mode. -/
structure Decision where
  threshold : Int
  mode : Nat
  deriving DecidableEq, Repr

def passes (d : Decision) (score : Int) : Bool :=
  if d.mode = 1 then decide (d.threshold ≤ score) else if d.mode = 2 then decide (score ≤ d.threshold) else true

/-- The FILTER and MIX output header (Table 7.3): VERDICT, SCORE_COUNT. -/
def verdictHeader (verdict count : Nat) : Bytes := toLE 2 verdict ++ toLE 2 count ++ zeros 4

/-- FILTER (R185, R186): models of the region, the model number, the context's 16 decisions of that model. -/
def filterCall (models : List FModel) (model : Nat) (pp1 : Bool) (slotHeld : Bool) (table : List Decision)
    (input : Bytes) (cap : Nat) : EngRes :=
  match models[model]? with
  | none => engFail stMXU_ARGS
  | some m =>
    let lenOk := if m.inputKind = 2 then input.length = m.inH * m.inW * m.inC
      else input.length % (if m.inputKind = 0 then 2 else 4) = 0
    if !slotHeld ∨ !(decide lenOk) then engFail stMXU_ARGS
    else if cap < 8 + 4 * m.scores then engFail stMXU_LIMIT
    else
      match modelScores m pp1 input with
      | .error .special => ⟨stMXU_SPECIAL, 8, verdictHeader 1 0⟩
      | .error .range => ⟨stMXU_RANGE, 8, verdictHeader 1 0⟩
      | .ok scores =>
        let ok := (List.zip scores table).all (fun p => passes p.2 p.1)
        let out := verdictHeader (if ok then 0 else 1) scores.length ++ scores.flatMap (fun x => toLE 4 (ofSigned 32 x))
        ⟨stOK, out.length, out⟩

/-- MIX (R187): the item's mix word against the weight in effect. -/
def mixCall (slotHeld : Bool) (inLen mixWord weight cap : Nat) : EngRes :=
  if !slotHeld ∨ inLen ≠ 0 then engFail stMXU_ARGS
  else if cap < 8 then engFail stMXU_LIMIT
  else ⟨stOK, 8, verdictHeader (if mixWord < weight then 0 else 1) 0⟩

end Sys2Proof.Machine
end

