-- ==== Sys2Proof/Machine/Blocks/Run.lean ====
section
/-!
DEFINITION. Runs and their content inputs (spec/02, 08, 14, 19): manifests, run configurations, epochs, the decision
table and mixing weights, work plans, groups and rows on their way to consumers, Logbooks, ingest streams.
-/
namespace Sys2Proof.Machine

/-- A pod entry of a manifest: pod number and member mask (Table 2.6). -/
structure PodEnt where
  pod : Nat
  mask : Nat
  deriving DecidableEq, Repr

structure ExtentEnt where
  first : Nat
  count : Nat
  used : Nat
  deriving DecidableEq, Repr

/-- A dataset entry of a manifest with its extent table and pod list (Tables 2.5, 2.6). -/
structure DatasetEnt where
  id : Nat
  sizeLog2 : Nat
  gen : Nat
  count : Nat
  base : Nat
  extents : List ExtentEnt
  pods : List PodEnt
  deriving DecidableEq, Repr

structure ManifestRec where
  version : Nat
  total : Nat
  digest : Bytes
  datasets : List DatasetEnt
  deriving DecidableEq, Repr

/-- The pack settings block (Table 8.1), with its 64 bytes as submitted. -/
structure PackCfg where
  consumers : Nat
  rows : Nat
  group : Nat
  q : Nat
  lead : Nat
  layout : Nat
  fitMode : Nat
  overlong : Nat
  rowTokens : Nat
  segMax : Nat
  owners : Nat
  padId : Nat
  entryBytes : Nat
  reserve : Nat
  creditPoll : Nat
  raw : Bytes
  deriving DecidableEq, Repr

/-- A consumer record (Table 8.4). -/
structure ConsumerRec where
  num : Nat
  slots : Nat
  ringAddr : Nat
  ringKey : Nat
  stride : Nat
  creditAddr : Nat
  creditKey : Nat
  gid : Bytes
  qpnBase : Nat
  deriving DecidableEq, Repr

/-- A run configuration (Table 19.15). -/
structure RunCfg where
  power : Nat
  replay : Bool
  runId : Nat
  firstStep : Nat
  replayFrom : Nat
  pegBase : Nat
  ranks : List Nat
  spares : List Nat
  splitMax : Nat
  splitMargin : Nat
  splitTimeout : Nat
  pack : PackCfg
  consumers : List ConsumerRec
  frames : Bytes
  deriving DecidableEq, Repr

/-- Epoch e (R62): its first run-relative step, its sample count and its Throw exponent. -/
structure Epoch where
  num : Nat
  start : Nat
  count : Nat
  k : Nat
  deriving DecidableEq, Repr

/-- A Logbook record's content (Tables 14.2, 14.3). -/
structure LogRec where
  kind : Nat
  eff : Nat
  key : Nat
  body : Bytes
  deriving DecidableEq, Repr

/-- A run's Logbook: its stored frames (Table 14.5), digest of its latest record. -/
structure Logbook where
  runId : Nat
  frames : List Bytes
  lastDigest : Bytes
  deriving DecidableEq, Repr

/-- A sample fetch in flight at the holder (R72): the target step, the position i of R63 and its global index. -/
structure Fetch where
  step : Nat
  place : Nat
  index : Nat
  deriving DecidableEq, Repr

/-- Phase of a row's delivery (R213). -/
inductive RowPhase where
  | packed | payload | header | stamp | stamped
  deriving DecidableEq, Repr

/-- A packed row (Table 8.5 header bytes 0 to 55, payload), its phase, the unacknowledged writes of that phase, its buffers. -/
structure RowRec where
  step : Nat
  consumer : Nat
  row : Nat
  seq : Nat
  header : Bytes
  payload : Bytes
  phase : RowPhase
  pend : Nat
  handle : Nat
  deriving DecidableEq, Repr

/-- The landing chain of a position (R199): its handle and the pages mapped so far. -/
structure LandChain where
  handle : Nat
  pages : List Nat
  deriving DecidableEq, Repr

/-- An exchange whose holder is the owner (R196): KIND, and the handle and length of the bytes. -/
structure LocalExch where
  kind : Nat
  handle : Nat
  len : Nat
  header : Bytes
  deriving DecidableEq, Repr

/-- An owned pack group of a target step (R193, R204): its ordinal, the global index of each group position once Throw has
given it, exchanges handed over locally, the work item of each stored record dispatched here, whether its rows are packed or
its packing failed (R202, R209), and the handles its packing read. -/
structure GroupRec where
  step : Nat
  consumer : Nat
  grp : Nat
  ordinal : Nat
  indices : Map Nat
  localIn : Map LocalExch
  items : Map Nat
  packed : Bool
  failed : Bool
  handles : List Nat
  deriving DecidableEq, Repr

/-- Delivery state per owned consumer: last credit value read, read in flight, time of the last read (R212), and the highest
sequence a read was made for. -/
structure Credit where
  released : Option Nat
  asked : Nat
  reading : Bool
  readAt : Nat
  deriving DecidableEq, Repr

/-- A seated run: epochs so far, ranks this device carries, devices that carry ranks of others, the next step to plan and whose Logbook set to write, work in
flight, landing chains by slot, ordinal and position, the LANDING window's key here and at each peer, queue pairs to each peer rank (TC1, TC0) and
to each consumer, the first uncommitted step, the reported ones, and the state of an abort and restart (R410 to R413). -/
structure RunRec where
  cfg : RunCfg
  epochs : List Epoch
  carries : List Nat
  carriers : Map Nat
  nextPlan : Nat
  nextSet : Nat
  fetches : List Fetch
  groups : List GroupRec
  rows : List RowRec
  credits : Map Credit
  landing : Map LandChain
  landingKey : Nat
  peerKeys : Map Nat
  peers : Map Nat
  peers0 : Map Nat
  delivery : Map Nat
  nextCommit : Nat
  reported : List Nat
  late : List Nat
  missed : List Nat
  restarts : Nat
  aborted : Option Nat
  abortAt : Nat
  exempt : Nat
  imported : List LogRec
  deriving DecidableEq, Repr

/-- A change of the decision table (R186): effective step, model × 16 + score, entry. -/
structure TableChange where
  step : Nat
  entry : Nat
  value : Decision
  deriving DecidableEq, Repr

/-- An accepted mixing record (R188, R189): its SEQUENCE, effective step and entries (dataset, weight). -/
structure MixRec where
  seq : Nat
  step : Nat
  entries : List (Nat × Nat)
  raw : Bytes
  deriving DecidableEq, Repr

/-- A mixing record on its way to its fixed outcome (R188, R400, R401): fragments received by index, the whole record once
complete and checked, the entry device's name, and at the entry device the reply queue pair, the ranks that have acknowledged, when fragments were
last sent, and its decision. -/
structure MixPending where
  seq : Nat
  step : Nat
  total : Nat
  frags : Map Bytes
  record : Option Bytes
  entry : Bool
  source : Nat
  qp : Nat
  acked : List Nat
  sentAt : Nat
  decided : Option Status
  deriving DecidableEq, Repr

/-- An open ingest stream (R61): dataset, extent size, pods, generation, next local index, closed extents, the records of the
current one and its first index, and the latest sequence number taken. -/
structure IngestRec where
  dataset : Nat
  sizeLog2 : Nat
  pods : List PodEnt
  gen : Nat
  next : Nat
  extents : List (ExtentEnt × Bytes)
  first : Nat
  records : List Bytes
  lastSeq : Option Nat
  deriving DecidableEq, Repr

/-- Content inputs of a context and its run; `minRunId` lies above every RUN_ID used (R343). A list of (step, value) holds what takes effect at each step. -/
structure CtxData where
  seed : Option Bytes
  manifests : List (Nat × ManifestRec)
  images : List (Nat × Nat)
  tables : List TableChange
  mixes : List MixRec
  mixing : List MixPending
  logSet : List LogRec
  regions : Map Bytes
  binds : Map (List Nat)
  imageRegion : Map Nat
  minRunId : Nat
  logs : Map Logbook
  ingest : Map IngestRec
  gens : Map Nat
  run : Option RunRec
  deriving DecidableEq, Repr

def CtxData.off : CtxData :=
  { seed := none, manifests := [], images := [], tables := [], mixes := [], mixing := [], logSet := [], regions := [], binds := [],
    imageRegion := [], minRunId := 0, logs := [], ingest := [], gens := [], run := none }

/-- An evaluation in a Dice unit (R67, R68): the target step and position i, the epoch, its domain exponent and sample
count, and the value that enters the network. -/
structure DiceJob where
  ctx : Nat
  step : Nat
  place : Nat
  epoch : Nat
  k : Nat
  count : Nat
  x : Nat
  unit : Nat
  deriving DecidableEq, Repr

/-- A vocabulary bank (R149, R150): the image held, its digest, who loads it. VOC_SLOT n shows its state. -/
structure VocBank where
  image : Bytes
  digest : Bytes
  loader : Nat
  deriving DecidableEq, Repr

end Sys2Proof.Machine
end

