-- ==== Sys2Proof/Machine/Blocks/Media.lean ====
section
/-!
DEFINITION. State of the media controller (spec/12_media_management.md) and of what is stored on media: dataset fragments,
objects, checkpoint generations; superblocks, the write buffer, the flush reserve, resume records, pod-level recovery.
-/
namespace Sys2Proof.Machine

/-- Data classes of superblocks (R284), in rebuild order. -/
inductive DataClass where
  | metadata | ledger | fragment
  deriving DecidableEq, Repr

/-- What a byte stream on media holds (R286): a copy of FTL metadata, a copy of a run's Logbook (R344), an object, a chunk of a
checkpoint object, a fragment. -/
inductive Stream where
  | ftl (copy : Nat)
  | log (ctx run copy : Nat)
  | obj (ctx id : Nat)
  | chunk (ctx gen id idx : Nat)
  | frag (tag stripe num : Nat)
  deriving DecidableEq, Repr

def Stream.cls : Stream → DataClass
  | .ftl _ => .metadata
  | .log .. => .metadata
  | .obj .. => .ledger
  | .chunk .. => .ledger
  | .frag .. => .fragment

/-- The other copy of a metadata stream (R287). -/
def Stream.twin : Stream → Option Stream
  | .ftl k => some (.ftl (1 - k))
  | .log c r k => some (.log c r (1 - k))
  | _ => none

/-- A superblock of a die group: its streams with their bytes, SLC or QLC mode, reads since its erase, its latest scan. -/
structure Superblock where
  num : Nat
  group : Nat
  cls : DataClass
  slc : Bool
  units : List (Stream × Nat)
  reads : Nat
  scanned : Nat
  deriving DecidableEq, Repr

/-- A write buffer entry in arrival order: the stream, its bytes, the queue and TAG that wrote it, and the Ledger command
(queue, slot) that commits only once it is programmed (R291). -/
structure WbItem where
  stream : Stream
  bytes : Nat
  queue : Option Nat
  tag : Nat
  cmd : Option (Nat × Nat)
  deriving DecidableEq, Repr

/-- An object's committed version and the command that wrote it. (DESIGN CHOICE, log entry 40.) -/
structure Obj where
  ctx : Nat
  id : Nat
  data : Bytes
  damaged : Bool
  queue : Nat
  tag : Nat
  deriving DecidableEq, Repr

/-- A committed chunk of a checkpoint object (Table 4.4): MODE, the raw bytes, the bytes it takes on media, RAW_CRC.
(DESIGN CHOICE, log entries 27, 40.) -/
structure Chunk where
  id : Nat
  idx : Nat
  mode : Nat
  raw : Bytes
  stored : Nat
  rawCrc : Nat
  damaged : Bool
  queue : Nat
  tag : Nat
  deriving DecidableEq, Repr

/-- A checkpoint generation of a context (R275). -/
structure Gen where
  ctx : Nat
  num : Nat
  isSealed : Bool
  damaged : Bool
  chunks : List Chunk
  deriving DecidableEq, Repr

/-- A stored fragment (R302): DATASET_TAG, stripe, number; the dataset, generation and pods that placed it, data extents of
the dataset, bytes as stored, and ranges that are lost. (DESIGN CHOICE, log entry 40.) -/
structure Frag where
  tag : Nat
  stripe : Nat
  num : Nat
  ctx : Nat
  dataset : Nat
  gen : Nat
  pods : List PodEnt
  extents : Nat
  data : Bytes
  lost : List (Nat × Nat)
  deriving DecidableEq, Repr

/-- A pod-level recovery (R301): the lost fragment and range, and the landing handles of the fragments asked for. -/
structure Recovery where
  tag : Nat
  stripe : Nat
  num : Nat
  off : Nat
  len : Nat
  asked : Map Nat
  deriving DecidableEq, Repr

/-- A recovery link to a member of the pod (R302): its queue pair, the next slot and SEQ of its queue there. -/
structure RecLink where
  qp : Nat
  slot : Nat
  seq : Nat
  windowKey : Nat
  deriving DecidableEq, Repr

/-- A resume record (Table 12.5). -/
structure ResumeRec where
  cell : Nat
  state : Nat
  seq : Nat
  mapAt : Nat
  journalAt : Nat
  flushSeq : Nat
  retiredVersion : Nat
  deriving DecidableEq, Repr

/-- A resume cell: pages of its active block, oldest first (none: a page that fails its check). -/
abbrev ResumeCell := List (Option ResumeRec)

/-- A rebuild of a die group: whether a second die was lost before it completed (R297). -/
structure Rebuild where
  double : Bool
  deriving DecidableEq, Repr

structure MediaState where
  retired : List (Nat × Nat)
  retiredVersion : Nat
  rebuilds : Map Rebuild
  blocks : List Superblock
  nextBlock : Nat
  stale : List Superblock
  wb : List WbItem
  slcUsed : Nat
  qlcValid : Nat
  floorSince : Option Nat
  objects : List Obj
  gens : List Gen
  frags : List Frag
  lostQueue : List (Nat × Nat × Nat × Nat × Nat)
  recoveries : List Recovery
  links : Map RecLink
  lastOp : Nat
  checkpointAt : Nat
  mapAt : Nat
  journalAt : Nat
  metaLost : List Stream
  savedReads : Map Nat
  resumeDue : Option Nat
  cell0 : ResumeCell
  cell1 : ResumeCell
  flushSeq : Nat
  flushing : Option Nat
  reserve : List WbItem
  reserveSeq : Nat
  endMark : Bool
  health : Nat
  wear : Nat
  spare : Nat
  deriving DecidableEq, Repr

def MediaState.off : MediaState :=
  { retired := [], retiredVersion := 0, rebuilds := [], blocks := [], nextBlock := 0, stale := [], wb := [],
    slcUsed := 0, qlcValid := 0, floorSince := none, objects := [], gens := [], frags := [], lostQueue := [],
    recoveries := [], links := [], lastOp := 0, checkpointAt := 0, mapAt := 0, journalAt := 0, metaLost := [],
    savedReads := [], resumeDue := none, cell0 := [], cell1 := [], flushSeq := 0, flushing := none, reserve := [],
    reserveSeq := 0, endMark := false, health := 0, wear := 0, spare := 100 }

end Sys2Proof.Machine
end

