-- ==== Sys2Proof/Machine/Blocks/Module.lean ====
section
/-!
DEFINITION. State of the module (spec/20_module_power_clocks.md) and of boot and update (spec/21): rails and reset
pins, boot progress, the governor, clocks and crossings, the firmware store and the persistent settings.
-/
namespace Sys2Proof.Machine

/-- Rails applied, PWR_GOOD, the reset pins (true: held low), a rail out of order (R445), boot stages completed of Table
21.2, recovery (R460), a module reset due when the flush ends (R446), a
boot that found no LOADER (R460), and the latest measurement of the hold-up store. -/
structure ModState where
  p3v3 : Bool
  p12v : Bool
  p54v : Bool
  pwrGood : Bool
  modReset : Bool
  perst : Bool
  held : Bool
  booted : Nat
  recovery : Bool
  resetDue : Bool
  stopped : Bool
  measuredAt : Nat
  deriving DecidableEq, Repr

def ModState.on : ModState :=
  { p3v3 := true, p12v := true, p54v := true, pwrGood := true, modReset := false, perst := false, held := false,
    booted := 0, recovery := false, resetDue := false, stopped := false, measuredAt := 0 }

def ModState.dead : ModState :=
  { p3v3 := false, p12v := false, p54v := false, pwrGood := false, modReset := false, perst := false, held := true,
    booted := 0, recovery := false, resetDue := false, stopped := false, measuredAt := 0 }

/-- The governor: latest 1,000 samples, newest first (R449), when it sampled, whether the coolant holds B down, percent by
which a soft throttle lowers B, whether that still falls, when it last changed (R451), ns below duty 64 not yet counted. -/
structure PowerState where
  samples : List Nat
  sampledAt : Nat
  coolLow : Bool
  lowered : Nat
  falling : Bool
  stepAt : Nat
  thermalAt : Nat
  belowNs : Nat
  deriving DecidableEq, Repr

def PowerState.off : PowerState :=
  { samples := [], sampledAt := 0, coolLow := false, lowered := 0, falling := false, stepAt := 0, thermalAt := 0,
    belowNs := 0 }

/-- Clocks: when each quarter's clock runs again after a wake (R452), quarter links that carry traffic, sync entries sent and
not echoed (R455), stamps of entries in each crossing FIFO, fenced quarters, PPS pulses seen and sent (R454). -/
structure ClockState where
  clockAt : Map Nat
  links : List Nat
  syncAt : Map Nat
  fifos : Map (List Nat)
  fenced : List Nat
  ppsOutAt : Option Nat
  ppsMissed : Bool
  deriving DecidableEq, Repr

def ClockState.off : ClockState :=
  { clockAt := [], links := [], syncAt := [], fifos := [], fenced := [], ppsOutAt := none, ppsMissed := false }

/-- A bank: the header with its block table, target bytes by block (those that pass their CHECK), payload stored so far, and the
image once verified. -/
structure Bank where
  header : Bytes
  payload : Map Byte
  blocks : Map Bytes
  image : Option FwImage
  deriving DecidableEq, Repr

def Bank.empty : Bank := { header := [], payload := [], blocks := [], image := none }

/-- The selector record (R467): per component the active bank, TRIAL, the trial boot count. -/
structure SelRec where
  seq : Nat
  active : Map Nat
  trial : Map Bool
  count : Map Nat
  deriving DecidableEq, Repr

/-- A selector cell: pages oldest first (none: a page that fails its CRC). -/
abbrev SelCell := List (Option SelRec)

/-- The firmware store and fuses: banks (component × 2 + bank), selector cells, the fused floor, SEAL_EPOCH fuses burned,
the DECOMMISSIONED mark, when each trial began, the switch under way (component, port groups left, whether it rolls back),
the step at which a TILE switch is due, settings saved by group with the format that wrote them, shaper entries and defined
contexts, and the copies kept for a rollback. -/
structure FwState where
  banks : Map Bank
  cellA : SelCell
  cellB : SelCell
  floor : Nat
  sealEpoch : Nat
  decommissioned : Bool
  trialAt : Map Nat
  switching : Option (Nat × Nat × Bool)
  switchStep : Option Nat
  formats : Map Nat
  saved : Map (Map Nat)
  kept : Map (Map Nat)
  keptFormats : Map Nat
  keptShapers : List (Nat × Nat × Nat)
  shapers : List (Nat × Nat × Nat)
  contexts : List Nat
  deriving DecidableEq, Repr

def FwState.off : FwState :=
  { banks := [], cellA := [], cellB := [], floor := 0, sealEpoch := 0, decommissioned := false, trialAt := [],
    switching := none, switchStep := none, formats := [], saved := [], kept := [], keptFormats := [], keptShapers := [], shapers := [],
    contexts := [] }

end Sys2Proof.Machine
end

