-- ==== Sys2Proof/Machine/Blocks/Net.lean ====
section
/-!
DEFINITION. State of the network complex (spec/10_network_and_rdma.md) and of the egress side of spec/09_step_time_and_gates.md:
queue pairs, work requests, windows, egress and ingress queues, gates and shapers.
-/
namespace Sys2Proof.Machine

/-- Kinds of queue pair (R252). -/
inductive QpKind where
  | peer | consumer | client
  deriving DecidableEq, Repr

/-- States of Table 10.5. -/
inductive QpState where
  | init | rtr | rts | err
  deriving DecidableEq, Repr

/-- What a requester asks for: an RDMA WRITE with its immediate, or an RDMA READ. -/
inductive Wr where
  | write (addr key : Nat) (imm : Option Nat) (data : Bytes)
  | read (addr key len : Nat)
  deriving DecidableEq, Repr

/-- The block that posted a request and gets its completion (R258). -/
inductive WrFor where
  | exchange (ctx step consumer grp gpos handle : Nat)
  | rowPart (ctx step consumer row phase : Nat)
  | credit (ctx consumer : Nat)
  | ledger (ctx queue slot part : Nat)
  | fragment (ctx id part : Nat)
  | plain
  deriving DecidableEq, Repr

/-- A posted request: first PSN and packet count once issued, and the READ bytes returned so far. -/
structure WorkReq where
  what : Wr
  owner : WrFor
  issued : Bool
  psn : Nat
  count : Nat
  got : Bytes
  deriving DecidableEq, Repr

/-- A WRITE message being received: key, next address, and bytes still announced. -/
structure RxMsg where
  key : Nat
  start : Nat
  addr : Nat
  left : Nat
  deriving DecidableEq, Repr

/-- A queue pair (Table 10.4, R253): attributes, requester, responder, rate control (R263) and
sealing (R375); `serves`: it serves the device itself and counts against no share (R352). -/
structure Qp where
  gen : Nat
  kind : QpKind
  cls : Nat
  ctx : Nat
  pd : Nat
  port : Nat
  sub : Nat
  peerGid : Bytes
  peerQpn : Nat
  pmtu : Nat
  timeout : Nat
  retryCnt : Nat
  initDepth : Nat
  respDepth : Nat
  state : QpState
  flushed : Bool
  cause : Status
  sends : List WorkReq
  nextPsn : Nat
  unacked : Nat
  retries : Nat
  timer : Option Nat
  ePsn : Nat
  gapNak : Bool
  rx : Option RxMsg
  coalesce : Option Nat
  rate : Nat
  tAdj : Nat
  paceAt : Nat
  probes : List (Nat × Nat)
  sealSeq : Nat
  sealHigh : Option Nat
  sealSeen : List Nat
  peerRank : Nat
  serves : Bool
  deriving DecidableEq, Repr

/-- Window kinds of Table 10.6; a LANDING window names its run's context, a HANDLE window its handle. -/
inductive WinKind where
  | landing | beacon | mailbox | ledger | handle (h : Nat)
  deriving DecidableEq, Repr

/-- A window (R260): its index stands in the map, its key is index and tag. `closing` holds the revocation stamp and the
request that closes it (R262). -/
structure Window where
  tag : Nat
  ctx : Nat
  pd : Nat
  kind : WinKind
  len : Nat
  canWrite : Bool
  canRead : Bool
  isOpen : Bool
  closing : Option Nat
  deriving DecidableEq, Repr

/-- A frame that waits in an egress queue: wire bytes, the queue pair it belongs to, when it was queued.
(DESIGN CHOICE, log entry 92.) -/
structure EgFrame where
  port : Nat
  sub : Nat
  cls : Nat
  ctx : Nat
  qp : Option Nat
  bytes : Nat
  at_ : Nat
  body : Pkt
  deriving DecidableEq, Repr

/-- A received frame that waits to be handled: its port, subport, class, content, and the SEAL_SEQ and tag check of a
sealed packet. -/
structure RxFrame where
  port : Nat
  sub : Nat
  cls : Nat
  tag : Option (Nat × Bool)
  body : RxBody
  deriving DecidableEq, Repr

/-- A complete WRITE message into a BEACON (0), MAILBOX (1) or LEDGER (2) window that waits to be examined: its first
address, the port and queue pair it came through. -/
structure RxDone where
  kind : Nat
  ctx : Nat
  addr : Nat
  port : Nat
  qp : Nat
  deriving DecidableEq, Repr

/-- A gate in effect on a port: its plan entry, class, effective close and guard start (R231). -/
structure OpenGate where
  entry : Nat
  cls : Nat
  step : Nat
  close : Nat
  lastStart : Nat
  deriving DecidableEq, Repr

/-- A shaper (R233): credit in units of 1/256 packet and when it was brought up to date. -/
structure Shaper where
  credit : Nat
  since : Nat
  deriving DecidableEq, Repr

/-- Shaper parameters of a (port, class, context): RATE and BURST (Table 9.4). -/
structure ShaperCfg where
  rate : Nat
  burst : Nat
  deriving DecidableEq, Repr

/-- Queue samples of a (port, class, context) during a step (Table 9.5). -/
structure QSample where
  maxDepth : Nat
  sumDepth : Nat
  maxDelay : Nat
  samples : Nat
  deriving DecidableEq, Repr

/-- A subport: times of its MACsec discards of the last second (R247) and the end of a pause of TC0 (R246). -/
structure SubState where
  discards : List Nat
  pausedUntil : Option Nat
  deriving DecidableEq, Repr

structure NetState where
  qps : Map Qp
  gens : Map Nat
  windows : Map Window
  egress : List EgFrame
  busyUntil : Map Nat
  lastCtx : Map Nat
  ingress : List RxFrame
  winMem : Map (Map (BitVec 8))
  messages : List RxDone
  gates : Map OpenGate
  skipped : List (Nat × Nat × Nat)
  shapers : Map Shaper
  shaperCfg : Map ShaperCfg
  samples : Map QSample
  sampledAt : Map Nat
  summarised : Map Nat
  subs : Map SubState
  finished : List (WrFor × Status × Bytes)
  deriving DecidableEq, Repr

def NetState.off : NetState :=
  { qps := [], gens := [], windows := [], egress := [], busyUntil := [], lastCtx := [], ingress := [], winMem := [], messages := [], gates := [],
    skipped := [], shapers := [], shaperCfg := [], samples := [], sampledAt := [], summarised := [], subs := [], finished := [] }

/-- The step timeline and the servo (R218, R221, R228): history newest last, COMPUTE_LEN of the newest
accepted beacon, the step at which TIME improves. -/
structure StepState where
  history : List (Nat × Nat)
  computeLen : Nat
  duplicates : Nat
  servoOffset : Nat
  syncAt : Option Nat
  syncInterval : Nat
  uncert : Option Nat
  uncertainAt : Nat
  better : Option (Nat × Nat)
  deriving DecidableEq, Repr

def StepState.off : StepState :=
  { history := [], computeLen := 0, duplicates := 0, servoOffset := 0, syncAt := none,
    syncInterval := 0, uncert := none, uncertainAt := 0, better := none }

end Sys2Proof.Machine
end

