-- ==== Sys2Proof/Machine/Blocks/Sec.lean ====
section
/-!
DEFINITION. State of the key vault (spec/16_secrecy.md): key-store records, outstanding attestation reports, the debug
challenge, MACsec's CAK material.
-/
namespace Sys2Proof.Machine

/-- An outstanding report (R368): its digest, the seeds of its ephemeral ECDH and ML-KEM pairs, and when it was made. -/
structure Report where
  digest : Bytes
  ecdhSeed : Bytes
  kemSeed : Bytes
  made : Nat
  deriving DecidableEq, Repr

/-- The key vault: root keys and split session keys by context, K_link, the last accepted blob SEQUENCE and the output
counter by context (R371, R379), reports, the debug nonce with its time (R380), and the boot measurement. -/
structure SecState where
  roots : Map Bytes
  sessions : Map Bytes
  link : Option Bytes
  blobSeq : Map Nat
  outCtr : Map Nat
  reports : Map (List Report)
  challenge : Option (Bytes × Nat)
  measurement : Bytes
  portOpen : Bool
  deriving DecidableEq, Repr

def SecState.off : SecState :=
  { roots := [], sessions := [], link := none, blobSeq := [], outCtr := [], reports := [], challenge := none,
    measurement := [], portOpen := false }

end Sys2Proof.Machine
end

