-- ==== Sys2Proof/Machine/Blocks/Sync.lean ====
section
/-!
DEFINITION. State of the Innkeeper, the peg unit and the device barriers (spec/13_innkeeper_and_pegs.md).
-/
namespace Sys2Proof.Machine

/-- A chain (R312, R315): generation of its number, its buffers as (class, physical index) in list order, owning agent
of Table 13.2, the tile when the agent is 0x00, and its bytes (R313: unlisted bytes read 0). -/
structure Chain where
  gen : Nat
  bufs : List (Nat × Nat)
  owner : Nat
  tile : Nat
  bytes : Map Byte
  deriving DecidableEq, Repr

/-- The free buffers of one class (R320): physical indices `fresh` up to the pool size stand at the ring's head in
rising order, then `ring`; `cache` is the on-chip cache, `scrub` the scrub queue. -/
structure Pool where
  fresh : Nat
  ring : List Nat
  cache : List Nat
  scrub : List Nat
  deriving DecidableEq, Repr

/-- Handle tables per context: live chains by number, and the current generation of every number used before. -/
structure InkState where
  chains : Map (Map Chain)
  gens : Map (Map Nat)
  pools : Map Pool
  deriving DecidableEq, Repr

def Pool.full : Pool := { fresh := 0, ring := [], cache := [], scrub := [] }

def InkState.off : InkState := { chains := [], gens := [], pools := [] }

/-- A mapped peg: physical peg and value (R325, R326). -/
structure Peg where
  phys : Nat
  value : Nat
  deriving DecidableEq, Repr

/-- A WAIT in flight in the peg unit: the call of a tile's lane, or the dispatch hub when `tile` is none. -/
structure PegWait where
  ctx : Nat
  peg : Nat
  value : Nat
  tile : Nat
  lane : Nat
  ticket : Nat
  deriving DecidableEq, Repr

/-- A device barrier (R330, R331): participants and arrivals are tiles; `gate` says whether the gate scheduler has
arrived in STEP mode. -/
structure Dbar where
  stepMode : Bool
  sense : Bool
  gen : Nat
  members : List Nat
  arrived : List Nat
  gate : Bool
  waiters : List (Nat × Nat × Nat × Bool)
  deriving DecidableEq, Repr

structure SyncState where
  pegs : Map (Map Peg)
  waits : List PegWait
  bars : Map (Map Dbar)
  deriving DecidableEq, Repr

def SyncState.off : SyncState := { pegs := [], waits := [], bars := [] }

end Sys2Proof.Machine
end

