-- ==== Sys2Proof/Machine/Image.lean ====
section
/-!
DEFINITION. Pipeline images (Tables 3.7 and 3.8, R97, R98): the parts of an image that the device uses, and the layout
rules that refuse an image with IMG_FORMAT or MODEL_FORMAT. The rules on authentication, on the firmware level, on the
run's profiles and on present units need the state and stand where an image is submitted and committed.
-/
namespace Sys2Proof.Machine

/-- A kernel-table entry of section 3. -/
structure Kernel where
  entry : Nat
  budget : Nat
  groups : Nat
  group : Bool
  barrier : Nat
  deriving DecidableEq, Repr

/-- What the device holds of a pipeline image. -/
structure ImageRec where
  bytes : Bytes
  digest : Bytes
  compat : Nat
  ownerSite : Bool
  profiles : Nat
  tensorRow : Bool
  workSlots : Nat
  paramCount : Nat
  code : Bytes
  const : Bytes
  kernels : List Kernel
  masks : List Nat
  params : List (Nat × Nat)
  vocabs : List Bytes
  models : Bytes
  constEnd : Nat
  workBase : Nat
  slotSize : Nat
  scratchBase : Nat
  scratchEnd : Nat
  cost : List (Nat × Nat)
  split : List Nat
  deriving DecidableEq, Repr

/-- Section entries (type, offset, length) of an image. -/
def imageSections (b : Bytes) : List (Nat × Nat × Nat) :=
  let at' := fieldAt b 20 4
  (List.range (fieldAt b 12 2)).map (fun i =>
    (fieldAt b (at' + 16 * i) 2, fieldAt b (at' + 16 * i + 4) 4, fieldAt b (at' + 16 * i + 8) 4))

/-- The content of the section of a type, if the image has one. -/
def imageSection (b : Bytes) (type : Nat) : Option Bytes :=
  match (imageSections b).find? (fun e => e.1 == type) with
  | some e => some (slice b e.2.1 e.2.2)
  | none => none

def parseKernels : Nat → Bytes → List Kernel
  | 0, _ => []
  | n + 1, b =>
    ⟨fieldAt b 0 4, fieldAt b 4 4, fieldAt b 8 2, fieldAt b 10 1 == 1, fieldAt b 11 1⟩ :: parseKernels n (b.drop 16)

/-- Lanes 32 n to 32 n + 31 for every lane group n of a mask (R73). -/
def groupLanes (groups : Nat) : Nat :=
  ((List.range 9).map (fun n => if bitOf groups n then (2 ^ 32 - 1) * 2 ^ (32 * n) else 0)).foldl (· + ·) 0

/-- No two masks of the list share a bit. -/
def disjointMasks : List Nat → Bool
  | [] => true
  | m :: ms => ms.all (fun x => m &&& x == 0) && disjointMasks ms

/-- Settings blocks (engine, bytes) of an ENGINES section (R98); none: a block leaves the section. -/
def settingsBlocks : Nat → Bytes → Option (List (Nat × Bytes))
  | 0, _ => none
  | fuel + 1, b =>
    if b.isEmpty then some []
    else
      let len := fieldAt b 4 4
      if len < 8 || b.length < len then none
      else match settingsBlocks fuel (b.drop len) with
        | some rest => some ((fieldAt b 0 1, b.take len) :: rest)
        | none => none

/-- Token settings block of R152. -/
def tokenBlockOk (b : Bytes) : Bool :=
  let n := fieldAt b 1 1
  1 ≤ n && n ≤ 8 && fieldAt b 4 4 == 8 + 48 * n

def tokenDigests (b : Bytes) : List Bytes := (List.range (fieldAt b 1 1)).map (fun v => slice b (8 + 48 * v) 48)

/-- Bounds of the header and of every section (R98, second and third points).
(DEDUCED, log entry 94.) -/
def imageHeaderOk (b : Bytes) : Bool :=
  let n := fieldAt b 12 2
  let secs := imageSections b
  fieldAt b 0 4 == 0x4950464F && fieldAt b 4 2 == 1 && fieldAt b 8 4 == b.length && b.length ≤ 2 ^ 23
    && 64 ≤ b.length && 1 ≤ n && n ≤ 16 && fieldAt b 20 4 + 16 * n ≤ b.length
    && fieldAt b 14 1 ≤ 1 && fieldAt b 16 1 ≤ 1 && 1 ≤ fieldAt b 17 1 && fieldAt b 17 1 ≤ 64 && fieldAt b 18 2 ≤ 256
    && secs.all (fun e => 1 ≤ e.1 && e.1 ≤ 9 && e.2.1 % 64 == 0 && e.2.1 + e.2.2 ≤ b.length)
    && (secs.map (·.1)).eraseDups.length == n
    && [1, 3, 4, 7, 8].all (fun t => secs.any (fun e => e.1 == t))
    && (fieldAt b 18 2 == 0 || secs.any (fun e => e.1 == 5))

/-- Lengths of the fixed-format sections (R98, fourth point). (DEDUCED, log entry 94.) -/
def sectionLengthsOk (b : Bytes) : Bool :=
  (imageSections b).all (fun e => match e.1 with
    | 3 => e.2.2 != 0 && e.2.2 % 16 == 0
    | 4 => e.2.2 == 320
    | 5 => e.2.2 == 8 * fieldAt b 18 2
    | 7 => e.2.2 == 20
    | 8 => e.2.2 == 128
    | 9 => e.2.2 == 32
    | _ => true)

/-- The image's parts, with no check of its own. -/
def readImage (b : Bytes) : ImageRec :=
  let sec := fun t => (imageSection b t).getD []
  let lay := sec 7
  let blocks := (settingsBlocks (b.length + 1) (sec 6)).getD []
  { bytes := b, digest := sha384 b, compat := fieldAt b 6 2, ownerSite := fieldAt b 14 1 == 1,
    profiles := fieldAt b 15 1, tensorRow := fieldAt b 16 1 == 1, workSlots := fieldAt b 17 1,
    paramCount := fieldAt b 18 2, code := sec 1, const := sec 2,
    kernels := parseKernels ((sec 3).length / 16) (sec 3),
    masks := (List.range 8).map (fun i => fieldAt (sec 4) (40 * i) 36),
    params := (List.range (fieldAt b 18 2)).map (fun i => (fieldAt (sec 5) (8 * i) 1, fieldAt (sec 5) (8 * i + 4) 4)),
    vocabs := match blocks.find? (fun e => e.1 == 4) with | some e => tokenDigests e.2 | none => [],
    models := match blocks.find? (fun e => e.1 == 5) with | some e => e.2 | none => [],
    constEnd := fieldAt lay 0 4, workBase := fieldAt lay 4 4, slotSize := fieldAt lay 8 4,
    scratchBase := fieldAt lay 12 4, scratchEnd := fieldAt lay 16 4,
    cost := (List.range 16).map (fun i => (fieldAt (sec 8) (8 * i) 4, fieldAt (sec 8) (8 * i + 4) 2)),
    split := match imageSection b 9 with
      | some m => (List.range 16).map (fun i => fieldAt m (2 * i) 2)
      | none => List.replicate 16 0 }

/-- LAYOUT regions ordered, disjoint, aligned and within the store (R98, fifth point). -/
def layoutOk (i : ImageRec) : Bool :=
  i.code.length + i.const.length ≤ i.constEnd && i.constEnd ≤ i.workBase
    && i.workBase + i.workSlots * i.slotSize ≤ i.scratchBase && i.scratchBase ≤ i.scratchEnd && i.scratchEnd ≤ 0x600000
    && [i.constEnd, i.workBase, i.slotSize, i.scratchBase, i.scratchEnd].all (fun a => a % 64 == 0)
    && 64 + 4 * i.paramCount ≤ i.slotSize

/-- Kernel entries (R98, sixth and seventh points). `modes` are the mode bytes as stored. -/
def kernelsOk (i : ImageRec) (modes : List Nat) : Bool :=
  modes.all (· ≤ 1)
    && i.kernels.all (fun k => k.entry % 4 == 0 && k.entry + 4 ≤ i.code.length
        && k.groups % 512 != 0 && k.groups < 512
        && (!k.group || (k.barrier < 8 && (let m := i.masks.getD k.barrier 0
              m != 0 && m &&& groupLanes k.groups == m))))
    && disjointMasks (i.kernels.map (·.groups))

/-- R98 as far as the image alone decides it. -/
def parseImage (b : Bytes) : Except Status ImageRec :=
  if !imageHeaderOk b || !sectionLengthsOk b then .error stIMG_FORMAT
  else
    let i := readImage b
    let sec3 := (imageSection b 3).getD []
    let modes := (List.range (sec3.length / 16)).map (fun n => fieldAt sec3 (16 * n + 10) 1)
    let blocks := settingsBlocks (b.length + 1) ((imageSection b 6).getD [])
    let upper := (List.range 8).all (fun n => fieldAt ((imageSection b 4).getD []) (40 * n + 36) 4 == 0)
    if !layoutOk i || !kernelsOk i modes || !upper then .error stIMG_FORMAT
    else if i.params.any (fun p => 2 < p.1 || (p.1 == 0 && p.2 == 0)) then .error stIMG_FORMAT
    else match blocks with
      | none => .error stIMG_FORMAT
      | some bs =>
        if bs.any (fun e => e.1 != 4 && e.1 != 5) || (bs.map (·.1)).eraseDups.length != bs.length
            || bs.any (fun e => e.1 == 4 && !tokenBlockOk e.2) then .error stIMG_FORMAT
        else if bs.any (fun e => e.1 == 5 && !modelBlockOk e.2 (bitOf i.profiles 5)) then .error stMODEL_FORMAT
        else .ok i

/-- Whether a word of CODE is an engine-class word (major 0x38) that names an engine (R79, R124).
(DEDUCED, log entry 28.) -/
def callsEngine (i : ImageRec) (engine : Nat) : Bool :=
  (List.range (i.code.length / 4)).any (fun n =>
    let w := fieldAt i.code (4 * n) 4
    bitsOf w 26 6 == 0x38 && bitsOf w 8 8 == engine)

/-- Tile cycles of an item under the COST section (R104). -/
def ImageRec.itemCost (i : ImageRec) (media storedLen : Nat) : Nat :=
  let c := i.cost.getD media (0, 0)
  c.1 + c.2 * ceilDiv storedLen 16

end Sys2Proof.Machine
end

