-- ==== Sys2Proof/Machine/Blocks/Tiles.lean ====
section
/-!
DEFINITION. State of the tiles (spec/03_tiles_and_lanes.md): lanes (R74), tickets (R80 to R82), engine calls in flight,
barrier slots (R85), work slots (Table 3.6), the tile store, the Rounds slice (R96); and of the hub's work items (R92).
-/
namespace Sys2Proof.Machine

/-- A work item of the hub: a sample to prepare (Table 3.6), its hidden tag (R187), its place in
the step, its record header, and whether it is a stored record dispatched at its row owner (R196). -/
structure WorkItem where
  id : Nat
  ctx : Nat
  step : Nat
  place : Nat
  index : Nat
  image : Nat
  inHandle : Nat
  storedLen : Nat
  plainLen : Nat
  codec : Nat
  mediaType : Nat
  dataset : Nat
  flags : Nat
  seekOffset : Nat
  params : List Nat
  mixWord : Nat
  needBy : Nat
  copy : Nat
  noSplit : Bool
  header : Bytes
  ownerSite : Bool
  deriving DecidableEq, Repr

/-- An item WORK.DONE returned, with what the kernel wrote: output handle, length, verdict (R93), and when. -/
structure DoneItem where
  item : WorkItem
  tile : Nat
  outHandle : Nat
  outLen : Nat
  verdict : Nat
  at_ : Nat
  deriving DecidableEq, Repr

/-- Why a lane does not issue (R75). -/
inductive Stall where
  | none
  | bank
  | eng
  | ewait (ticket : Nat)
  | bar (slot : Nat) (sync : Bool)
  | workGet (rd : Nat)
  deriving DecidableEq, Repr

inductive LaneRun where
  | idle | running | halted | faulted
  deriving DecidableEq, Repr

/-- A ticket: its engine and, once the call has completed, produced length and status (R81). -/
structure Ticket where
  engine : Nat
  result : Option (Nat × Status)
  deriving DecidableEq, Repr

/-- A lane (R74), with the work slot it took, the instructions it retired since WORK.GET (R94) and, per barrier slot,
the generation at its latest arrival (R86). Unlisted registers read 0. -/
structure Lane where
  run : LaneRun
  g : Map (BitVec 64)
  v : Map (BitVec 128)
  pc : Nat
  tickets : Map Ticket
  stall : Stall
  slot : Option Nat
  retired : Nat
  arrivals : Map Nat
  deriving DecidableEq, Repr

def Lane.off : Lane :=
  { run := .idle, g := [], v := [], pc := 0, tickets := [], stall := .none, slot := none, retired := 0, arrivals := [] }

/-- An engine call in flight: lane, ticket, engine, operation and descriptor as accepted (Table 3.4). -/
structure Call where
  seq : Nat
  lane : Nat
  ticket : Nat
  engine : Nat
  op : Nat
  descAddr : Nat
  desc : Bytes
  deriving DecidableEq, Repr

/-- A lane barrier slot (R85): arrival set as a 288-bit mask, generation modulo 2^16. -/
structure BarSlot where
  arrived : Nat
  gen : Nat
  deriving DecidableEq, Repr

/-- A work slot that holds an item; `taken` is the lane mask that took it by WORK.GET. -/
structure SlotRec where
  item : WorkItem
  taken : Nat
  deriving DecidableEq, Repr

/-- What is held while Rounds has the tile (R96). -/
inductive Held where
  | item (slot : Nat) (w : WorkItem)
  | done (lane ticket : Nat) (len : Nat) (status : Status)
  deriving DecidableEq, Repr

/-- Why a tile drains, and where SCRUB leads (Table 3.9). -/
inductive DrainFor where
  | image | unseat | reset
  deriving DecidableEq, Repr

/-- A tile. TILE_STATE, TILE_FAULT, TILE_CTRL, TILE_ECC_CE and TILE_ROUNDS stand in the register map. -/
structure TileRec where
  lanes : Map Lane
  store : Map Byte
  image : Option Nat
  nextImage : Option Nat
  slots : Map SlotRec
  bars : Map BarSlot
  calls : List Call
  nextSeq : Nat
  drainAt : Nat
  drainFor : DrainFor
  slice : Option Nat
  held : List Held
  vcache : List Nat
  duty : Nat
  latest : Option WorkItem
  uncleared : List DoneItem
  deriving DecidableEq, Repr

def TileRec.off : TileRec :=
  { lanes := [], store := [], image := none, nextImage := none, slots := [], bars := [], calls := [], nextSeq := 0,
    drainAt := 0, drainFor := .unseat, slice := none, held := [], vcache := [], duty := 64, latest := none,
    uncleared := [] }

/-- The load split of a context (R103 to R105): endpoint level, session, settings of the run, items sent and when. -/
structure SplitRec where
  enabled : Bool
  level : Nat
  pendingOn : Option Bool
  sent : List (WorkItem × Nat)
  late : Nat
  badAuth : Nat
  deriving DecidableEq, Repr

def SplitRec.off : SplitRec :=
  { enabled := false, level := 0, pendingOn := none, sent := [], late := 0, badAuth := 0 }

/-- A shadow pair in flight (R390): the tile under test, the second and third tile, the item, the copy number the tile
under test runs (0: the item itself), the dispatch time, and the outputs so far. -/
structure ShadowPair where
  ctx : Nat
  tile : Nat
  second : Nat
  third : Option Nat
  item : WorkItem
  first : Nat
  started : Nat
  results : List DoneItem
  deriving DecidableEq, Repr

/-- The hub's work items: queued in Throw order, the next item number, images by number, load split per context. -/
structure WorkState where
  queued : List WorkItem
  nextItem : Nat
  images : Map ImageRec
  split : Map SplitRec
  returned : List DoneItem
  pairs : List ShadowPair
  lastPair : Map Nat
  deriving DecidableEq, Repr

def WorkState.off : WorkState :=
  { queued := [], nextItem := 0, images := [], split := [], returned := [], pairs := [], lastPair := [] }

end Sys2Proof.Machine
end

