-- ==== Sys2Proof/Machine/Registers.lean ====
section
/-!
DEFINITION. The register map (R8, R10, R425, Tables 19.2 and 0.3): for every register kind its address,
its copies, its reset value and the access type of every field that is not read-only, and one name per field.
Addresses: BAR0 offsets; a context set-up window (BAR4) stands at 2^32 + context × 0x1_0000 (a numbering of the model).
a<REG> is a register address, f<REG>_<FIELD> a field of it, as the field tables of the spec give them.
-/
namespace Sys2Proof.Machine

def aDICE_CAP : Nat := 0x120000
def fDICE_CAP_MAX_K : Fld := ⟨aDICE_CAP, 16, 8⟩
def fDICE_CAP_ROUNDS : Fld := ⟨aDICE_CAP, 8, 8⟩
def fDICE_CAP_UNITS : Fld := ⟨aDICE_CAP, 0, 8⟩
def aDICE_STATUS : Nat := 0x120008
def fDICE_STATUS_FENCED : Fld := ⟨aDICE_STATUS, 8, 4⟩
def fDICE_STATUS_BUSY : Fld := ⟨aDICE_STATUS, 0, 4⟩
def aDICE_CTRL : Nat := 0x120010
def fDICE_CTRL_FENCE_REQ : Fld := ⟨aDICE_CTRL, 0, 4⟩
def aDICE_ERR : Nat := 0x120018
def fDICE_ERR_ALL_FENCED : Fld := ⟨aDICE_ERR, 8, 1⟩
def fDICE_ERR_CHECK_FAIL : Fld := ⟨aDICE_ERR, 0, 4⟩
def aDICE_CHECK_COUNT : Nat := 0x120020
def fDICE_CHECK_COUNT_COUNT : Fld := ⟨aDICE_CHECK_COUNT, 0, 32⟩
def aTILE_CAP (n : Nat) : Nat := 0x800000 + n * 0x10000
def fTILE_CAP_STORE_KIB (n : Nat) : Fld := ⟨(aTILE_CAP n), 40, 16⟩
def fTILE_CAP_VCACHE_KIB (n : Nat) : Fld := ⟨(aTILE_CAP n), 28, 12⟩
def fTILE_CAP_LANES (n : Nat) : Fld := ⟨(aTILE_CAP n), 16, 12⟩
def fTILE_CAP_LANE_GROUPS (n : Nat) : Fld := ⟨(aTILE_CAP n), 12, 4⟩
def fTILE_CAP_ENGINES (n : Nat) : Fld := ⟨(aTILE_CAP n), 0, 6⟩
def aTILE_STATE (n : Nat) : Nat := 0x800008 + n * 0x10000
def fTILE_STATE_SEATED (n : Nat) : Fld := ⟨(aTILE_STATE n), 23, 1⟩
def fTILE_STATE_CONTEXT (n : Nat) : Fld := ⟨(aTILE_STATE n), 16, 6⟩
def fTILE_STATE_IMAGE (n : Nat) : Fld := ⟨(aTILE_STATE n), 7, 1⟩
def fTILE_STATE_STATE (n : Nat) : Fld := ⟨(aTILE_STATE n), 0, 4⟩
def aTILE_FAULT (n : Nat) : Nat := 0x800010 + n * 0x10000
def fTILE_FAULT_STATUS (n : Nat) : Fld := ⟨(aTILE_FAULT n), 16, 16⟩
def fTILE_FAULT_UNCORRECTED (n : Nat) : Fld := ⟨(aTILE_FAULT n), 1, 1⟩
def fTILE_FAULT_VALID (n : Nat) : Fld := ⟨(aTILE_FAULT n), 0, 1⟩
def aTILE_CTRL (n : Nat) : Nat := 0x800018 + n * 0x10000
def fTILE_CTRL_FENCE_REQ (n : Nat) : Fld := ⟨(aTILE_CTRL n), 0, 1⟩
def aTILE_ECC_CE (n : Nat) : Nat := 0x800020 + n * 0x10000
def fTILE_ECC_CE_COUNT (n : Nat) : Fld := ⟨(aTILE_ECC_CE n), 0, 32⟩
def aTILE_ROUNDS (n : Nat) : Nat := 0x800028 + n * 0x10000
def fTILE_ROUNDS_FAILED (n : Nat) : Fld := ⟨(aTILE_ROUNDS n), 16, 1⟩
def fTILE_ROUNDS_LAST_RESULT (n : Nat) : Fld := ⟨(aTILE_ROUNDS n), 0, 16⟩
def aMED_DCMP_CAP : Nat := 0x700000
def fMED_DCMP_CAP_MAX_WINDOW_LOG2 : Fld := ⟨aMED_DCMP_CAP, 24, 8⟩
def fMED_DCMP_CAP_CHUNK_LOG2 : Fld := ⟨aMED_DCMP_CAP, 16, 8⟩
def fMED_DCMP_CAP_CKC : Fld := ⟨aMED_DCMP_CAP, 2, 1⟩
def fMED_DCMP_CAP_ZSTD : Fld := ⟨aMED_DCMP_CAP, 1, 1⟩
def fMED_DCMP_CAP_DEFLATE : Fld := ⟨aMED_DCMP_CAP, 0, 1⟩
def aMED_DCMP_STATUS : Nat := 0x700008
def fMED_DCMP_STATUS_UNCORRECTED : Fld := ⟨aMED_DCMP_STATUS, 2, 1⟩
def fMED_DCMP_STATUS_CKC_FENCED : Fld := ⟨aMED_DCMP_STATUS, 1, 1⟩
def fMED_DCMP_STATUS_FENCED : Fld := ⟨aMED_DCMP_STATUS, 0, 1⟩
def aMED_DCMP_ECC_CE : Nat := 0x700010
def fMED_DCMP_ECC_CE_COUNT : Fld := ⟨aMED_DCMP_ECC_CE, 0, 32⟩
def aVDC_CAP : Nat := 0xF00000
def fVDC_CAP_STREAMS : Fld := ⟨aVDC_CAP, 16, 8⟩
def fVDC_CAP_TEN_BIT : Fld := ⟨aVDC_CAP, 8, 1⟩
def fVDC_CAP_CODECS : Fld := ⟨aVDC_CAP, 0, 3⟩
def aVDC_STATUS : Nat := 0xF00008
def fVDC_STATUS_UNCORRECTED : Fld := ⟨aVDC_STATUS, 1, 1⟩
def fVDC_STATUS_FENCED : Fld := ⟨aVDC_STATUS, 0, 1⟩
def aVDC_ECC_CE : Nat := 0xF00010
def fVDC_ECC_CE_COUNT : Fld := ⟨aVDC_ECC_CE, 0, 32⟩
def aVOC_CAP : Nat := 0xE00000
def fVOC_CAP_MAX_SPECIALS : Fld := ⟨aVOC_CAP, 32, 16⟩
def fVOC_CAP_MAX_TOKEN_BYTES : Fld := ⟨aVOC_CAP, 16, 16⟩
def fVOC_CAP_ENTRIES_LOG2 : Fld := ⟨aVOC_CAP, 8, 8⟩
def fVOC_CAP_SLOTS : Fld := ⟨aVOC_CAP, 0, 8⟩
def aVOC_STATUS : Nat := 0xE00008
def fVOC_STATUS_BANK_FAILED : Fld := ⟨aVOC_STATUS, 0, 16⟩
def aVOC_SLOTn (n : Nat) : Nat := 0xE00040 + n * 0x8
def fVOC_SLOTn_B1_MIB (n : Nat) : Fld := ⟨(aVOC_SLOTn n), 47, 9⟩
def fVOC_SLOTn_B1_BOUND (n : Nat) : Fld := ⟨(aVOC_SLOTn n), 46, 1⟩
def fVOC_SLOTn_B1_STATE (n : Nat) : Fld := ⟨(aVOC_SLOTn n), 44, 2⟩
def fVOC_SLOTn_B0_MIB (n : Nat) : Fld := ⟨(aVOC_SLOTn n), 35, 9⟩
def fVOC_SLOTn_B0_BOUND (n : Nat) : Fld := ⟨(aVOC_SLOTn n), 34, 1⟩
def fVOC_SLOTn_B0_STATE (n : Nat) : Fld := ⟨(aVOC_SLOTn n), 32, 2⟩
def fVOC_SLOTn_ASSIGNED (n : Nat) : Fld := ⟨(aVOC_SLOTn n), 7, 1⟩
def fVOC_SLOTn_CONTEXT (n : Nat) : Fld := ⟨(aVOC_SLOTn n), 0, 6⟩
def aTILE_MXU_CAP (n : Nat) : Nat := 0x800030 + n * 0x10000
def fTILE_MXU_CAP_MODELS (n : Nat) : Fld := ⟨(aTILE_MXU_CAP n), 24, 4⟩
def fTILE_MXU_CAP_ACC_BITS (n : Nat) : Fld := ⟨(aTILE_MXU_CAP n), 16, 8⟩
def fTILE_MXU_CAP_ARRAY_DIM (n : Nat) : Fld := ⟨(aTILE_MXU_CAP n), 8, 8⟩
def fTILE_MXU_CAP_FORMATS (n : Nat) : Fld := ⟨(aTILE_MXU_CAP n), 0, 7⟩
def aTILE_MXU_CHECK (n : Nat) : Nat := 0x800038 + n * 0x10000
def fTILE_MXU_CHECK_FAILED (n : Nat) : Fld := ⟨(aTILE_MXU_CHECK n), 33, 1⟩
def fTILE_MXU_CHECK_RETRIED (n : Nat) : Fld := ⟨(aTILE_MXU_CHECK n), 32, 1⟩
def fTILE_MXU_CHECK_COUNT (n : Nat) : Fld := ⟨(aTILE_MXU_CHECK n), 0, 32⟩
def aPACK_CAP : Nat := 0x170000
def fPACK_CAP_MAX_SEGMENTS : Fld := ⟨aPACK_CAP, 32, 16⟩
def fPACK_CAP_ROW_TOKENS_LOG2 : Fld := ⟨aPACK_CAP, 24, 8⟩
def fPACK_CAP_MAX_LEAD : Fld := ⟨aPACK_CAP, 16, 8⟩
def fPACK_CAP_LAYOUTS : Fld := ⟨aPACK_CAP, 0, 3⟩
def aPACK_STATUS : Nat := 0x170008
def fPACK_STATUS_SHADOW_FAILED : Fld := ⟨aPACK_STATUS, 1, 1⟩
def fPACK_STATUS_UNCORRECTED : Fld := ⟨aPACK_STATUS, 0, 1⟩
def aPACK_SHADOW_COUNT : Nat := 0x170010
def fPACK_SHADOW_COUNT_COUNT : Fld := ⟨aPACK_SHADOW_COUNT, 0, 32⟩
def aPACK_ECC_CE : Nat := 0x170018
def fPACK_ECC_CE_COUNT : Fld := ⟨aPACK_ECC_CE, 0, 32⟩
def aSTEP_CAP : Nat := 0x130000
def fSTEP_CAP_MAX_EXTRAP : Fld := ⟨aSTEP_CAP, 24, 8⟩
def fSTEP_CAP_MAX_LEAD : Fld := ⟨aSTEP_CAP, 16, 8⟩
def fSTEP_CAP_SOURCES : Fld := ⟨aSTEP_CAP, 8, 8⟩
def fSTEP_CAP_GATES : Fld := ⟨aSTEP_CAP, 0, 8⟩
def aSTEP_STATUS : Nat := 0x130008
def fSTEP_STATUS_TIMELINE : Fld := ⟨aSTEP_STATUS, 8, 3⟩
def fSTEP_STATUS_TIME : Fld := ⟨aSTEP_STATUS, 4, 2⟩
def fSTEP_STATUS_EXTRAP : Fld := ⟨aSTEP_STATUS, 0, 4⟩
def aSTEP_LAST : Nat := 0x130010
def fSTEP_LAST_STEP : Fld := ⟨aSTEP_LAST, 0, 64⟩
def aSTEP_ANCHOR : Nat := 0x130018
def fSTEP_ANCHOR_START : Fld := ⟨aSTEP_ANCHOR, 0, 64⟩
def aSTEP_PERIOD : Nat := 0x130020
def fSTEP_PERIOD_PERIOD : Fld := ⟨aSTEP_PERIOD, 0, 64⟩
def aSTEP_UNCERT : Nat := 0x130028
def fSTEP_UNCERT_STEP_NS : Fld := ⟨aSTEP_UNCERT, 32, 32⟩
def fSTEP_UNCERT_TIME_NS : Fld := ⟨aSTEP_UNCERT, 0, 32⟩
def aSTEP_CFG : Nat := 0x130030
def fSTEP_CFG_BEACON_TOL : Fld := ⟨aSTEP_CFG, 48, 16⟩
def fSTEP_CFG_GRACE : Fld := ⟨aSTEP_CFG, 32, 16⟩
def fSTEP_CFG_EXTRAP_MAX : Fld := ⟨aSTEP_CFG, 24, 4⟩
def fSTEP_CFG_LATE_LIMIT : Fld := ⟨aSTEP_CFG, 16, 4⟩
def fSTEP_CFG_ACQ_BEACONS : Fld := ⟨aSTEP_CFG, 8, 4⟩
def fSTEP_CFG_SAMPLE_US : Fld := ⟨aSTEP_CFG, 0, 8⟩
def aSTEP_TIME_CFG : Nat := 0x130038
def fSTEP_TIME_CFG_U_MAX : Fld := ⟨aSTEP_TIME_CFG, 48, 16⟩
def fSTEP_TIME_CFG_U_WARN : Fld := ⟨aSTEP_TIME_CFG, 32, 16⟩
def fSTEP_TIME_CFG_DRIFT_PPB : Fld := ⟨aSTEP_TIME_CFG, 16, 16⟩
def fSTEP_TIME_CFG_PATH_BOUND : Fld := ⟨aSTEP_TIME_CFG, 0, 16⟩
def aSTEP_ERR : Nat := 0x130040
def fSTEP_ERR_TIME_LOST : Fld := ⟨aSTEP_ERR, 4, 1⟩
def fSTEP_ERR_HOLD : Fld := ⟨aSTEP_ERR, 3, 1⟩
def fSTEP_ERR_SOURCE_CONFLICT : Fld := ⟨aSTEP_ERR, 2, 1⟩
def fSTEP_ERR_JUMP : Fld := ⟨aSTEP_ERR, 1, 1⟩
def fSTEP_ERR_BEACON_REFUSED : Fld := ⟨aSTEP_ERR, 0, 1⟩
def aSTEP_MISSED_COUNT : Nat := 0x130048
def fSTEP_MISSED_COUNT_COUNT : Fld := ⟨aSTEP_MISSED_COUNT, 0, 32⟩
def aSTEP_SKIP_COUNT : Nat := 0x130050
def fSTEP_SKIP_COUNT_COUNT : Fld := ⟨aSTEP_SKIP_COUNT, 0, 32⟩
def aSTEP_GATE_PLANn (n : Nat) : Nat := 0x130100 + n * 0x10
def fSTEP_GATE_PLANn_VALID (n : Nat) : Fld := ⟨(aSTEP_GATE_PLANn n), 63, 1⟩
def fSTEP_GATE_PLANn_CLASS (n : Nat) : Fld := ⟨(aSTEP_GATE_PLANn n), 60, 3⟩
def fSTEP_GATE_PLANn_START (n : Nat) : Fld := ⟨(aSTEP_GATE_PLANn n), 32, 28⟩
def fSTEP_GATE_PLANn_LEN (n : Nat) : Fld := ⟨(aSTEP_GATE_PLANn n), 0, 28⟩
def aSTEP_GATE_PORTSn (n : Nat) : Nat := 0x130108 + n * 0x10
def fSTEP_GATE_PORTSn_PORTS (n : Nat) : Fld := ⟨(aSTEP_GATE_PORTSn n), 0, 32⟩
def aNET_CAP : Nat := 0x280000
def fNET_CAP_MACSEC : Fld := ⟨aNET_CAP, 35, 1⟩
def fNET_CAP_MODES : Fld := ⟨aNET_CAP, 32, 3⟩
def fNET_CAP_READS_LOG2 : Fld := ⟨aNET_CAP, 24, 8⟩
def fNET_CAP_WINDOWS_LOG2 : Fld := ⟨aNET_CAP, 16, 8⟩
def fNET_CAP_QPS_LOG2 : Fld := ⟨aNET_CAP, 8, 8⟩
def fNET_CAP_PORTS : Fld := ⟨aNET_CAP, 0, 8⟩
def aNET_TC_PCP : Nat := 0x280008
def fNET_TC_PCP_TC7 : Fld := ⟨aNET_TC_PCP, 28, 4⟩
def fNET_TC_PCP_TC6 : Fld := ⟨aNET_TC_PCP, 24, 4⟩
def fNET_TC_PCP_TC5 : Fld := ⟨aNET_TC_PCP, 20, 4⟩
def fNET_TC_PCP_TC4 : Fld := ⟨aNET_TC_PCP, 16, 4⟩
def fNET_TC_PCP_TC3 : Fld := ⟨aNET_TC_PCP, 12, 4⟩
def fNET_TC_PCP_TC2 : Fld := ⟨aNET_TC_PCP, 8, 4⟩
def fNET_TC_PCP_TC1 : Fld := ⟨aNET_TC_PCP, 4, 4⟩
def fNET_TC_PCP_TC0 : Fld := ⟨aNET_TC_PCP, 0, 4⟩
def aNET_TC_DSCP : Nat := 0x280010
def fNET_TC_DSCP_TC7 : Fld := ⟨aNET_TC_DSCP, 56, 8⟩
def fNET_TC_DSCP_TC6 : Fld := ⟨aNET_TC_DSCP, 48, 8⟩
def fNET_TC_DSCP_TC5 : Fld := ⟨aNET_TC_DSCP, 40, 8⟩
def fNET_TC_DSCP_TC4 : Fld := ⟨aNET_TC_DSCP, 32, 8⟩
def fNET_TC_DSCP_TC3 : Fld := ⟨aNET_TC_DSCP, 24, 8⟩
def fNET_TC_DSCP_TC2 : Fld := ⟨aNET_TC_DSCP, 16, 8⟩
def fNET_TC_DSCP_TC1 : Fld := ⟨aNET_TC_DSCP, 8, 8⟩
def fNET_TC_DSCP_TC0 : Fld := ⟨aNET_TC_DSCP, 0, 8⟩
def aNET_RC_CFG0 : Nat := 0x280018
def fNET_RC_CFG0_BETA_Q8 : Fld := ⟨aNET_RC_CFG0, 48, 8⟩
def fNET_RC_CFG0_AI_MBPS : Fld := ⟨aNET_RC_CFG0, 32, 16⟩
def fNET_RC_CFG0_TARGET_NS : Fld := ⟨aNET_RC_CFG0, 0, 32⟩
def aNET_RC_CFG1 : Nat := 0x280020
def fNET_RC_CFG1_ACK_LOG2 : Fld := ⟨aNET_RC_CFG1, 40, 4⟩
def fNET_RC_CFG1_START_MBPS : Fld := ⟨aNET_RC_CFG1, 20, 20⟩
def fNET_RC_CFG1_MIN_MBPS : Fld := ⟨aNET_RC_CFG1, 0, 20⟩
def aNET_PORT_CFG (n : Nat) : Nat := 0x200000 + n * 0x4000
def fNET_PORT_CFG_VID (n : Nat) : Fld := ⟨(aNET_PORT_CFG n), 16, 12⟩
def fNET_PORT_CFG_REPLAY_LOG2 (n : Nat) : Fld := ⟨(aNET_PORT_CFG n), 8, 8⟩
def fNET_PORT_CFG_PFC_EN (n : Nat) : Fld := ⟨(aNET_PORT_CFG n), 5, 1⟩
def fNET_PORT_CFG_MACSEC_EN (n : Nat) : Fld := ⟨(aNET_PORT_CFG n), 4, 1⟩
def fNET_PORT_CFG_MODE (n : Nat) : Fld := ⟨(aNET_PORT_CFG n), 0, 2⟩
def aNET_PORT_STATUS (n : Nat) : Nat := 0x200008 + n * 0x4000
def fNET_PORT_STATUS_MODE_ACTIVE (n : Nat) : Fld := ⟨(aNET_PORT_STATUS n), 16, 2⟩
def fNET_PORT_STATUS_MACSEC_STATE (n : Nat) : Fld := ⟨(aNET_PORT_STATUS n), 8, 8⟩
def fNET_PORT_STATUS_LINK (n : Nat) : Fld := ⟨(aNET_PORT_STATUS n), 0, 4⟩
def aNET_PORT_ERR (n : Nat) : Nat := 0x200010 + n * 0x4000
def fNET_PORT_ERR_FEC_UNCORRECTED (n : Nat) : Fld := ⟨(aNET_PORT_ERR n), 2, 1⟩
def fNET_PORT_ERR_MACSEC_FAIL (n : Nat) : Fld := ⟨(aNET_PORT_ERR n), 1, 1⟩
def fNET_PORT_ERR_LINK_DOWN (n : Nat) : Fld := ⟨(aNET_PORT_ERR n), 0, 1⟩
def aNET_PORT_DROP_COUNT (n : Nat) : Nat := 0x200018 + n * 0x4000
def fNET_PORT_DROP_COUNT_MACSEC (n : Nat) : Fld := ⟨(aNET_PORT_DROP_COUNT n), 48, 16⟩
def fNET_PORT_DROP_COUNT_STALE (n : Nat) : Fld := ⟨(aNET_PORT_DROP_COUNT n), 32, 16⟩
def fNET_PORT_DROP_COUNT_ICRC (n : Nat) : Fld := ⟨(aNET_PORT_DROP_COUNT n), 16, 16⟩
def fNET_PORT_DROP_COUNT_OTHER (n : Nat) : Fld := ⟨(aNET_PORT_DROP_COUNT n), 0, 16⟩
def aNET_PORT_FEC (n : Nat) : Nat := 0x200020 + n * 0x4000
def fNET_PORT_FEC_UNCORRECTED (n : Nat) : Fld := ⟨(aNET_PORT_FEC n), 32, 32⟩
def fNET_PORT_FEC_CORRECTED (n : Nat) : Fld := ⟨(aNET_PORT_FEC n), 0, 32⟩
def aLDG_CAP : Nat := 0x160000
def fLDG_CAP_QUEUES : Fld := ⟨aLDG_CAP, 32, 16⟩
def fLDG_CAP_SLOTS_LOG2 : Fld := ⟨aLDG_CAP, 24, 8⟩
def fLDG_CAP_RECORD_BYTES : Fld := ⟨aLDG_CAP, 16, 8⟩
def fLDG_CAP_WB_GIB : Fld := ⟨aLDG_CAP, 8, 8⟩
def fLDG_CAP_GENERATIONS : Fld := ⟨aLDG_CAP, 0, 8⟩
def aLDG_STATUS : Nat := 0x160008
def fLDG_STATUS_WB_EMPTY : Fld := ⟨aLDG_STATUS, 8, 1⟩
def fLDG_STATUS_MPS : Fld := ⟨aLDG_STATUS, 0, 2⟩
def aLDG_PS_CFG : Nat := 0x160010
def fLDG_PS_CFG_IDLE2_MS : Fld := ⟨aLDG_PS_CFG, 32, 16⟩
def fLDG_PS_CFG_IDLE1_US : Fld := ⟨aLDG_PS_CFG, 0, 32⟩
def aLDG_PS_LAT : Nat := 0x160018
def fLDG_PS_LAT_EXIT2_US : Fld := ⟨aLDG_PS_LAT, 32, 32⟩
def fLDG_PS_LAT_EXIT1_US : Fld := ⟨aLDG_PS_LAT, 0, 32⟩
def aLDG_ERR : Nat := 0x160020
def fLDG_ERR_DEFERRED : Fld := ⟨aLDG_ERR, 1, 1⟩
def fLDG_ERR_UNCORRECTED : Fld := ⟨aLDG_ERR, 0, 1⟩
def aLDG_IGNORED_COUNT : Nat := 0x160028
def fLDG_IGNORED_COUNT_COUNT : Fld := ⟨aLDG_IGNORED_COUNT, 0, 32⟩
def aLDG_WB_USED : Nat := 0x160030
def fLDG_WB_USED_MIB : Fld := ⟨aLDG_WB_USED, 0, 13⟩
def aMED_CAP : Nat := 0x400000
def fMED_CAP_CARRIERS : Fld := ⟨aMED_CAP, 40, 8⟩
def fMED_CAP_STRIPE_WIDTH : Fld := ⟨aMED_CAP, 32, 8⟩
def fMED_CAP_DIES_PER_CHANNEL : Fld := ⟨aMED_CAP, 24, 8⟩
def fMED_CAP_CHANNELS : Fld := ⟨aMED_CAP, 0, 8⟩
def aMED_CAPACITY : Nat := 0x400008
def fMED_CAPACITY_USER_GB : Fld := ⟨aMED_CAPACITY, 32, 32⟩
def fMED_CAPACITY_SLC_GB : Fld := ⟨aMED_CAPACITY, 0, 32⟩
def aMED_STATUS : Nat := 0x400010
def fMED_STATUS_RETIRED_DIES : Fld := ⟨aMED_STATUS, 24, 8⟩
def fMED_STATUS_REBUILDS : Fld := ⟨aMED_STATUS, 16, 8⟩
def fMED_STATUS_WRITE_THROUGH : Fld := ⟨aMED_STATUS, 8, 1⟩
def fMED_STATUS_STATE : Fld := ⟨aMED_STATUS, 0, 3⟩
def aMED_HEALTH : Nat := 0x400018
def fMED_HEALTH_SPARE_PCT : Fld := ⟨aMED_HEALTH, 8, 8⟩
def fMED_HEALTH_WEAR_PCT : Fld := ⟨aMED_HEALTH, 0, 8⟩
def aMED_CFG : Nat := 0x400020
def fMED_CFG_READ_LIMIT_K : Fld := ⟨aMED_CFG, 48, 16⟩
def fMED_CFG_RETENTION_DAYS : Fld := ⟨aMED_CFG, 40, 8⟩
def fMED_CFG_REBUILD_PCT : Fld := ⟨aMED_CFG, 32, 8⟩
def fMED_CFG_WEAR_WARN_PCT : Fld := ⟨aMED_CFG, 24, 8⟩
def fMED_CFG_SPARE_WARN_PCT : Fld := ⟨aMED_CFG, 16, 8⟩
def aMED_ERR : Nat := 0x400028
def fMED_ERR_HEALTH_CORRECTION : Fld := ⟨aMED_ERR, 10, 1⟩
def fMED_ERR_HEALTH_SLC_FLOOR : Fld := ⟨aMED_ERR, 9, 1⟩
def fMED_ERR_HEALTH_SPARE : Fld := ⟨aMED_ERR, 8, 1⟩
def fMED_ERR_HEALTH_WEAR : Fld := ⟨aMED_ERR, 7, 1⟩
def fMED_ERR_RESUME_REPAIRED : Fld := ⟨aMED_ERR, 6, 1⟩
def fMED_ERR_FLUSH_INCOMPLETE : Fld := ⟨aMED_ERR, 5, 1⟩
def fMED_ERR_METADATA_LOST : Fld := ⟨aMED_ERR, 4, 1⟩
def fMED_ERR_POD_UNRECOVERABLE : Fld := ⟨aMED_ERR, 3, 1⟩
def fMED_ERR_POD_RECOVERED : Fld := ⟨aMED_ERR, 2, 1⟩
def fMED_ERR_STRIPE_LOST : Fld := ⟨aMED_ERR, 1, 1⟩
def fMED_ERR_DIE_LOST : Fld := ⟨aMED_ERR, 0, 1⟩
def aMED_RETRY_COUNT : Nat := 0x400030
def fMED_RETRY_COUNT_RECONSTRUCTED : Fld := ⟨aMED_RETRY_COUNT, 32, 32⟩
def fMED_RETRY_COUNT_RETRIED : Fld := ⟨aMED_RETRY_COUNT, 0, 32⟩
def aINK_CAP : Nat := 0x100000
def fINK_CAP_MAX_CHAIN : Fld := ⟨aINK_CAP, 16, 16⟩
def fINK_CAP_L_LOG2 : Fld := ⟨aINK_CAP, 10, 5⟩
def fINK_CAP_M_LOG2 : Fld := ⟨aINK_CAP, 5, 5⟩
def fINK_CAP_S_LOG2 : Fld := ⟨aINK_CAP, 0, 5⟩
def aINK_POOL : Nat := 0x100008
def fINK_POOL_S : Fld := ⟨aINK_POOL, 35, 21⟩
def fINK_POOL_M : Fld := ⟨aINK_POOL, 17, 18⟩
def fINK_POOL_L : Fld := ⟨aINK_POOL, 0, 17⟩
def aINK_FREE : Nat := 0x100010
def fINK_FREE_S : Fld := ⟨aINK_FREE, 35, 21⟩
def fINK_FREE_M : Fld := ⟨aINK_FREE, 17, 18⟩
def fINK_FREE_L : Fld := ⟨aINK_FREE, 0, 17⟩
def aINK_CTRL_BOOK : Nat := 0x100018
def fINK_CTRL_BOOK_EGRESS : Fld := ⟨aINK_CTRL_BOOK, 8, 8⟩
def fINK_CTRL_BOOK_INGRESS : Fld := ⟨aINK_CTRL_BOOK, 0, 8⟩
def aINK_ERR : Nat := 0x100020
def fINK_ERR_UNCORRECTED : Fld := ⟨aINK_ERR, 2, 1⟩
def fINK_ERR_HUB_NOT_OWNER : Fld := ⟨aINK_ERR, 1, 1⟩
def fINK_ERR_HUB_ALREADY_FREE : Fld := ⟨aINK_ERR, 0, 1⟩
def aINK_ECC_CE : Nat := 0x100028
def fINK_ECC_CE_COUNT : Fld := ⟨aINK_ECC_CE, 0, 32⟩
def aINK_BOOKn (n : Nat) : Nat := 0x101000 + n * 0x10
def fINK_BOOKn_S (n : Nat) : Fld := ⟨(aINK_BOOKn n), 35, 21⟩
def fINK_BOOKn_M (n : Nat) : Fld := ⟨(aINK_BOOKn n), 17, 18⟩
def fINK_BOOKn_L (n : Nat) : Fld := ⟨(aINK_BOOKn n), 0, 17⟩
def aINK_CAPn (n : Nat) : Nat := 0x101008 + n * 0x10
def fINK_CAPn_S (n : Nat) : Fld := ⟨(aINK_CAPn n), 35, 21⟩
def fINK_CAPn_M (n : Nat) : Fld := ⟨(aINK_CAPn n), 17, 18⟩
def fINK_CAPn_L (n : Nat) : Fld := ⟨(aINK_CAPn n), 0, 17⟩
def aPEG_CAP : Nat := 0x110000
def fPEG_CAP_BARRIERS_LOG2 : Fld := ⟨aPEG_CAP, 32, 8⟩
def fPEG_CAP_VBAR_LOG2 : Fld := ⟨aPEG_CAP, 24, 8⟩
def fPEG_CAP_PEGS_LOG2 : Fld := ⟨aPEG_CAP, 16, 8⟩
def fPEG_CAP_VPEGS_LOG2 : Fld := ⟨aPEG_CAP, 8, 8⟩
def fPEG_CAP_WAITS_LOG2 : Fld := ⟨aPEG_CAP, 0, 8⟩
def aPEG_ERR : Nat := 0x110008
def fPEG_ERR_UNCORRECTED : Fld := ⟨aPEG_ERR, 0, 1⟩
def aPEG_ECC_CE : Nat := 0x110010
def fPEG_ECC_CE_COUNT : Fld := ⟨aPEG_ECC_CE, 0, 32⟩
def aLOG_CAP : Nat := 0x140000
def fLOG_CAP_MAX_BODY : Fld := ⟨aLOG_CAP, 32, 16⟩
def fLOG_CAP_RUN_MIB : Fld := ⟨aLOG_CAP, 16, 16⟩
def fLOG_CAP_HEADER_BYTES : Fld := ⟨aLOG_CAP, 8, 8⟩
def fLOG_CAP_KINDS : Fld := ⟨aLOG_CAP, 0, 8⟩
def aLOG_STATUS : Nat := 0x140008
def fLOG_STATUS_HBM_ONLY : Fld := ⟨aLOG_STATUS, 1, 1⟩
def fLOG_STATUS_READY : Fld := ⟨aLOG_STATUS, 0, 1⟩
def aLOG_ERR : Nat := 0x140010
def fLOG_ERR_UNCORRECTED : Fld := ⟨aLOG_ERR, 1, 1⟩
def fLOG_ERR_COPY_LOST : Fld := ⟨aLOG_ERR, 0, 1⟩
def aCTX_INFO (c : Nat) : Nat := 0x100000000 + c * 0x10000
def fCTX_INFO_VECTORS (c : Nat) : Fld := ⟨(aCTX_INFO c), 16, 8⟩
def fCTX_INFO_STATE (c : Nat) : Fld := ⟨(aCTX_INFO c), 8, 3⟩
def fCTX_INFO_CONTEXT (c : Nat) : Fld := ⟨(aCTX_INFO c), 0, 6⟩
def aCTX_STATUS (c : Nat) : Nat := 0x100000008 + c * 0x10000
def fCTX_STATUS_STOP_STATUS (c : Nat) : Fld := ⟨(aCTX_STATUS c), 16, 16⟩
def fCTX_STATUS_FENCED (c : Nat) : Fld := ⟨(aCTX_STATUS c), 2, 1⟩
def fCTX_STATUS_RESET_DONE (c : Nat) : Fld := ⟨(aCTX_STATUS c), 1, 1⟩
def fCTX_STATUS_STOPPED (c : Nat) : Fld := ⟨(aCTX_STATUS c), 0, 1⟩
def aCTX_CTRL (c : Nat) : Nat := 0x100000010 + c * 0x10000
def fCTX_CTRL_RESET_REQ (c : Nat) : Fld := ⟨(aCTX_CTRL c), 0, 1⟩
def aCTX_SHARE0 (c : Nat) : Nat := 0x100000018 + c * 0x10000
def fCTX_SHARE0_RECORD_0_7 (c : Nat) : Fld := ⟨(aCTX_SHARE0 c), 0, 64⟩
def aCTX_SHARE1 (c : Nat) : Nat := 0x100000020 + c * 0x10000
def fCTX_SHARE1_RECORD_8_15 (c : Nat) : Fld := ⟨(aCTX_SHARE1 c), 0, 64⟩
def aCTX_SHARE2 (c : Nat) : Nat := 0x100000028 + c * 0x10000
def fCTX_SHARE2_RECORD_16_23 (c : Nat) : Fld := ⟨(aCTX_SHARE2 c), 0, 64⟩
def aCTX_SHARE3 (c : Nat) : Nat := 0x100000030 + c * 0x10000
def fCTX_SHARE3_MEDIA_GB (c : Nat) : Fld := ⟨(aCTX_SHARE3 c), 0, 32⟩
def aSEC_CAP : Nat := 0x80000
def fSEC_CAP_CONTEXTS : Fld := ⟨aSEC_CAP, 16, 8⟩
def fSEC_CAP_SEAL_FUSES : Fld := ⟨aSEC_CAP, 8, 8⟩
def fSEC_CAP_ALGS : Fld := ⟨aSEC_CAP, 0, 4⟩
def aSEC_STATUS : Nat := 0x80008
def fSEC_STATUS_SEAL_EPOCH : Fld := ⟨aSEC_STATUS, 32, 8⟩
def fSEC_STATUS_DEBUG : Fld := ⟨aSEC_STATUS, 4, 2⟩
def fSEC_STATUS_DECOMMISSIONED : Fld := ⟨aSEC_STATUS, 3, 1⟩
def fSEC_STATUS_SELFTEST_OK : Fld := ⟨aSEC_STATUS, 2, 1⟩
def fSEC_STATUS_LINK_KEY : Fld := ⟨aSEC_STATUS, 1, 1⟩
def fSEC_STATUS_READY : Fld := ⟨aSEC_STATUS, 0, 1⟩
def aSEC_KEYS : Nat := 0x80010
def fSEC_KEYS_HELD : Fld := ⟨aSEC_KEYS, 0, 64⟩
def aSEC_ERR : Nat := 0x80018
def fSEC_ERR_KEYSTORE_COPY_LOST : Fld := ⟨aSEC_ERR, 3, 1⟩
def fSEC_ERR_SELFTEST_FAIL : Fld := ⟨aSEC_ERR, 2, 1⟩
def fSEC_ERR_SEAL_FAIL : Fld := ⟨aSEC_ERR, 1, 1⟩
def fSEC_ERR_BLOB_AUTH : Fld := ⟨aSEC_ERR, 0, 1⟩
def aSEC_AUTH_FAIL_COUNT : Nat := 0x80020
def fSEC_AUTH_FAIL_COUNT_SEAL : Fld := ⟨aSEC_AUTH_FAIL_COUNT, 32, 32⟩
def fSEC_AUTH_FAIL_COUNT_BLOB : Fld := ⟨aSEC_AUTH_FAIL_COUNT, 0, 32⟩
def aSEC_DEBUG_CTRL : Nat := 0x80028
def fSEC_DEBUG_CTRL_OWNER_DEBUG : Fld := ⟨aSEC_DEBUG_CTRL, 0, 1⟩
def aFLT_CAP : Nat := 0x20000
def fFLT_CAP_SOURCES : Fld := ⟨aFLT_CAP, 16, 16⟩
def fFLT_CAP_CLASSES : Fld := ⟨aFLT_CAP, 8, 8⟩
def fFLT_CAP_RECORD_BYTES : Fld := ⟨aFLT_CAP, 0, 8⟩
def aFLT_STATUS : Nat := 0x20008
def fFLT_STATUS_READY : Fld := ⟨aFLT_STATUS, 7, 1⟩
def fFLT_STATUS_FAULT_OUT : Fld := ⟨aFLT_STATUS, 6, 1⟩
def fFLT_STATUS_LOST : Fld := ⟨aFLT_STATUS, 5, 1⟩
def fFLT_STATUS_FORCE_REFUSED : Fld := ⟨aFLT_STATUS, 4, 1⟩
def fFLT_STATUS_SAFE_DEGRADED : Fld := ⟨aFLT_STATUS, 3, 1⟩
def fFLT_STATUS_GRAVE : Fld := ⟨aFLT_STATUS, 2, 1⟩
def fFLT_STATUS_F4_UNACK : Fld := ⟨aFLT_STATUS, 1, 1⟩
def fFLT_STATUS_F3_UNACK : Fld := ⟨aFLT_STATUS, 0, 1⟩
def aFLT_FIRST : Nat := 0x20010
def fFLT_FIRST_STATUS : Fld := ⟨aFLT_FIRST, 48, 16⟩
def fFLT_FIRST_SOURCE : Fld := ⟨aFLT_FIRST, 32, 16⟩
def fFLT_FIRST_CLASS : Fld := ⟨aFLT_FIRST, 28, 4⟩
def fFLT_FIRST_CONTEXT : Fld := ⟨aFLT_FIRST, 8, 8⟩
def fFLT_FIRST_VALID : Fld := ⟨aFLT_FIRST, 0, 1⟩
def aFLT_FIRST_STAMP : Nat := 0x20018
def fFLT_FIRST_STAMP_STAMP : Fld := ⟨aFLT_FIRST_STAMP, 0, 64⟩
def aFLT_COUNT_F01 : Nat := 0x20020
def fFLT_COUNT_F01_F1 : Fld := ⟨aFLT_COUNT_F01, 32, 32⟩
def fFLT_COUNT_F01_F0 : Fld := ⟨aFLT_COUNT_F01, 0, 32⟩
def aFLT_COUNT_F2345 : Nat := 0x20028
def fFLT_COUNT_F2345_F5 : Fld := ⟨aFLT_COUNT_F2345, 48, 16⟩
def fFLT_COUNT_F2345_F4 : Fld := ⟨aFLT_COUNT_F2345, 32, 16⟩
def fFLT_COUNT_F2345_F3 : Fld := ⟨aFLT_COUNT_F2345, 16, 16⟩
def fFLT_COUNT_F2345_F2 : Fld := ⟨aFLT_COUNT_F2345, 0, 16⟩
def aFLT_FORCE : Nat := 0x20030
def fFLT_FORCE_SOURCE : Fld := ⟨aFLT_FORCE, 16, 16⟩
def fFLT_FORCE_CLASS : Fld := ⟨aFLT_FORCE, 8, 3⟩
def fFLT_FORCE_CONTEXT : Fld := ⟨aFLT_FORCE, 0, 8⟩
def aFLT_CTRL : Nat := 0x20038
def fFLT_CTRL_OUT_F3 : Fld := ⟨aFLT_CTRL, 1, 1⟩
def fFLT_CTRL_ARM_F5 : Fld := ⟨aFLT_CTRL, 0, 1⟩
def aFLT_SAFE_CFG : Nat := 0x20040
def fFLT_SAFE_CFG_FILTER_US : Fld := ⟨aFLT_SAFE_CFG, 16, 16⟩
def fFLT_SAFE_CFG_DISCREPANCY_MS : Fld := ⟨aFLT_SAFE_CFG, 0, 8⟩
def aFLT_SAFE_STATUS : Nat := 0x20048
def fFLT_SAFE_STATUS_LAST_SKEW_US : Fld := ⟨aFLT_SAFE_STATUS, 32, 32⟩
def fFLT_SAFE_STATUS_DISAGREE_COUNT : Fld := ⟨aFLT_SAFE_STATUS, 16, 16⟩
def fFLT_SAFE_STATUS_B_QUALIFIED : Fld := ⟨aFLT_SAFE_STATUS, 3, 1⟩
def fFLT_SAFE_STATUS_A_QUALIFIED : Fld := ⟨aFLT_SAFE_STATUS, 2, 1⟩
def fFLT_SAFE_STATUS_B_RAW : Fld := ⟨aFLT_SAFE_STATUS, 1, 1⟩
def fFLT_SAFE_STATUS_A_RAW : Fld := ⟨aFLT_SAFE_STATUS, 0, 1⟩
def aFLT_SHADOW_CFG : Nat := 0x20050
def fFLT_SHADOW_CFG_SHADOW_US : Fld := ⟨aFLT_SHADOW_CFG, 0, 16⟩
def aFLT_SHADOW_COUNT : Nat := 0x20058
def fFLT_SHADOW_COUNT_MISMATCH : Fld := ⟨aFLT_SHADOW_COUNT, 0, 32⟩
def aFLT_ROUNDS : Nat := 0x20060
def fFLT_ROUNDS_FAILED : Fld := ⟨aFLT_ROUNDS, 16, 1⟩
def fFLT_ROUNDS_OLDEST_MIN : Fld := ⟨aFLT_ROUNDS, 0, 16⟩
def aNET_LAN_STATUS : Nat := 0x290000
def fNET_LAN_STATUS_VIEW : Fld := ⟨aNET_LAN_STATUS, 32, 32⟩
def fNET_LAN_STATUS_POSITION : Fld := ⟨aNET_LAN_STATUS, 16, 16⟩
def fNET_LAN_STATUS_SPARE : Fld := ⟨aNET_LAN_STATUS, 3, 1⟩
def fNET_LAN_STATUS_COORDINATOR : Fld := ⟨aNET_LAN_STATUS, 2, 1⟩
def fNET_LAN_STATUS_ROLE : Fld := ⟨aNET_LAN_STATUS, 0, 2⟩
def aNET_LAN_CFG : Nat := 0x290008
def fNET_LAN_CFG_HANG_MS : Fld := ⟨aNET_LAN_CFG, 0, 16⟩
def aNET_LAN_ERR : Nat := 0x290010
def fNET_LAN_ERR_JOURNAL_CHECK : Fld := ⟨aNET_LAN_ERR, 3, 1⟩
def fNET_LAN_ERR_EXCLUDED : Fld := ⟨aNET_LAN_ERR, 2, 1⟩
def fNET_LAN_ERR_NO_QUORUM : Fld := ⟨aNET_LAN_ERR, 1, 1⟩
def fNET_LAN_ERR_PEER_LOST : Fld := ⟨aNET_LAN_ERR, 0, 1⟩
def aNET_LAN_LOST_COUNT : Nat := 0x290018
def fNET_LAN_LOST_COUNT_ABORTS : Fld := ⟨aNET_LAN_LOST_COUNT, 32, 32⟩
def fNET_LAN_LOST_COUNT_LOST : Fld := ⟨aNET_LAN_LOST_COUNT, 0, 32⟩
def aGLB_ID : Nat := 0x0
def fGLB_ID_STEPPING : Fld := ⟨aGLB_ID, 48, 8⟩
def fGLB_ID_VARIANT : Fld := ⟨aGLB_ID, 32, 8⟩
def fGLB_ID_PF_DEVICE : Fld := ⟨aGLB_ID, 16, 16⟩
def fGLB_ID_VF_DEVICE : Fld := ⟨aGLB_ID, 0, 16⟩
def aGLB_SERIAL : Nat := 0x8
def fGLB_SERIAL_SERIAL : Fld := ⟨aGLB_SERIAL, 0, 64⟩
def aGLB_CAP : Nat := 0x10
def fGLB_CAP_PORTS : Fld := ⟨aGLB_CAP, 40, 8⟩
def fGLB_CAP_TILES : Fld := ⟨aGLB_CAP, 32, 8⟩
def fGLB_CAP_CARRIERS : Fld := ⟨aGLB_CAP, 16, 8⟩
def fGLB_CAP_VDC : Fld := ⟨aGLB_CAP, 9, 1⟩
def fGLB_CAP_MEDIA : Fld := ⟨aGLB_CAP, 8, 1⟩
def fGLB_CAP_QUARTERS : Fld := ⟨aGLB_CAP, 0, 4⟩
def aGLB_CAP_MASK0 : Nat := 0x18
def fGLB_CAP_MASK0_TILES_LO : Fld := ⟨aGLB_CAP_MASK0, 0, 64⟩
def aGLB_CAP_MASK1 : Nat := 0x20
def fGLB_CAP_MASK1_PORTS : Fld := ⟨aGLB_CAP_MASK1, 32, 32⟩
def fGLB_CAP_MASK1_TILES_HI : Fld := ⟨aGLB_CAP_MASK1, 0, 32⟩
def aGLB_CAP_MEDIA0 : Nat := 0x28
def fGLB_CAP_MEDIA0_CHANNELS_LO : Fld := ⟨aGLB_CAP_MEDIA0, 0, 64⟩
def aGLB_CAP_MEDIA1 : Nat := 0x30
def fGLB_CAP_MEDIA1_CHANNELS_HI : Fld := ⟨aGLB_CAP_MEDIA1, 0, 32⟩
def aGLB_FW : Nat := 0x38
def fGLB_FW_CONTENT_LEVEL : Fld := ⟨aGLB_FW, 48, 16⟩
def fGLB_FW_SECURITY_VERSION : Fld := ⟨aGLB_FW, 32, 16⟩
def fGLB_FW_COMPAT_LEVEL : Fld := ⟨aGLB_FW, 16, 16⟩
def aGLB_DTIME : Nat := 0x40
def fGLB_DTIME_DTIME : Fld := ⟨aGLB_DTIME, 0, 64⟩
def aGLB_STATUS : Nat := 0x48
def fGLB_STATUS_BAD_ACCESS : Fld := ⟨aGLB_STATUS, 8, 1⟩
def fGLB_STATUS_READY : Fld := ⟨aGLB_STATUS, 0, 1⟩
def aRING_ADDR (c r : Nat) : Nat := 0x100001000 + c * 0x10000 + r * 0x20
def fRING_ADDR_BASE (c r : Nat) : Fld := ⟨(aRING_ADDR c r), 12, 52⟩
def aRING_CFG (c r : Nat) : Nat := 0x100001008 + c * 0x10000 + r * 0x20
def fRING_CFG_ENABLE (c r : Nat) : Fld := ⟨(aRING_CFG c r), 63, 1⟩
def fRING_CFG_KIND (c r : Nat) : Fld := ⟨(aRING_CFG c r), 56, 2⟩
def fRING_CFG_SIZE_LOG2 (c r : Nat) : Fld := ⟨(aRING_CFG c r), 48, 5⟩
def fRING_CFG_CQ (c r : Nat) : Fld := ⟨(aRING_CFG c r), 32, 8⟩
def fRING_CFG_VECTOR (c r : Nat) : Fld := ⟨(aRING_CFG c r), 24, 5⟩
def fRING_CFG_EVENTS (c r : Nat) : Fld := ⟨(aRING_CFG c r), 16, 2⟩
def aRING_STATUS (c r : Nat) : Nat := 0x100001010 + c * 0x10000 + r * 0x20
def fRING_STATUS_ERR_STATUS (c r : Nat) : Fld := ⟨(aRING_STATUS c r), 48, 16⟩
def fRING_STATUS_ERROR (c r : Nat) : Fld := ⟨(aRING_STATUS c r), 32, 1⟩
def fRING_STATUS_INDEX (c r : Nat) : Fld := ⟨(aRING_STATUS c r), 0, 16⟩
def aCFG_STATUS : Nat := 0x10000
def fCFG_STATUS_LAST_NUM : Fld := ⟨aCFG_STATUS, 32, 32⟩
def fCFG_STATUS_PENDING : Fld := ⟨aCFG_STATUS, 8, 5⟩
def fCFG_STATUS_MARKED : Fld := ⟨aCFG_STATUS, 1, 1⟩
def fCFG_STATUS_OPEN : Fld := ⟨aCFG_STATUS, 0, 1⟩
def aCFG_EFFECTIVE : Nat := 0x10008
def fCFG_EFFECTIVE_STEP : Fld := ⟨aCFG_EFFECTIVE, 0, 64⟩
def aPWR_CAP : Nat := 0x30000
def fPWR_CAP_PEAK_W : Fld := ⟨aPWR_CAP, 32, 16⟩
def fPWR_CAP_ENVELOPE_W : Fld := ⟨aPWR_CAP, 16, 16⟩
def fPWR_CAP_WINDOW_MS : Fld := ⟨aPWR_CAP, 8, 8⟩
def fPWR_CAP_PEAK_MS : Fld := ⟨aPWR_CAP, 0, 8⟩
def aPWR_STATUS : Nat := 0x30008
def fPWR_STATUS_INPUT_W : Fld := ⟨aPWR_STATUS, 48, 16⟩
def fPWR_STATUS_AVG_W : Fld := ⟨aPWR_STATUS, 32, 16⟩
def fPWR_STATUS_BUDGET_W : Fld := ⟨aPWR_STATUS, 16, 16⟩
def fPWR_STATUS_DUTY : Fld := ⟨aPWR_STATUS, 8, 8⟩
def fPWR_STATUS_HOLDUP_OK : Fld := ⟨aPWR_STATUS, 2, 1⟩
def fPWR_STATUS_THROTTLE_HARD : Fld := ⟨aPWR_STATUS, 1, 1⟩
def fPWR_STATUS_THROTTLE_SOFT : Fld := ⟨aPWR_STATUS, 0, 1⟩
def aPWR_THERMAL : Nat := 0x30010
def fPWR_THERMAL_TJ_MAX_C : Fld := ⟨aPWR_THERMAL, 56, 8⟩
def fPWR_THERMAL_INLET_C : Fld := ⟨aPWR_THERMAL, 48, 8⟩
def fPWR_THERMAL_FLOW_CLPM : Fld := ⟨aPWR_THERMAL, 32, 16⟩
def aPWR_CFG : Nat := 0x30018
def fPWR_CFG_TACH_PPL : Fld := ⟨aPWR_CFG, 48, 16⟩
def fPWR_CFG_BUDGET_W : Fld := ⟨aPWR_CFG, 32, 16⟩
def aPWR_ERR : Nat := 0x30020
def fPWR_ERR_THERMAL_HARD : Fld := ⟨aPWR_ERR, 4, 1⟩
def fPWR_ERR_THERMAL_SOFT : Fld := ⟨aPWR_ERR, 3, 1⟩
def fPWR_ERR_COOLANT_LOW : Fld := ⟨aPWR_ERR, 2, 1⟩
def fPWR_ERR_HOLDUP_LOST : Fld := ⟨aPWR_ERR, 1, 1⟩
def fPWR_ERR_CLAMP : Fld := ⟨aPWR_ERR, 0, 1⟩
def aPWR_THROTTLE_COUNT : Nat := 0x30028
def fPWR_THROTTLE_COUNT_CLAMPS : Fld := ⟨aPWR_THROTTLE_COUNT, 32, 32⟩
def fPWR_THROTTLE_COUNT_THROTTLE_MS : Fld := ⟨aPWR_THROTTLE_COUNT, 0, 32⟩
def aCLK_STATUS : Nat := 0x40000
def fCLK_STATUS_QPS : Fld := ⟨aCLK_STATUS, 32, 8⟩
def fCLK_STATUS_PLL_LOCK : Fld := ⟨aCLK_STATUS, 24, 4⟩
def fCLK_STATUS_PROFILE : Fld := ⟨aCLK_STATUS, 16, 2⟩
def fCLK_STATUS_HUB_LOCK : Fld := ⟨aCLK_STATUS, 0, 1⟩
def aCLK_QPS_CFG : Nat := 0x40008
def fCLK_QPS_CFG_IDLE1_US : Fld := ⟨aCLK_QPS_CFG, 16, 16⟩
def fCLK_QPS_CFG_IDLE2_MS : Fld := ⟨aCLK_QPS_CFG, 8, 8⟩
def fCLK_QPS_CFG_IDLE3_S : Fld := ⟨aCLK_QPS_CFG, 0, 8⟩
def aCLK_PPS_CFG : Nat := 0x40010
def fCLK_PPS_CFG_OUT_WIDTH_MS : Fld := ⟨aCLK_PPS_CFG, 16, 16⟩
def fCLK_PPS_CFG_PPS_IN_EN : Fld := ⟨aCLK_PPS_CFG, 1, 1⟩
def fCLK_PPS_CFG_PPS_OUT_EN : Fld := ⟨aCLK_PPS_CFG, 0, 1⟩
def aCLK_PPS_IN_STAMP : Nat := 0x40018
def fCLK_PPS_IN_STAMP_STAMP : Fld := ⟨aCLK_PPS_IN_STAMP, 0, 64⟩
def aCLK_ERR : Nat := 0x40020
def fCLK_ERR_CDC_UNCORRECTED : Fld := ⟨aCLK_ERR, 3, 1⟩
def fCLK_ERR_CDC_SYNC : Fld := ⟨aCLK_ERR, 2, 1⟩
def fCLK_ERR_PLL_UNLOCK : Fld := ⟨aCLK_ERR, 1, 1⟩
def fCLK_ERR_PPS_IN_MISSING : Fld := ⟨aCLK_ERR, 0, 1⟩
def aUPD_CAP : Nat := 0x150000
def fUPD_CAP_BLOCK_LOG2 : Fld := ⟨aUPD_CAP, 16, 8⟩
def fUPD_CAP_BANKS : Fld := ⟨aUPD_CAP, 8, 8⟩
def fUPD_CAP_COMPONENTS : Fld := ⟨aUPD_CAP, 0, 8⟩
def aUPD_STATUS : Nat := 0x150008
def fUPD_STATUS_LAST_STATUS : Fld := ⟨aUPD_STATUS, 48, 16⟩
def fUPD_STATUS_FUSED_SV : Fld := ⟨aUPD_STATUS, 8, 8⟩
def fUPD_STATUS_DEFAULTED : Fld := ⟨aUPD_STATUS, 0, 4⟩
def aUPD_CFG : Nat := 0x150010
def fUPD_CFG_CONFIRM_S : Fld := ⟨aUPD_CFG, 32, 32⟩
def fUPD_CFG_TRIAL_BOOTS : Fld := ⟨aUPD_CFG, 0, 4⟩
def aUPD_ERR : Nat := 0x150018
def fUPD_ERR_BANK_CORRUPT : Fld := ⟨aUPD_ERR, 3, 1⟩
def fUPD_ERR_SIGNATURE : Fld := ⟨aUPD_ERR, 2, 1⟩
def fUPD_ERR_SETTINGS_DEFAULTED : Fld := ⟨aUPD_ERR, 1, 1⟩
def fUPD_ERR_ROLLED_BACK : Fld := ⟨aUPD_ERR, 0, 1⟩
def aUPD_VERSIONn (n : Nat) : Nat := 0x150040 + n * 0x10
def fUPD_VERSIONn_STAGED (n : Nat) : Fld := ⟨(aUPD_VERSIONn n), 32, 32⟩
def fUPD_VERSIONn_ACTIVE (n : Nat) : Fld := ⟨(aUPD_VERSIONn n), 0, 32⟩
def aUPD_STATEn (n : Nat) : Nat := 0x150048 + n * 0x10
def fUPD_STATEn_NEXT_OFFSET (n : Nat) : Fld := ⟨(aUPD_STATEn n), 32, 32⟩
def fUPD_STATEn_TRIAL_COUNT (n : Nat) : Fld := ⟨(aUPD_STATEn n), 8, 4⟩
def fUPD_STATEn_ACTIVE_BANK (n : Nat) : Fld := ⟨(aUPD_STATEn n), 3, 1⟩
def fUPD_STATEn_STATE (n : Nat) : Fld := ⟨(aUPD_STATEn n), 0, 3⟩

/-! One row per register kind: address, copies and stride (twice), reset value, writable fields. -/
def regTable0 : List RegDef := [
  ⟨0x120000, 1, 0x0, 1, 0x0, 0x300804, []⟩,
  ⟨0x120008, 1, 0x0, 1, 0x0, 0x0, []⟩,
  ⟨0x120010, 1, 0x0, 1, 0x0, 0x0, [⟨0, 4, .w1s⟩]⟩,
  ⟨0x120018, 1, 0x0, 1, 0x0, 0x0, [⟨8, 1, .w1c⟩, ⟨0, 4, .w1c⟩]⟩,
  ⟨0x120020, 1, 0x0, 1, 0x0, 0x0, [⟨0, 32, .rc⟩]⟩,
  ⟨0x800000, 96, 0x10000, 1, 0x0, 0x1800800120903F, []⟩,
  ⟨0x800008, 96, 0x10000, 1, 0x0, 0x0, []⟩,
  ⟨0x800010, 96, 0x10000, 1, 0x0, 0x0, [⟨1, 1, .w1c⟩, ⟨0, 1, .w1c⟩]⟩,
  ⟨0x800018, 96, 0x10000, 1, 0x0, 0x0, [⟨0, 1, .w1s⟩]⟩,
  ⟨0x800020, 96, 0x10000, 1, 0x0, 0x0, [⟨0, 32, .rc⟩]⟩,
  ⟨0x800028, 96, 0x10000, 1, 0x0, 0x0, [⟨16, 1, .w1c⟩]⟩,
  ⟨0x700000, 1, 0x0, 1, 0x0, 0x1B140007, []⟩,
  ⟨0x700008, 1, 0x0, 1, 0x0, 0x0, [⟨2, 1, .w1c⟩]⟩,
  ⟨0x700010, 1, 0x0, 1, 0x0, 0x0, [⟨0, 32, .rc⟩]⟩,
  ⟨0xF00000, 1, 0x0, 1, 0x0, 0x400107, []⟩,
  ⟨0xF00008, 1, 0x0, 1, 0x0, 0x0, [⟨1, 1, .w1c⟩]⟩,
  ⟨0xF00010, 1, 0x0, 1, 0x0, 0x0, [⟨0, 32, .rc⟩]⟩,
  ⟨0xE00000, 1, 0x0, 1, 0x0, 0x100001001408, []⟩,
  ⟨0xE00008, 1, 0x0, 1, 0x0, 0x0, []⟩,
  ⟨0xE00040, 8, 0x8, 1, 0x0, 0x0, []⟩,
  ⟨0x800030, 96, 0x10000, 1, 0x0, 0x470407F, []⟩,
  ⟨0x800038, 96, 0x10000, 1, 0x0, 0x0, [⟨33, 1, .w1c⟩, ⟨32, 1, .w1c⟩, ⟨0, 32, .rc⟩]⟩,
  ⟨0x170000, 1, 0x0, 1, 0x0, 0xFFFF14080007, []⟩,
  ⟨0x170008, 1, 0x0, 1, 0x0, 0x0, [⟨1, 1, .w1c⟩, ⟨0, 1, .w1c⟩]⟩,
  ⟨0x170010, 1, 0x0, 1, 0x0, 0x0, [⟨0, 32, .rc⟩]⟩,
  ⟨0x170018, 1, 0x0, 1, 0x0, 0x0, [⟨0, 32, .rc⟩]⟩,
  ⟨0x130000, 1, 0x0, 1, 0x0, 0x8080420, []⟩,
  ⟨0x130008, 1, 0x0, 1, 0x0, 0x20, []⟩,
  ⟨0x130010, 1, 0x0, 1, 0x0, 0x0, []⟩,
  ⟨0x130018, 1, 0x0, 1, 0x0, 0x0, []⟩,
  ⟨0x130020, 1, 0x0, 1, 0x0, 0x0, []⟩,
  ⟨0x130028, 1, 0x0, 1, 0x0, 0xFFFFFFFF, []⟩,
  ⟨0x130030, 1, 0x0, 1, 0x0, 0x3201F404010300, [⟨48, 16, .rwt⟩, ⟨32, 16, .rwt⟩, ⟨24, 4, .rwt⟩, ⟨16, 4, .rwt⟩, ⟨8, 4, .rwt⟩, ⟨0, 8, .rwt⟩]⟩,
  ⟨0x130038, 1, 0x0, 1, 0x0, 0x64000100320064, [⟨48, 16, .rwt⟩, ⟨32, 16, .rwt⟩, ⟨16, 16, .rwt⟩, ⟨0, 16, .rwt⟩]⟩,
  ⟨0x130040, 1, 0x0, 1, 0x0, 0x0, [⟨4, 1, .w1c⟩, ⟨3, 1, .w1c⟩, ⟨2, 1, .w1c⟩, ⟨1, 1, .w1c⟩, ⟨0, 1, .w1c⟩]⟩,
  ⟨0x130048, 1, 0x0, 1, 0x0, 0x0, [⟨0, 32, .rc⟩]⟩,
  ⟨0x130050, 1, 0x0, 1, 0x0, 0x0, [⟨0, 32, .rc⟩]⟩,
  ⟨0x130100, 32, 0x10, 1, 0x0, 0x0, [⟨63, 1, .rwt⟩, ⟨60, 3, .rwt⟩, ⟨32, 28, .rwt⟩, ⟨0, 28, .rwt⟩]⟩,
  ⟨0x130108, 32, 0x10, 1, 0x0, 0x0, [⟨0, 32, .rwt⟩]⟩,
  ⟨0x280000, 1, 0x0, 1, 0x0, 0xF0F100E20, []⟩]

def regTable1 : List RegDef := [
  ⟨0x280008, 1, 0x0, 1, 0x0, 0x50162437, [⟨28, 4, .rwt⟩, ⟨24, 4, .rwt⟩, ⟨20, 4, .rwt⟩, ⟨16, 4, .rwt⟩, ⟨12, 4, .rwt⟩, ⟨8, 4, .rwt⟩, ⟨4, 4, .rwt⟩, ⟨0, 4, .rwt⟩]⟩,
  ⟨0x280010, 1, 0x0, 1, 0x0, 0x10000A2E12221A30, [⟨56, 8, .rwt⟩, ⟨48, 8, .rwt⟩, ⟨40, 8, .rwt⟩, ⟨32, 8, .rwt⟩, ⟨24, 8, .rwt⟩, ⟨16, 8, .rwt⟩, ⟨8, 8, .rwt⟩, ⟨0, 8, .rwt⟩]⟩,
  ⟨0x280018, 1, 0x0, 1, 0x0, 0x8007D000002710, [⟨48, 8, .rwt⟩, ⟨32, 16, .rwt⟩, ⟨0, 32, .rwt⟩]⟩,
  ⟨0x280020, 1, 0x0, 1, 0x0, 0x3186A0003E8, [⟨40, 4, .rwt⟩, ⟨20, 20, .rwt⟩, ⟨0, 20, .rwt⟩]⟩,
  ⟨0x200000, 32, 0x4000, 1, 0x0, 0x630, [⟨16, 12, .rwt⟩, ⟨8, 8, .rwt⟩, ⟨5, 1, .rwt⟩, ⟨4, 1, .rwt⟩, ⟨0, 2, .rwt⟩]⟩,
  ⟨0x200008, 32, 0x4000, 1, 0x0, 0x0, []⟩,
  ⟨0x200010, 32, 0x4000, 1, 0x0, 0x0, [⟨2, 1, .w1c⟩, ⟨1, 1, .w1c⟩, ⟨0, 1, .w1c⟩]⟩,
  ⟨0x200018, 32, 0x4000, 1, 0x0, 0x0, [⟨48, 16, .rc⟩, ⟨32, 16, .rc⟩, ⟨16, 16, .rc⟩, ⟨0, 16, .rc⟩]⟩,
  ⟨0x200020, 32, 0x4000, 1, 0x0, 0x0, [⟨32, 32, .rc⟩, ⟨0, 32, .rc⟩]⟩,
  ⟨0x160000, 1, 0x0, 1, 0x0, 0x4000E800402, []⟩,
  ⟨0x160008, 1, 0x0, 1, 0x0, 0x100, []⟩,
  ⟨0x160010, 1, 0x0, 1, 0x0, 0x3E8, [⟨32, 16, .rwt⟩, ⟨0, 32, .rwt⟩]⟩,
  ⟨0x160018, 1, 0x0, 1, 0x0, 0x5DC00000028, []⟩,
  ⟨0x160020, 1, 0x0, 1, 0x0, 0x0, [⟨1, 1, .w1c⟩, ⟨0, 1, .w1c⟩]⟩,
  ⟨0x160028, 1, 0x0, 1, 0x0, 0x0, [⟨0, 32, .rc⟩]⟩,
  ⟨0x160030, 1, 0x0, 1, 0x0, 0x0, []⟩,
  ⟨0x400000, 1, 0x0, 1, 0x0, 0xFF0810000060, []⟩,
  ⟨0x400008, 1, 0x0, 1, 0x0, 0x0, []⟩,
  ⟨0x400010, 1, 0x0, 1, 0x0, 0x0, []⟩,
  ⟨0x400018, 1, 0x0, 1, 0x0, 0x0, []⟩,
  ⟨0x400020, 1, 0x0, 1, 0x0, 0x3C071950190000, [⟨48, 16, .rwt⟩, ⟨40, 8, .rwt⟩, ⟨32, 8, .rwt⟩, ⟨24, 8, .rwt⟩, ⟨16, 8, .rwt⟩]⟩,
  ⟨0x400028, 1, 0x0, 1, 0x0, 0x0, [⟨10, 1, .w1c⟩, ⟨9, 1, .w1c⟩, ⟨8, 1, .w1c⟩, ⟨7, 1, .w1c⟩, ⟨6, 1, .w1c⟩, ⟨5, 1, .w1c⟩, ⟨4, 1, .w1c⟩, ⟨3, 1, .w1c⟩, ⟨2, 1, .w1c⟩, ⟨1, 1, .w1c⟩, ⟨0, 1, .w1c⟩]⟩,
  ⟨0x400030, 1, 0x0, 1, 0x0, 0x0, [⟨32, 32, .rc⟩, ⟨0, 32, .rc⟩]⟩,
  ⟨0x100000, 1, 0x0, 1, 0x0, 0x800560C, []⟩,
  ⟨0x100008, 1, 0x0, 1, 0x0, 0x80000400010000, []⟩,
  ⟨0x100010, 1, 0x0, 1, 0x0, 0x80000400010000, []⟩,
  ⟨0x100018, 1, 0x0, 1, 0x0, 0x4040, [⟨8, 8, .rwt⟩, ⟨0, 8, .rwt⟩]⟩,
  ⟨0x100020, 1, 0x0, 1, 0x0, 0x0, [⟨2, 1, .w1c⟩, ⟨1, 1, .w1c⟩, ⟨0, 1, .w1c⟩]⟩,
  ⟨0x100028, 1, 0x0, 1, 0x0, 0x0, [⟨0, 32, .rc⟩]⟩,
  ⟨0x101000, 64, 0x10, 1, 0x0, 0x0, [⟨35, 21, .rwt⟩, ⟨17, 18, .rwt⟩, ⟨0, 17, .rwt⟩]⟩,
  ⟨0x101008, 64, 0x10, 1, 0x0, 0x80000400010000, [⟨35, 21, .rwt⟩, ⟨17, 18, .rwt⟩, ⟨0, 17, .rwt⟩]⟩,
  ⟨0x110000, 1, 0x0, 1, 0x0, 0xA08100E0E, []⟩,
  ⟨0x110008, 1, 0x0, 1, 0x0, 0x0, [⟨0, 1, .w1c⟩]⟩,
  ⟨0x110010, 1, 0x0, 1, 0x0, 0x0, [⟨0, 32, .rc⟩]⟩,
  ⟨0x140000, 1, 0x0, 1, 0x0, 0x100000408009, []⟩,
  ⟨0x140008, 1, 0x0, 1, 0x0, 0x0, []⟩,
  ⟨0x140010, 1, 0x0, 1, 0x0, 0x0, [⟨1, 1, .w1c⟩, ⟨0, 1, .w1c⟩]⟩,
  ⟨0x100000000, 64, 0x10000, 1, 0x0, 0x200200, []⟩,
  ⟨0x100000008, 64, 0x10000, 1, 0x0, 0x0, [⟨1, 1, .w1c⟩, ⟨0, 1, .w1c⟩]⟩,
  ⟨0x100000010, 64, 0x10000, 1, 0x0, 0x0, [⟨0, 1, .w1s⟩]⟩]

def regTable2 : List RegDef := [
  ⟨0x100000018, 64, 0x10000, 1, 0x0, 0x2000, []⟩,
  ⟨0x100000020, 64, 0x10000, 1, 0x0, 0x0, []⟩,
  ⟨0x100000028, 64, 0x10000, 1, 0x0, 0x0, []⟩,
  ⟨0x100000030, 64, 0x10000, 1, 0x0, 0x0, []⟩,
  ⟨0x80000, 1, 0x0, 1, 0x0, 0x40400F, []⟩,
  ⟨0x80008, 1, 0x0, 1, 0x0, 0x0, []⟩,
  ⟨0x80010, 1, 0x0, 1, 0x0, 0x0, []⟩,
  ⟨0x80018, 1, 0x0, 1, 0x0, 0x0, [⟨3, 1, .w1c⟩, ⟨2, 1, .w1c⟩, ⟨1, 1, .w1c⟩, ⟨0, 1, .w1c⟩]⟩,
  ⟨0x80020, 1, 0x0, 1, 0x0, 0x0, [⟨32, 32, .rc⟩, ⟨0, 32, .rc⟩]⟩,
  ⟨0x80028, 1, 0x0, 1, 0x0, 0x0, [⟨0, 1, .rw⟩]⟩,
  ⟨0x20000, 1, 0x0, 1, 0x0, 0x2200620, []⟩,
  ⟨0x20008, 1, 0x0, 1, 0x0, 0x0, [⟨5, 1, .w1c⟩, ⟨4, 1, .w1c⟩, ⟨1, 1, .w1c⟩, ⟨0, 1, .w1c⟩]⟩,
  ⟨0x20010, 1, 0x0, 1, 0x0, 0x0, []⟩,
  ⟨0x20018, 1, 0x0, 1, 0x0, 0x0, []⟩,
  ⟨0x20020, 1, 0x0, 1, 0x0, 0x0, [⟨32, 32, .rc⟩, ⟨0, 32, .rc⟩]⟩,
  ⟨0x20028, 1, 0x0, 1, 0x0, 0x0, [⟨48, 16, .rc⟩, ⟨32, 16, .rc⟩, ⟨16, 16, .rc⟩, ⟨0, 16, .rc⟩]⟩,
  ⟨0x20030, 1, 0x0, 1, 0x0, 0x0, [⟨16, 16, .wo⟩, ⟨8, 3, .wo⟩, ⟨0, 8, .wo⟩]⟩,
  ⟨0x20038, 1, 0x0, 1, 0x0, 0x0, [⟨1, 1, .rw⟩, ⟨0, 1, .w1s⟩]⟩,
  ⟨0x20040, 1, 0x0, 1, 0x0, 0x640014, [⟨16, 16, .rw⟩, ⟨0, 8, .rw⟩]⟩,
  ⟨0x20048, 1, 0x0, 1, 0x0, 0x0, []⟩,
  ⟨0x20050, 1, 0x0, 1, 0x0, 0x7D0, [⟨0, 16, .rw⟩]⟩,
  ⟨0x20058, 1, 0x0, 1, 0x0, 0x0, [⟨0, 32, .rc⟩]⟩,
  ⟨0x20060, 1, 0x0, 1, 0x0, 0x0, [⟨16, 1, .w1c⟩]⟩,
  ⟨0x290000, 1, 0x0, 1, 0x0, 0x0, []⟩,
  ⟨0x290008, 1, 0x0, 1, 0x0, 0x7D0, [⟨0, 16, .rwt⟩]⟩,
  ⟨0x290010, 1, 0x0, 1, 0x0, 0x0, [⟨3, 1, .w1c⟩, ⟨2, 1, .w1c⟩, ⟨1, 1, .w1c⟩, ⟨0, 1, .w1c⟩]⟩,
  ⟨0x290018, 1, 0x0, 1, 0x0, 0x0, [⟨32, 32, .rc⟩, ⟨0, 32, .rc⟩]⟩,
  ⟨0x0, 1, 0x0, 1, 0x0, 0xB0000048014802, []⟩,
  ⟨0x8, 1, 0x0, 1, 0x0, 0x0, []⟩,
  ⟨0x10, 1, 0x0, 1, 0x0, 0x206000FF030F, []⟩,
  ⟨0x18, 1, 0x0, 1, 0x0, 0xFFFFFFFFFFFFFFFF, []⟩,
  ⟨0x20, 1, 0x0, 1, 0x0, 0xFFFFFFFFFFFFFFFF, []⟩,
  ⟨0x28, 1, 0x0, 1, 0x0, 0xFFFFFFFFFFFFFFFF, []⟩,
  ⟨0x30, 1, 0x0, 1, 0x0, 0xFFFFFFFF, []⟩,
  ⟨0x38, 1, 0x0, 1, 0x0, 0x0, []⟩,
  ⟨0x40, 1, 0x0, 1, 0x0, 0x0, []⟩,
  ⟨0x48, 1, 0x0, 1, 0x0, 0x0, [⟨8, 1, .w1c⟩]⟩,
  ⟨0x100001000, 64, 0x10000, 256, 0x20, 0x0, [⟨12, 52, .rw⟩]⟩,
  ⟨0x100001008, 64, 0x10000, 256, 0x20, 0x0, [⟨63, 1, .rw⟩, ⟨56, 2, .rw⟩, ⟨48, 5, .rw⟩, ⟨32, 8, .rw⟩, ⟨24, 5, .rw⟩, ⟨16, 2, .rw⟩]⟩,
  ⟨0x100001010, 64, 0x10000, 256, 0x20, 0x0, []⟩]

def regTable3 : List RegDef := [
  ⟨0x10000, 1, 0x0, 1, 0x0, 0x0, []⟩,
  ⟨0x10008, 1, 0x0, 1, 0x0, 0x0, []⟩,
  ⟨0x30000, 1, 0x0, 1, 0x0, 0xC1C09C40A05, []⟩,
  ⟨0x30008, 1, 0x0, 1, 0x0, 0x4000, []⟩,
  ⟨0x30010, 1, 0x0, 1, 0x0, 0x0, []⟩,
  ⟨0x30018, 1, 0x0, 1, 0x0, 0x1E009C400000000, [⟨48, 16, .rwt⟩, ⟨32, 16, .rwt⟩]⟩,
  ⟨0x30020, 1, 0x0, 1, 0x0, 0x0, [⟨4, 1, .w1c⟩, ⟨3, 1, .w1c⟩, ⟨2, 1, .w1c⟩, ⟨1, 1, .w1c⟩, ⟨0, 1, .w1c⟩]⟩,
  ⟨0x30028, 1, 0x0, 1, 0x0, 0x0, [⟨32, 32, .rc⟩, ⟨0, 32, .rc⟩]⟩,
  ⟨0x40000, 1, 0x0, 1, 0x0, 0x0, []⟩,
  ⟨0x40008, 1, 0x0, 1, 0x0, 0x140A3C, [⟨16, 16, .rwt⟩, ⟨8, 8, .rwt⟩, ⟨0, 8, .rwt⟩]⟩,
  ⟨0x40010, 1, 0x0, 1, 0x0, 0x640001, [⟨16, 16, .rwt⟩, ⟨1, 1, .rwt⟩, ⟨0, 1, .rwt⟩]⟩,
  ⟨0x40018, 1, 0x0, 1, 0x0, 0x0, []⟩,
  ⟨0x40020, 1, 0x0, 1, 0x0, 0x0, [⟨3, 1, .w1c⟩, ⟨2, 1, .w1c⟩, ⟨1, 1, .w1c⟩, ⟨0, 1, .w1c⟩]⟩,
  ⟨0x150000, 1, 0x0, 1, 0x0, 0x100204, []⟩,
  ⟨0x150008, 1, 0x0, 1, 0x0, 0x0, []⟩,
  ⟨0x150010, 1, 0x0, 1, 0x0, 0x25800000003, [⟨32, 32, .rw⟩, ⟨0, 4, .rw⟩]⟩,
  ⟨0x150018, 1, 0x0, 1, 0x0, 0x0, [⟨3, 1, .w1c⟩, ⟨2, 1, .w1c⟩, ⟨1, 1, .w1c⟩, ⟨0, 1, .w1c⟩]⟩,
  ⟨0x150040, 4, 0x10, 1, 0x0, 0x0, []⟩,
  ⟨0x150048, 4, 0x10, 1, 0x0, 0x0, []⟩]

/-- Every register kind of the spec. -/
def regTable : List RegDef := regTable0 ++ regTable1 ++ regTable2 ++ regTable3

end Sys2Proof.Machine
end

