-- ==== Sys2Proof/Machine/RegMap.lean ====
section
/-!
DEFINITION. What each register holds at reset (R8, R425, the reset column of every register's line) on a variant (R1,
R4, R426), and where an address stands in the register table.
-/
namespace Sys2Proof.Machine

/-- What the module is fused with: its variant (Table 0.1) and its serial number (GLB_SERIAL).
(DESIGN CHOICE, log entry 1.) -/
structure Fuses where
  variant : Variant
  serial : Nat
  deriving DecidableEq, Repr

def Variant.tiles : Variant → Nat
  | .b => 72 | _ => 96

def Variant.ports : Variant → Nat
  | .b => 16 | _ => 32

def Variant.quarters : Variant → Nat
  | .b => 3 | _ => 4

def Variant.channels : Variant → Nat
  | .a => 96 | .b => 48 | .c => 0

def Variant.hasVdc : Variant → Bool
  | .b => false | _ => true

def Variant.hasMedia : Variant → Bool
  | .c => false | _ => true

/-- Whether an address is one of a register kind's copies: copy i at base + i × stride, within it copy j at j × stride2
(at the base itself where there is one copy). -/
def RegDef.covers (r : RegDef) (a : Nat) : Bool :=
  r.base ≤ a
    && (let d := a - r.base
        if r.count2 ≤ 1 then d % r.stride == 0 && d / r.stride < r.count
        else d / r.stride < r.count && d % r.stride % r.stride2 == 0 && d % r.stride / r.stride2 < r.count2)

/-- The register kind at an address. -/
def regAt (a : Nat) : Option RegDef := regTable.find? (fun r => r.covers a)

/-- Registers of a unit that the variant lacks (R4): tiles, ports, the media controller and its codec, the VDC. -/
def regAbsent (v : Variant) (a : Nat) : Bool :=
  (0x800000 + v.tiles * 0x10000 ≤ a && a < 0xE00000)
    || (0x200000 + v.ports * 0x4000 ≤ a && a < 0x280000)
    || (!v.hasMedia && 0x400000 ≤ a && a < 0x700000)
    || (!v.hasVdc && 0xF00000 ≤ a && a < 0x1000000)

/-- Registers whose reset value is not one constant: capability registers of the variant, the serial number,
INK_CAP 0, CTX_INFO n and CTX_SHARE0 0. -/
def regSpecial (f : Fuses) (a : Nat) : Option Nat :=
  let v := f.variant
  if a = aGLB_ID then some (match v with
    | .a => 0x00B0000048014802 | .b => 0x00B0000148014802 | .c => 0x00B0000248014802)
  else if a = aGLB_SERIAL then some f.serial
  else if a = aGLB_CAP then some (match v with
    | .a => 0x0000206000FF030F | .b => 0x00001048000F0107 | .c => 0x000020600000020F)
  else if a = aGLB_CAP_MASK1 then some (match v with
    | .b => 0x0000FFFF000000FF | _ => 0xFFFFFFFFFFFFFFFF)
  else if a = aGLB_CAP_MEDIA0 then some (match v with
    | .a => 0xFFFFFFFFFFFFFFFF | .b => 0x0000FFFFFFFFFFFF | .c => 0)
  else if a = aGLB_CAP_MEDIA1 then some (match v with
    | .a => 0xFFFFFFFF | _ => 0)
  else if a = aNET_CAP then some (match v with
    | .b => 0xF0F100E10 | _ => 0xF0F100E20)
  else if a = aMED_CAP then some (match v with
    | .b => 0x00000F0810000030 | _ => 0x0000FF0810000060)
  else if a = aMED_DCMP_CAP then some (match v with
    | .c => 0x1B140003 | _ => 0x1B140007)
  else if a = aINK_CAPn 0 then some 0x0080000400010000
  else if 0x101008 ≤ a ∧ a < 0x101400 ∧ a % 16 = 8 then some 0
  else if 0x100000000 ≤ a ∧ a % 0x10000 = 0 ∧ (a - 0x100000000) / 0x10000 < 64 then
    let n := (a - 0x100000000) / 0x10000
    some (if n = 0 then 0x200200 else n)
  else if 0x100000018 ≤ a ∧ a % 0x10000 = 0x18 ∧ (a - 0x100000000) / 0x10000 < 64 then
    some (if (a - 0x100000000) / 0x10000 = 0 then 0x2000 else 0)
  else none

/-- What a register reads after reset; no register at the address, or an absent unit's: 0. -/
def regReset (f : Fuses) (a : Nat) : BitVec 64 :=
  if regAbsent f.variant a then 0#64
  else match regSpecial f a with
    | some v => BitVec.ofNat 64 v
    | none => match regAt a with
      | some r => BitVec.ofNat 64 r.reset
      | none => 0#64

end Sys2Proof.Machine
end

