-- ==== Sys2Proof/Machine/State.lean ====
section
/-!
DEFINITION. The state of the module: the register map (one home for everything a register shows), one record per block
for what no register shows, hub DTIME, the queue of waiting commands, and what has left the part.
-/
namespace Sys2Proof.Machine

structure State where
  hw : Fuses
  dtime : Nat
  freeCtr : Nat
  pending : List Instr
  out : List Out
  regs : Map (BitVec 64)
  host : HostState
  flt : FaultState
  ctxs : Map CtxLife
  tiles : Map TileRec
  work : WorkState
  ink : InkState
  sync : SyncState
  data : Map CtxData
  vocs : Map VocBank
  net : NetState
  clk : StepState
  dice : List DiceJob
  sec : SecState
  media : MediaState
  ledger : LedgerState
  lan : LanternState
  mod : ModState
  pwr : PowerState
  clock : ClockState
  fw : FwState
  deriving DecidableEq, Repr

/-- Why a step stops with a fault: no command of this part stops it (the spec answers every command with an effect, a
status, an error line or nothing), so there is no such reason. -/
inductive Fault where
  deriving DecidableEq, Repr

/-- Why a command has no meaning. -/
inductive Refusal where
  /-- Answered only by an arm of exec whose command has no meaning yet; every command has one. Safe. -/
  | notModelled (mnemonic : String)
  deriving DecidableEq, Repr

/-- The module right after power-up reset: registers at their reset values (nothing listed), every block empty.
(DESIGN CHOICE, log entries 1, 13.) -/
def State.reset : State :=
  { hw := { variant := .a, serial := 0 }, dtime := 0, freeCtr := 0, pending := [], out := [], regs := [],
    host := HostState.off, flt := FaultState.off, ctxs := [], tiles := [], work := WorkState.off, ink := InkState.off,
    sync := SyncState.off, data := [], vocs := [], net := NetState.off,
    clk := StepState.off, dice := [], sec := SecState.off,
    media := MediaState.off, ledger := [], lan := LanternState.off, mod := ModState.on, pwr := PowerState.off,
    clock := ClockState.off, fw := FwState.off }

end Sys2Proof.Machine
end

