-- ==== Sys2Proof/Machine/Ops.lean ====
section
/-!
DEFINITION. The operations every block shares: registers and their fields, free values, the clock, error lines, what
leaves the part, and the two forms of every command's effect: `act` (R397: in the safe state nothing but a power cycle,
the monitor and the fault collector acts) and `always`.
-/
namespace Sys2Proof.Machine

abbrev Step' := Host.Outcome State Fault Refusal

/-! ## Registers -/

def State.reg (s : State) (a : Nat) : Nat := (Map.getD s.regs a (regReset s.hw a)).toNat

def State.putReg (s : State) (a v : Nat) : State :=
  { s with regs := Map.setD (regReset s.hw a) s.regs a (BitVec.ofNat 64 v) }

def State.fld (s : State) (f : Fld) : Nat := bitsOf (s.reg f.addr) f.lo f.width

def State.setFld (s : State) (f : Fld) (v : Nat) : State :=
  s.putReg f.addr (putBits (s.reg f.addr) f.lo f.width v)

/-- Sets one flag of a register. -/
def State.flag (s : State) (f : Fld) : State := s.setFld f 1

def State.unflag (s : State) (f : Fld) : State := s.setFld f 0

/-- Adds n to a saturating counter field (R8, RC). -/
def State.bump (s : State) (f : Fld) (n : Nat) : State :=
  s.setFld f (min (s.fld f + n) (2 ^ f.width - 1))

/-- A field at bit i of another field's register. -/
def Fld.bit (f : Fld) (i : Nat) : Fld := { addr := f.addr, lo := f.lo + i, width := 1 }

/-! ## Free values (log entry 4) -/

/-- The next free value, w bits wide. (DESIGN CHOICE, log entry 4.) -/
def State.free (s : State) (w : Nat) : Nat := (Config.freeValue w s.freeCtr).toNat

def State.used (s : State) : State := { s with freeCtr := s.freeCtr + 1 }

/-- A free choice from a list. (DESIGN CHOICE, log entry 4.) -/
def State.choose {α : Type} (s : State) (xs : List α) : Option α := xs[s.free 64 % xs.length]?

/-! ## What leaves the part -/

def State.emit (s : State) (o : Out) : State := { s with out := s.out ++ [o] }

/-! ## Content of a context -/

def State.ctxData (s : State) (c : Nat) : CtxData := Map.getD s.data c CtxData.off

def State.setData (s : State) (c : Nat) (d : CtxData) : State := { s with data := Map.put s.data c d }

/-- Changes a context's run. -/
def State.mapRun (s : State) (c : Nat) (f : RunRec → RunRec) : State :=
  let d := s.ctxData c
  s.setData c { d with run := d.run.map f }

def State.runOf (s : State) (c : Nat) : Option RunRec := (s.ctxData c).run

/-! ## Error lines (R382) -/

/-- An event on the error line of a source, stamped with hub DTIME (R37). Context 255: none concerned.
(DESIGN CHOICE, log entry 88.) -/
def State.raise (s : State) (src : Nat) (st : Status) (unit ctx : Nat) (cls : FClass) : State :=
  { s with flt := { s.flt with lines := s.flt.lines ++
      [{ kind := .fault, src := src, status := st, unit := unit, ctx := ctx, cls := cls, stamp := s.dtime,
         forced := false, discrepancy := false, concurrent := false }] } }

def noCtx : Nat := 255

/-! ## The frame of every command -/

/-- The safe state of F5 (R396, R397): FLT_STATUS.GRAVE. -/
def State.safe (s : State) : Bool := s.fld fFLT_STATUS_GRAVE == 1

/-- PCIe answers from the end of boot stage 2 on (R458), and for PF0 in recovery (R460).
(DEDUCED, log entry 67.) -/
def State.pcieUp (s : State) : Bool := !s.mod.perst && (3 ≤ s.mod.booted || s.mod.recovery)

/-- A function in service reaches its registers. (DEDUCED, log entry 67.) -/
def State.reaches (s : State) (fn : Nat) : Bool :=
  s.pcieUp && (fn == 0 || (s.host.vfReady.contains fn && !s.mod.recovery))

/-- What a command leaves: its effect, with the fuses and the queue of commands as they were. -/
def State.commit (s t : State) : State := { t with hw := s.hw, pending := s.pending }

/-- A command that has its effect unless the part is in the safe state (R397).
(DESIGN CHOICE, log entry 3.) -/
def act (s : State) (body : State → State) : Step' :=
  if s.safe then .next s else .next (s.commit (body s))

/-- A command that has its effect in the safe state too.
(DESIGN CHOICE, log entry 3.) (DEDUCED, log entry 89.) -/
def always (s : State) (body : State → State) : Step' := .next (s.commit (body s))

end Sys2Proof.Machine
end

