-- ==== Sys2Proof/Machine/InkOps.lean ====
section
/-!
DEFINITION. Operations of the Innkeeper (R311 to R324): handles, the ordered checks of R318, admission under bookings
and caps (R321), the free rings and caches (R320), and reads and writes of a chain's bytes (R312).
-/
namespace Sys2Proof.Machine

/-! Agents of Table 13.2. -/
def agTILE : Nat := 0
def agDISPATCH : Nat := 1
def agEXCHANGE : Nat := 2
def agPACKER : Nat := 3
def agLEDGER : Nat := 4
def agHOST : Nat := 5
def agNETWORK : Nat := 6
def agFETCH : Nat := 7

/-- Source ID of the Innkeeper (Table 17.1). -/
def srcINK : Nat := 0x0008

/-- Bytes of a buffer of a class (R311). -/
def bufSize : Nat → Nat
  | 0 => 0x1000 | 1 => 0x10000 | _ => 0x200000

/-- Buffers in a class's pool (R311). -/
def poolSize : Nat → Nat
  | 0 => 0x100000 | 1 => 0x20000 | _ => 0x10000

/-- A handle (Table 13.1). -/
def handleWord (cls ctx gen num : Nat) : Nat := cls * 2 ^ 62 + ctx * 2 ^ 56 + gen * 2 ^ 32 + num

def handleCtx (h : Nat) : Nat := bitsOf h 56 6
def handleNum (h : Nat) : Nat := bitsOf h 0 20

/-- The next generation of a handle number (R314). -/
def nextGen (g : Nat) : Nat := if g = 2 ^ 24 - 1 then 1 else g + 1

def Chain.size (c : Chain) : Nat := (c.bufs.map (fun b => bufSize b.1)).foldl (· + ·) 0

def Chain.handle (c : Chain) (ctx num : Nat) : Nat := handleWord ((c.bufs.headD (0, 0)).1) ctx c.gen num

def State.chainsOf (s : State) (ctx : Nat) : Map Chain := Map.getD s.ink.chains ctx []

def State.setChain (s : State) (ctx num : Nat) (c : Chain) : State :=
  { s with ink := { s.ink with chains := Map.put s.ink.chains ctx (Map.put (s.chainsOf ctx) num c) } }

/-- The checks of R318 in order; the caller owns the chain when it is `agent` (and, for agent 0x00, the tile). -/
def State.findChain (s : State) (ctx h : Nat) (owner : Option (Nat × Nat)) : Except Status (Nat × Chain) :=
  if bitsOf h 62 2 = 3 ∨ bitsOf h 20 12 ≠ 0 then .error stINK_ARGS
  else if handleCtx h ≠ ctx then .error stINK_NOT_OWNER
  else match Map.find (s.chainsOf ctx) (handleNum h) with
    | none => .error stINK_ALREADY_FREE
    | some c =>
      if c.gen ≠ bitsOf h 32 24 then .error stINK_ALREADY_FREE
      else match owner with
        | some (a, t) => if c.owner = a ∧ (a ≠ agTILE ∨ c.tile = t) then .ok (handleNum h, c) else .error stINK_NOT_OWNER
        | none => .ok (handleNum h, c)

/-! ## Pools -/

def State.pool (s : State) (cls : Nat) : Pool := Map.getD s.ink.pools cls Pool.full

def State.setPool (s : State) (cls : Nat) (p : Pool) : State := { s with ink := { s.ink with pools := Map.put s.ink.pools cls p } }

/-- Buffers in the ring. -/
def Pool.ringCount (cls : Nat) (p : Pool) : Nat := (poolSize cls - p.fresh) + p.ring.length

/-- Scrubbed free buffers of a class: INK_FREE. -/
def State.freeCount (s : State) (cls : Nat) : Nat := (s.pool cls).ringCount cls + (s.pool cls).cache.length

/-- Moves up to n indices from the ring head to the cache (R320). (DESIGN CHOICE, log entry 12.) -/
def Pool.refill (cls : Nat) (p : Pool) : Nat → Pool
  | 0 => p
  | n + 1 =>
    if p.fresh < poolSize cls then Pool.refill cls { p with fresh := p.fresh + 1, cache := p.cache ++ [p.fresh] } n
    else match p.ring with
      | i :: r => Pool.refill cls { p with ring := r, cache := p.cache ++ [i] } n
      | [] => p

/-- One buffer from the cache, refilled when it falls to 128 entries; from the scrub queue when none is scrubbed.
(DESIGN CHOICE, log entry 12.) -/
def Pool.take (cls : Nat) (p : Pool) : Option (Nat × Pool) :=
  let p := if p.cache.length ≤ 128 then Pool.refill cls p 256 else p
  match p.cache, p.scrub with
  | i :: r, _ => some (i, { p with cache := r })
  | [], i :: r => some (i, { p with scrub := r })
  | [], [] => none

def Pool.takeN (cls : Nat) : Nat → Pool → List Nat → Option (List Nat × Pool)
  | 0, p, acc => some (acc.reverse, p)
  | n + 1, p, acc => match Pool.take cls p with
    | some (i, p') => Pool.takeN cls n p' (i :: acc)
    | none => none

/-- A scrubbed buffer enters the cache, which spills 256 entries to the ring tail at 448 (R320). -/
def Pool.give (p : Pool) (i : Nat) : Pool :=
  let c := p.cache ++ [i]
  if 448 ≤ c.length then { p with cache := c.drop 256, ring := p.ring ++ c.take 256 } else { p with cache := c }

/-! ## Admission (R321) -/

/-- Buffers of a class that a context holds. -/
def State.useOf (s : State) (ctx cls : Nat) : Nat :=
  ((s.chainsOf ctx).map (fun e => (e.2.bufs.filter (fun b => b.1 == cls)).length)).foldl (· + ·) 0

def State.bookOf (s : State) (ctx cls : Nat) : Nat :=
  match cls with
  | 0 => s.fld (fINK_BOOKn_S ctx) | 1 => s.fld (fINK_BOOKn_M ctx) | _ => s.fld (fINK_BOOKn_L ctx)

def State.capOf (s : State) (ctx cls : Nat) : Nat :=
  match cls with
  | 0 => s.fld (fINK_CAPn_S ctx) | 1 => s.fld (fINK_CAPn_M ctx) | _ => s.fld (fINK_CAPn_L ctx)

/-- The control bookings of R324: S buffers per port and direction. -/
def State.ctrlBook (s : State) (cls : Nat) : Nat :=
  if cls = 0 then s.hw.variant.ports * (s.fld fINK_CTRL_BOOK_EGRESS + s.fld fINK_CTRL_BOOK_INGRESS) else 0

/-- Unused bookings of every context but c, and the control booking. -/
def State.heldFor (s : State) (c cls : Nat) : Nat :=
  ((List.range 64).map (fun d => if d = c then 0 else s.bookOf d cls - s.useOf d cls)).foldl (· + ·) 0 + s.ctrlBook cls

def State.admits (s : State) (c cls n : Nat) : Bool :=
  s.useOf c cls + n ≤ s.capOf c cls
    && s.heldFor c cls + (s.bookOf c cls - s.useOf c cls - n) + n ≤ s.freeCount cls + (s.pool cls).scrub.length

/-! ## Chains -/

/-- The lowest handle number without a live chain (R314). -/
def lowestFree (m : Map Chain) : Nat → Nat → Nat
  | 0, i => i
  | fuel + 1, i => if Map.has m i then lowestFree m fuel (i + 1) else i

/-- A chain of n buffers of one class for an agent; the handle and the next state, or INK_OVER_CAP.
(DESIGN CHOICE, log entry 12.) -/
def State.alloc (s : State) (ctx cls n agent tile : Nat) : Except Status (Nat × State) :=
  if !s.admits ctx cls n then .error stINK_OVER_CAP
  else match Pool.takeN cls n (s.pool cls) [] with
    | none => .error stINK_OVER_CAP
    | some (is, p) =>
      let m := s.chainsOf ctx
      let num := lowestFree m (m.length + 1) 0
      let gen := Map.getD (Map.getD s.ink.gens ctx []) num 1
      let c : Chain := { gen := gen, bufs := is.map (fun i => (cls, i)), owner := agent, tile := tile, bytes := [] }
      .ok (c.handle ctx num, (s.setPool cls p).setChain ctx num c)

/-- Appends n buffers of a class to a chain (R321); INK_ARGS beyond 2,048 buffers. -/
def State.extend (s : State) (ctx num : Nat) (c : Chain) (cls n : Nat) : Except Status State :=
  if 2048 < c.bufs.length + n then .error stINK_ARGS
  else if !s.admits ctx cls n then .error stINK_OVER_CAP
  else match Pool.takeN cls n (s.pool cls) [] with
    | none => .error stINK_OVER_CAP
    | some (is, p) => .ok ((s.setPool cls p).setChain ctx num { c with bufs := c.bufs ++ is.map (fun i => (cls, i)) })

/-- Queues a chain's buffers for scrubbing. -/
def State.queueScrub (s : State) : List (Nat × Nat) → State
  | [] => s
  | (cls, i) :: r => State.queueScrub (s.setPool cls { s.pool cls with scrub := (s.pool cls).scrub ++ [i] }) r

/-- Frees a chain: buffers to the scrub queue, the number's generation advanced (R313, R314). -/
def State.freeNum (s : State) (ctx num : Nat) : State :=
  match Map.find (s.chainsOf ctx) num with
  | none => s
  | some c =>
    let s := s.queueScrub c.bufs
    { s with ink := { s.ink with
        chains := Map.put s.ink.chains ctx (Map.del (s.chainsOf ctx) num),
        gens := Map.put s.ink.gens ctx (Map.put (Map.getD s.ink.gens ctx []) num (nextGen c.gen)) } }

/-- Frees the chain a handle names, when it is live. -/
def State.freeHandle (s : State) (h : Nat) : State :=
  match s.findChain (handleCtx h) h none with
  | .ok (num, _) => s.freeNum (handleCtx h) num
  | .error _ => s

/-- Frees every chain of a context that the test picks. -/
def State.freeWhere (s : State) (ctx : Nat) (p : Chain → Bool) : State :=
  ((s.chainsOf ctx).filter (fun e => p e.2)).foldl (fun s e => s.freeNum ctx e.1) s

/-- Changes a live chain's owner (R316). -/
def State.giveTo (s : State) (h agent : Nat) : State :=
  match s.findChain (handleCtx h) h none with
  | .ok (num, c) => s.setChain (handleCtx h) num { c with owner := agent }
  | .error _ => s

/-- `len` bytes of a live chain; a dead handle reads nothing. -/
def State.readHandle (s : State) (h off len : Nat) : Bytes :=
  match s.findChain (handleCtx h) h none with
  | .ok (_, c) => Mem.read c.bytes off len
  | .error _ => []

def State.writeHandle (s : State) (h off : Nat) (d : Bytes) : State :=
  match s.findChain (handleCtx h) h none with
  | .ok (num, c) => s.setChain (handleCtx h) num { c with bytes := Mem.write c.bytes off d }
  | .error _ => s

/-- Bytes of the chain a handle names. -/
def State.handleSize (s : State) (h : Nat) : Nat :=
  match s.findChain (handleCtx h) h none with
  | .ok (_, c) => c.size
  | .error _ => 0

/-- A failed check on a hub agent's operation (R319): INK_ERR and F4. -/
def State.inkDefect (s : State) (ctx cls : Nat) (st : Status) : State :=
  let s := if st = stINK_ALREADY_FREE then s.flag fINK_ERR_HUB_ALREADY_FREE
    else if st = stINK_NOT_OWNER then s.flag fINK_ERR_HUB_NOT_OWNER else s
  s.raise srcINK st cls ctx .f4

end Sys2Proof.Machine
end

