-- ==== Sys2Proof/Machine/TileOps.lean ====
section
/-!
DEFINITION. Operations on tiles: seating state (Table 3.9), lane faults (R95), completion of engine calls (R81), the tile
store (R89), work slots (Table 3.6) and the return of items to the hub (R102).
-/
namespace Sys2Proof.Machine

/-! States of Table 3.9. -/
def tsUNSEATED : Nat := 0
def tsSCRUB : Nat := 1
def tsSEATED : Nat := 2
def tsLOADING : Nat := 3
def tsREADY : Nat := 4
def tsDRAINING : Nat := 5
def tsFENCED : Nat := 6

def storeSize : Nat := 0x600000

/-- Source ID of tile t (Table 17.1). -/
def srcTILE (t : Nat) : Nat := 0x0100 + t

def State.tile (s : State) (t : Nat) : TileRec := Map.getD s.tiles t TileRec.off

def State.setTile (s : State) (t : Nat) (r : TileRec) : State := { s with tiles := Map.put s.tiles t r }

def State.mapTile (s : State) (t : Nat) (f : TileRec → TileRec) : State := s.setTile t (f (s.tile t))

def State.tileState (s : State) (t : Nat) : Nat := s.fld (fTILE_STATE_STATE t)

def State.tileCtx (s : State) (t : Nat) : Nat := s.fld (fTILE_STATE_CONTEXT t)

def State.setTileState (s : State) (t v : Nat) : State := s.setFld (fTILE_STATE_STATE t) v

def State.tilePresent (s : State) (t : Nat) : Bool := t < s.hw.variant.tiles

/-- Quarter of a tile. -/
def quarterOf (t : Nat) : Nat := t / 24

/-- Power state QPS0 to QPS3 of a quarter (CLK_STATUS.QPS, R452). -/
def State.qps (s : State) (q : Nat) : Nat := bitsOf (s.fld fCLK_STATUS_QPS) (2 * q) 2

/-- A quarter's clock runs: in QPS0, and its exit latency is over. -/
def State.clockRuns (s : State) (q : Nat) : Bool := s.qps q == 0 && Map.getD s.clock.clockAt q 0 ≤ s.dtime


/-- Seated to a context as R101 counts it: SEATED, LOADING, READY, DRAINING or SCRUB with CONTEXT equal to it. -/
def State.seatedTo (s : State) (c t : Nat) : Bool :=
  s.fld (fTILE_STATE_SEATED t) == 1 && s.tileCtx t == c && 1 ≤ s.tileState t && s.tileState t ≤ 5

def State.tilesOf (s : State) (c : Nat) : List Nat := (List.range s.hw.variant.tiles).filter (s.seatedTo c)

def State.readyTiles (s : State) (c : Nat) : List Nat := (s.tilesOf c).filter (fun t => s.tileState t == tsREADY)

def State.imageRec (s : State) (i : Nat) : Option ImageRec := Map.find s.work.images i

def State.tileImage (s : State) (t : Nat) : Option ImageRec :=
  match (s.tile t).image with
  | some i => s.imageRec i
  | none => none

def TileRec.lane (r : TileRec) (l : Nat) : Lane := Map.getD r.lanes l Lane.off

def TileRec.setLane (r : TileRec) (l : Nat) (x : Lane) : TileRec := { r with lanes := Map.put r.lanes l x }

def State.setLane (s : State) (t l : Nat) (x : Lane) : State := s.mapTile t (fun r => r.setLane l x)

/-- TILE_FAULT keeps the first status since VALID was cleared (Table 3.14). -/
def State.tileFault (s : State) (t : Nat) (st : Status) : State :=
  if s.fld (fTILE_FAULT_VALID t) = 1 then s
  else (s.setFld (fTILE_FAULT_STATUS t) st.toNat).flag (fTILE_FAULT_VALID t)

/-- A lane fault (R95): the lane stops and F2 is raised on the seated context. -/
def State.laneFault (s : State) (t l : Nat) (st : Status) : State :=
  let x := (s.tile t).lane l
  ((s.setLane t l { x with run := .faulted }).tileFault t st).raise (srcTILE t) st 0xFF (s.tileCtx t) .f2

/-- The kernel a lane runs. -/
def ImageRec.kernelOf (i : ImageRec) (l : Nat) : Option Kernel := i.kernels.find? (fun k => bitOf k.groups (l / 32))

/-- Delivers a call's completion to its ticket; during a Rounds slice it is held (R96). -/
def State.completeTicket (s : State) (t l k len : Nat) (st : Status) : State :=
  let r := s.tile t
  match r.slice with
  | some _ => s.setTile t { r with held := r.held ++ [.done l k len st] }
  | none =>
    let x := r.lane l
    s.setTile t (r.setLane l { x with tickets := Map.adjust x.tickets k (fun tk => { tk with result := some (len, st) }) })

/-- Completes a call in flight: it leaves the queue and its ticket takes the length and status. -/
def State.completeCall (s : State) (t : Nat) (c : Call) (len : Nat) (st : Status) : State :=
  (s.mapTile t (fun r => { r with calls := r.calls.filter (fun d => d.seq != c.seq) })).completeTicket t c.lane c.ticket len st

/-! ## Work slots -/

def ImageRec.slotAddr (i : ImageRec) (n : Nat) : Nat := i.workBase + n * i.slotSize

/-- The slot whose address is a, if the image has one there. -/
def ImageRec.slotAt (i : ImageRec) (a : Nat) : Option Nat :=
  (List.range i.workSlots).find? (fun n => i.slotAddr n == a)

/-- Table 3.6 as the hub writes it. -/
def slotBytes (w : WorkItem) : Bytes :=
  toLE 8 w.inHandle ++ toLE 4 w.storedLen ++ toLE 4 w.plainLen ++ toLE 1 w.codec ++ toLE 1 w.mediaType
    ++ toLE 1 w.dataset ++ toLE 1 w.flags ++ toLE 4 w.seekOffset ++ zeros 40 ++ (w.params.map (toLE 4)).flatten

/-- Writes an item into slot n of a tile (R92). -/
def State.putSlot (s : State) (t n : Nat) (w : WorkItem) : State :=
  match s.tileImage t with
  | none => s
  | some i => s.mapTile t (fun r =>
      { r with store := Mem.write r.store (i.slotAddr n) (slotBytes w), slots := Map.put r.slots n ⟨w, 0⟩, latest := some w })

/-- Writes an item into slot n, or holds it during a Rounds slice (R96). -/
def State.putItem (s : State) (t n : Nat) (w : WorkItem) : State :=
  match (s.tile t).slice with
  | some _ => s.mapTile t (fun r => { r with held := r.held ++ [.item n w] })
  | none => s.putSlot t n w

/-- Slots of a tile that hold an item or have one held for them. -/
def TileRec.busySlots (r : TileRec) : List Nat :=
  r.slots.keys ++ r.held.filterMap (fun h => match h with | .item n _ => some n | .done .. => none)

/-- Slots a new item may take. -/
def State.openSlots (s : State) (t : Nat) : List Nat :=
  match s.tileImage t with
  | none => []
  | some i => (List.range i.workSlots).filter (fun n => !((s.tile t).busySlots.contains n))

/-- Items of a tile that WORK.DONE has not returned. -/
def TileRec.items (r : TileRec) : List WorkItem :=
  r.slots.vals.map (·.item) ++ r.held.filterMap (fun h => match h with | .item _ w => some w | .done .. => none)

/-- Returns a tile's unfinished items to the front of the hub's queue for redispatch from their start (R102); shadow
copies are dropped. Their input handles stay with the hub. -/
def State.returnItems (s : State) (t : Nat) : State :=
  let s := (s.tile t).uncleared.foldl (fun s d => s.freeHandle d.outHandle) s
  let ws := ((s.tile t).items ++ (s.tile t).uncleared.map (·.item)).filter (fun w => w.copy == 0)
  let keep := fun h => match h with | .item .. => false | .done .. => true
  let s := s.mapTile t (fun r => { r with slots := [], uncleared := [], held := r.held.filter keep })
  { s with work := { s.work with queued := ws ++ s.work.queued } }

/-- Stops every lane and engine of a tile at once. -/
def State.stopTile (s : State) (t : Nat) : State :=
  let off := fun (_ : Nat) (x : Lane) => { x with run := .idle, stall := .none, tickets := [] }
  s.mapTile t (fun r => { r with calls := [], slice := none, held := [], lanes := Map.mapVals r.lanes off })

/-! ## Ranges of a call (Table 3.4) -/

def descIn (d : Bytes) : Nat × Nat := (fieldAt d 4 4, fieldAt d 8 4)
def descOut (d : Bytes) : Nat × Nat := (fieldAt d 12 4, fieldAt d 16 4)
def descAux (d : Bytes) : Nat × Nat := (fieldAt d 20 4, fieldAt d 24 4)

/-- Two ranges (start, length) share a byte. -/
def overlap (a b : Nat × Nat) : Bool := a.2 != 0 && b.2 != 0 && a.1 < b.1 + b.2 && b.1 < a.1 + a.2

/-- The call waits for an earlier call of its lane whose output overlaps its input or output (R84). -/
def TileRec.chained (r : TileRec) (c : Call) : Bool :=
  r.calls.any (fun d => d.lane == c.lane && d.seq < c.seq
    && (overlap (descIn c.desc) (descOut d.desc) || overlap (descOut c.desc) (descOut d.desc)))

/-- The call an engine of a tile executes next (R80): the first in acceptance order, unless it is chained or Rounds has
the tile. -/
def State.headCall (s : State) (t engine : Nat) : Option Call :=
  let r := s.tile t
  match r.calls.find? (fun c => c.engine == engine) with
  | none => none
  | some c => if r.chained c || (engine ≤ 5 && r.slice.isSome) then none else some c

/-- Runs the head call of an engine of tile t when its operation is `op`.
(DESIGN CHOICE, log entry 3.) -/
def State.onCall (s : State) (t engine op : Nat) (body : Call → State) : State :=
  match s.headCall t engine with
  | none => s
  | some c => if c.op = op then body c else s

/-- Bytes of the tile store. -/
def State.loadTile (s : State) (t a n : Nat) : Bytes := Mem.read (s.tile t).store a n

def State.storeTile (s : State) (t a : Nat) (d : Bytes) : State :=
  s.mapTile t (fun r => { r with store := Mem.write r.store a d })

/-- Writes a call's output and completes it. -/
def State.finishCall (s : State) (t : Nat) (c : Call) (e : EngRes) : State :=
  (s.storeTile t (descOut c.desc).1 e.out).completeCall t c e.len e.status

end Sys2Proof.Machine
end

