-- ==== Sys2Proof/Machine/SyncOps.lean ====
section
/-!
DEFINITION. Operations of the peg unit and the device barriers (R325 to R332).
-/
namespace Sys2Proof.Machine

/-- Source ID of the peg and barrier unit (Table 17.1). -/
def srcPEG : Nat := 0x0009

def State.pegsOf (s : State) (ctx : Nat) : Map Peg := Map.getD s.sync.pegs ctx []

def State.peg (s : State) (ctx v : Nat) : Option Peg := Map.find (s.pegsOf ctx) v

def State.setPegs (s : State) (ctx : Nat) (m : Map Peg) : State :=
  { s with sync := { s.sync with pegs := Map.put s.sync.pegs ctx m } }

/-- Completes every wait of the peg that its value satisfies (R325). -/
def State.retest (s : State) (ctx v : Nat) : State :=
  match s.peg ctx v with
  | none => s
  | some p =>
    let hit := fun (w : PegWait) => w.ctx == ctx && w.peg == v && w.value ≤ p.value
    let s' := { s with sync := { s.sync with waits := s.sync.waits.filter (fun w => !hit w) } }
    (s.sync.waits.filter hit).foldl (fun s w => s.completeTicket w.tile w.lane w.ticket 0 stOK) s'

/-- Writes a peg's value and re-tests every waiter. -/
def State.setPeg (s : State) (ctx v value : Nat) : State :=
  match s.peg ctx v with
  | none => s
  | some p => (s.setPegs ctx (Map.put (s.pegsOf ctx) v { p with value := value })).retest ctx v

/-- ADD (R325): not applied beyond 0xFFFF_FFFF, and then F2 with PEG_OVERFLOW. -/
def State.addPeg (s : State) (ctx v n : Nat) : Status × State :=
  match s.peg ctx v with
  | none => (stPEG_UNMAPPED, s)
  | some p =>
    if 0xFFFFFFFF < p.value + n then (stPEG_OVERFLOW, s.raise srcPEG stPEG_OVERFLOW 0 ctx .f2)
    else (stOK, s.setPeg ctx v (p.value + n))

/-- Completes every wait of a context that the test picks, with a status (R326, R333). -/
def State.endWaits (s : State) (ctx : Nat) (p : PegWait → Bool) (st : Status) : State :=
  let hit := fun (w : PegWait) => w.ctx == ctx && p w
  let s' := { s with sync := { s.sync with waits := s.sync.waits.filter (fun w => !hit w) } }
  (s.sync.waits.filter hit).foldl (fun s w => s.completeTicket w.tile w.lane w.ticket 0 st) s'

def State.mappedPegs (s : State) : Nat := (s.sync.pegs.map (fun e => e.2.length)).foldl (· + ·) 0

/-- A physical peg that no mapping uses: the first one not used from a free starting point (R326). -/
def State.freePhys (s : State) : Nat :=
  let used := (s.sync.pegs.map (fun e => e.2.vals.map (·.phys))).flatten
  ((List.range (used.length + 1)).map (fun i => (s.free 16 + i) % 65536)).find? (fun p => !used.contains p) |>.getD 0

/-! ## Device barriers -/

def State.barsOf (s : State) (ctx : Nat) : Map Dbar := Map.getD s.sync.bars ctx []

def State.setBar (s : State) (ctx v : Nat) (b : Dbar) : State :=
  { s with sync := { s.sync with bars := Map.put s.sync.bars ctx (Map.put (s.barsOf ctx) v b) } }

/-- Releases the barrier when every participant, and in STEP mode the gate scheduler, has arrived (R331): the sense
flips, the next generation opens over the READY tiles, and the waiters on the new sense complete. -/
def State.releaseBar (s : State) (ctx v : Nat) : State :=
  match Map.find (s.barsOf ctx) v with
  | none => s
  | some b =>
    if b.members.isEmpty || !b.members.all (b.arrived.contains ·) || (b.stepMode && !b.gate) then s
    else
      let sense := !b.sense
      let hit := fun (w : Nat × Nat × Nat × Bool) => w.2.2.2 == sense
      let b' : Dbar := { b with
        sense := sense
        gen := (b.gen + 1) % 2 ^ 16
        members := s.readyTiles ctx
        arrived := []
        gate := false
        waiters := b.waiters.filter (fun w => !hit w) }
      (b.waiters.filter hit).foldl (fun s w => s.completeTicket w.1 w.2.1 w.2.2.1 0 stOK) (s.setBar ctx v b')

/-- Runs an operation on every barrier of a context. -/
def State.eachBar (s : State) (ctx : Nat) (f : State → Nat → Dbar → State) : State :=
  (s.barsOf ctx).foldl (fun s e => f s e.1 e.2) s

/-- A participant that is fenced, drained or unseated leaves the current generation at once (R332). -/
def State.leaveBars (s : State) (ctx t : Nat) : State :=
  s.eachBar ctx (fun s v b =>
    (s.setBar ctx v { b with members := b.members.filter (· != t), arrived := b.arrived.filter (· != t) }).releaseBar ctx v)

/-- A tile that becomes READY opens the generation of a barrier that has no participant (log entry 31).
(DEDUCED, log entry 31.) -/
def State.joinBars (s : State) (ctx t : Nat) : State :=
  s.eachBar ctx (fun s v b => if b.members.isEmpty then s.setBar ctx v { b with members := [t] } else s)

/-- The gate scheduler arrives at a changeover on every STEP barrier (R330). -/
def State.gateArrive (s : State) : State :=
  s.sync.bars.keys.foldl (fun s ctx => s.eachBar ctx (fun s v b =>
    if b.stepMode then (s.setBar ctx v { b with gate := true }).releaseBar ctx v else s)) s

end Sys2Proof.Machine
end

