-- ==== Sys2Proof/Machine/NetOps.lean ====
section
/-!
DEFINITION. Operations of the network complex (R242 to R263): subports, queue pairs, posting and packets, completion of
requests, acknowledgements, the error state and its flush, windows, and rate control.
-/
namespace Sys2Proof.Machine

/-- Source IDs (Table 17.1). (PRESUMED, log entry 44.) -/
def srcROCE : Nat := 0x0011
def srcPORT (p : Nat) : Nat := 0x0200 + p

/-! ## Share (Table 15.4 in CTX_SHARE0 to CTX_SHARE3) -/

def State.shareVectors (s : State) (c : Nat) : Nat := bitsOf (s.reg (aCTX_SHARE0 c)) 8 8
def State.shareTiles (s : State) (c : Nat) : Nat := bitsOf (s.reg (aCTX_SHARE0 c)) 16 8
def State.shareQps (s : State) (c : Nat) : Nat := bitsOf (s.reg (aCTX_SHARE0 c)) 32 16
def State.shareWindows (s : State) (c : Nat) : Nat := bitsOf (s.reg (aCTX_SHARE0 c)) 48 16
def State.sharePegs (s : State) (c : Nat) : Nat := bitsOf (s.reg (aCTX_SHARE1 c)) 0 32
def State.shareDbars (s : State) (c : Nat) : Nat := bitsOf (s.reg (aCTX_SHARE1 c)) 32 16
def State.quantum (s : State) (c : Nat) : Nat := bitsOf (s.reg (aCTX_SHARE1 c)) 48 16
def State.slotBase (s : State) (c : Nat) : Nat := bitsOf (s.reg (aCTX_SHARE2 c)) 0 16
def State.slotCount (s : State) (c : Nat) : Nat := bitsOf (s.reg (aCTX_SHARE2 c)) 16 16
def State.mediaWrPct (s : State) (c : Nat) : Nat := bitsOf (s.reg (aCTX_SHARE2 c)) 40 8

/-! ## Subports (R242, R248) -/

def subKey (port sub : Nat) : Nat := port * 4 + sub

/-- Subports of a mode (Table 10.1). -/
def modeSubs (mode : Nat) : Nat := if mode = 0 then 1 else if mode = 1 then 2 else if mode = 2 then 4 else 0

def State.portPresent (s : State) (p : Nat) : Bool := p < s.hw.variant.ports

def State.subPresent (s : State) (p sub : Nat) : Bool :=
  s.portPresent p && sub < modeSubs (s.fld (fNET_PORT_CFG_MODE p))

/-- Rate of a port's subports in Gb/s. -/
def State.portRate (s : State) (p : Nat) : Nat :=
  match s.fld (fNET_PORT_CFG_MODE p) with
  | 0 => 800 | 1 => 400 | _ => 200

/-- The guard band G (R231). -/
def State.guard (s : State) (p : Nat) : Nat := ceilDiv (8 * 4352) (s.portRate p)

def State.linkUp (s : State) (p sub : Nat) : Bool := s.fld ((fNET_PORT_STATUS_LINK p).bit sub) == 1

/-- MACsec state of a subport: 0 NONE, 1 PENDING, 2 SECURED, 3 FAILED. -/
def State.macsec (s : State) (p sub : Nat) : Nat := bitsOf (s.fld (fNET_PORT_STATUS_MACSEC_STATE p)) (2 * sub) 2

def State.setMacsec (s : State) (p sub v : Nat) : State :=
  s.setFld (fNET_PORT_STATUS_MACSEC_STATE p) (putBits (s.fld (fNET_PORT_STATUS_MACSEC_STATE p)) (2 * sub) 2 v)

def State.dropOther (s : State) (p : Nat) : State := s.bump (fNET_PORT_DROP_COUNT_OTHER p) 1
def State.dropStale (s : State) (p : Nat) : State := s.bump (fNET_PORT_DROP_COUNT_STALE p) 1

/-! ## Queue pairs (R251) -/

def qpnOf (idx gen : Nat) : Nat := gen * 2 ^ 14 + idx

def State.qp (s : State) (idx : Nat) : Option Qp := Map.find s.net.qps idx

def State.setQp (s : State) (idx : Nat) (q : Qp) : State := { s with net := { s.net with qps := Map.put s.net.qps idx q } }

def State.delQp (s : State) (idx : Nat) : State := { s with net := { s.net with qps := Map.del s.net.qps idx } }

/-- The open queue pair a number names in its current generation. -/
def State.findQpn (s : State) (qpn : Nat) : Option (Nat × Qp) :=
  match s.qp (qpn % 2 ^ 14) with
  | some q => if q.gen = qpn / 2 ^ 14 then some (qpn % 2 ^ 14, q) else none
  | none => none

def State.qpsOf (s : State) (c : Nat) : Nat := (s.net.qps.filter (fun e => e.2.ctx == c && !e.2.serves)).length

/-- The first number from start + i on, modulo n, that is not taken, among the next `fuel`. -/
def freeFrom (n start : Nat) (taken : Nat → Bool) : Nat → Nat → Option Nat
  | 0, _ => none
  | fuel + 1, i => if taken ((start + i) % n) then freeFrom n start taken fuel (i + 1) else some ((start + i) % n)

/-- A free index from a free starting point (R377: chosen at random). -/
def firstFree (n start : Nat) (taken : Nat → Bool) : Option Nat := freeFrom n start taken n 0

/-- psn a + n modulo 2^24, and the distance from b up to a. -/
def psnAdd (a n : Nat) : Nat := (n + a) % 2 ^ 24
def psnDiff (a b : Nat) : Nat := (2 ^ 24 + a - b) % 2 ^ 24

/-- Opens a queue pair in INIT (Table 10.5): the index and state, or NET_QP_EXHAUSTED. -/
def State.openQp (s : State) (serves : Bool) (kind : QpKind) (cls ctx pd port sub pmtu timeout retry initD respD : Nat) :
    Except Status (Nat × State) :=
  if (!serves ∧ s.shareQps ctx ≤ s.qpsOf ctx) ∨ 16384 ≤ s.net.qps.length then .error stNET_QP_EXHAUSTED
  else match firstFree 16384 (s.free 14) (fun i => Map.has s.net.qps i) with
    | none => .error stNET_QP_EXHAUSTED
    | some i =>
      let gen := Map.getD s.net.gens i 1
      let q : Qp := {
        gen := gen, kind := kind, cls := cls, ctx := ctx, pd := pd, port := port, sub := sub, peerGid := [],
        peerQpn := 0, pmtu := pmtu, timeout := timeout, retryCnt := retry, initDepth := initD, respDepth := respD,
        state := .init, flushed := false, cause := stOK, sends := [], nextPsn := 0, unacked := 0, retries := 0,
        timer := none, ePsn := 0, gapNak := false, rx := none, coalesce := none, rate := s.fld fNET_RC_CFG1_START_MBPS,
        tAdj := 0, paceAt := 0, probes := [], sealSeq := 0, sealHigh := none, sealSeen := [], peerRank := 0, serves := serves }
      .ok (i, s.used.setQp i q)

/-- Connects a queue pair in INIT: responder, then requester (INIT to RTR to RTS).
(DESIGN CHOICE, log entry 50.) -/
def Qp.connect (q : Qp) (gid : Bytes) (qpn sqPsn ePsn : Nat) : Qp :=
  { q with peerGid := gid, peerQpn := qpn, nextPsn := sqPsn % 2 ^ 24, unacked := sqPsn % 2 ^ 24, ePsn := ePsn % 2 ^ 24,
           state := .rts }

/-- Frees a flushed queue pair's index and advances its generation (R251). -/
def State.destroyQp (s : State) (idx : Nat) : State :=
  match s.qp idx with
  | none => s
  | some q =>
    let s := s.delQp idx
    { s with net := { s.net with gens := Map.put s.net.gens idx (if q.gen = 1023 then 1 else q.gen + 1) } }

/-! ## Packets of a request -/

/-- Wire bytes of a frame: its data and the largest overhead of R231 (log entry 42).
(PRESUMED, log entry 42.) -/
def wireBytes (n : Nat) : Nat := n + 256

/-- Packets a request takes: data in path-MTU pieces, at least one. -/
def Wr.count (w : Wr) (pmtu : Nat) : Nat :=
  match w with
  | .write _ _ _ d => max 1 (ceilDiv d.length pmtu)
  | .read _ _ len => max 1 (ceilDiv len pmtu)

/-- AckReq: the last packet of a message and every 2^ACK_LOG2-th packet (R255).
(DEDUCED, log entry 51.) -/
def ackReq (s : State) (psn : Nat) (last : Bool) : Bool := last || psn % 2 ^ (s.fld fNET_RC_CFG1_ACK_LOG2) == 0

def frameOf (q : Qp) (idx bytes now : Nat) (b : Pkt) : EgFrame :=
  { port := q.port, sub := q.sub, cls := q.cls, ctx := q.ctx, qp := some idx, bytes := wireBytes bytes, at_ := now, body := b }

/-- The packets of an issued request from packet `from_` on. -/
def State.packetsOf (s : State) (idx : Nat) (q : Qp) (r : WorkReq) (from_ : Nat) : List EgFrame :=
  match r.what with
  | .read addr key len => [frameOf q idx 0 s.dtime (.readReq q.peerQpn r.psn addr key len)]
  | .write addr key imm d =>
    ((List.range r.count).drop from_).map (fun i =>
      let piece := (d.drop (i * q.pmtu)).take q.pmtu
      let last := i + 1 == r.count
      let psn := psnAdd r.psn i
      frameOf q idx piece.length s.dtime
        (.write q.peerQpn psn last (ackReq s psn last) (if i = 0 then some (addr, key, d.length) else none)
          (if last then imm else none) piece))

def Wr.isRead : Wr → Bool
  | .read .. => true
  | .write .. => false

/-- RDMA READs outstanding on a queue pair, and on the device (R257). -/
def Qp.reads (q : Qp) : Nat := (q.sends.filter (fun r => r.issued && r.what.isRead)).length
def State.readsOut (s : State) : Nat := (s.net.qps.vals.map Qp.reads).foldl (· + ·) 0

def State.enqueue (s : State) (fs : List EgFrame) : State := { s with net := { s.net with egress := s.net.egress ++ fs } }

/-- Issues waiting requests in posting order until a READ must wait (R257). -/
def State.pump (s : State) (idx : Nat) : Nat → State
  | 0 => s
  | fuel + 1 =>
    match s.qp idx with
    | none => s
    | some q =>
      match q.sends.findIdx? (fun r => !r.issued) with
      | none => s
      | some i => match q.sends[i]? with
        | none => s
        | some r =>
          if q.state ≠ .rts then s
          else if r.what.isRead ∧ (q.initDepth ≤ q.reads ∨ 32768 ≤ s.readsOut) then s
          else
            let n := r.what.count q.pmtu
            let r := { r with issued := true, psn := q.nextPsn, count := n }
            let q := { q with sends := q.sends.set i r, nextPsn := psnAdd q.nextPsn n }
            State.pump ((s.setQp idx q).enqueue (s.packetsOf idx q r 0)) idx fuel

/-- Posts a request (SQ_DEPTH 1,024 outstanding); in ERR it completes with NET_FLUSHED. -/
def State.post (s : State) (idx : Nat) (w : Wr) (o : WrFor) : State :=
  match s.qp idx with
  | none => { s with net := { s.net with finished := s.net.finished ++ [(o, stNET_FLUSHED, [])] } }
  | some q =>
    if q.state = .err then { s with net := { s.net with finished := s.net.finished ++ [(o, stNET_FLUSHED, [])] } }
    else
      let q := { q with sends := q.sends ++ [{ what := w, owner := o, issued := false, psn := 0, count := 0, got := [] }] }
      (s.setQp idx q).pump idx q.sends.length

/-! ## Completion of requests (R258) -/

/-- The credit word read from a consumer (R212): below an earlier value, or above the bound, is F2 with CONS_CREDIT. -/
def State.creditRead (s : State) (c consumer v : Nat) : State :=
  match s.runOf c with
  | none => s
  | some r =>
    let old := (Map.find r.credits consumer).bind (·.released)
    let u := s.fld fSTEP_LAST_STEP - r.cfg.firstStep
    let bound := (u + r.cfg.pack.lead + 2) * r.cfg.pack.rows
    let s := s.mapRun c (fun r => { r with credits := Map.adjust r.credits consumer (fun x =>
      { x with released := some v, reading := false, readAt := s.dtime }) })
    if v < old.getD 0 ∨ bound < v then s.raise 0x000D stCONS_CREDIT 0 c .f2 else s

/-- A row's phase once a write of it was acknowledged (R213). -/
def RowRec.acked (r : RowRec) : RowRec :=
  let r := { r with pend := r.pend - 1 }
  if r.phase = .stamp ∧ r.pend = 0 then { r with phase := .stamped } else r

/-- What a completed request does for the block that posted it. -/
def State.wrDone (s : State) (o : WrFor) (st : Status) (got : Bytes) : State :=
  match o with
  | .exchange _ _ _ _ _ h => if st = stOK then s.freeHandle h else s
  | .rowPart c step consumer row _ =>
    if st ≠ stOK then s
    else s.mapRun c (fun r => { r with rows := r.rows.map (fun w =>
      if w.step = step ∧ w.consumer = consumer ∧ w.row = row then w.acked else w) })
  | .credit c consumer =>
    if st = stOK then s.creditRead c consumer (leNat (got.take 8))
    else s.mapRun c (fun r => { r with credits := Map.adjust r.credits consumer (fun x => { x with reading := false }) })
  | .plain => s
  | _ => { s with net := { s.net with finished := s.net.finished ++ [(o, st, got)] } }

/-- Requests of a queue pair that an acknowledgement up to a PSN completes: writes whose last PSN it covers, and reads
all of whose bytes have come. -/
def WorkReq.covered (r : WorkReq) (psn : Nat) : Bool :=
  r.issued && psnDiff psn (psnAdd r.psn (r.count - 1)) < 2 ^ 23
    && (match r.what with | .read _ _ len => len ≤ r.got.length | .write .. => true)

/-- Completes requests from the front in posting order while they are covered. -/
def State.completeFront (s : State) (idx psn : Nat) : Nat → State
  | 0 => s
  | fuel + 1 => match s.qp idx with
    | none => s
    | some q => match q.sends with
      | [] => s
      | r :: rest =>
        if r.covered psn then
          State.completeFront ((s.setQp idx { q with sends := rest }).wrDone r.owner stOK r.got) idx psn fuel
        else s

/-! ## Rate control (R263) -/

def Qp.paced (q : Qp) : Bool := q.cls == 1 || q.cls == 2 || q.cls == 3 || q.cls == 5

/-- on_ack of R263. -/
def Qp.onRtt (q : Qp) (now rtt target ai beta minRate line : Nat) : Qp :=
  if now - q.tAdj < rtt then q
  else if rtt ≤ target then { q with tAdj := now, rate := min (q.rate + ai) line }
  else
    let cut := q.rate * beta * (rtt - target) / (256 * rtt)
    { q with tAdj := now, rate := max (q.rate - cut) minRate }

/-- on_timer_expiry of R263. -/
def Qp.onExpiry (q : Qp) (now minRate : Nat) : Qp := { q with rate := max (q.rate / 2) minRate, tAdj := now }

/-- A round trip measured by an acknowledgement that covers a probe. -/
def State.measure (s : State) (idx psn : Nat) : State :=
  match s.qp idx with
  | none => s
  | some q =>
    match q.probes.filter (fun p => psnDiff psn p.1 < 2 ^ 23) with
    | [] => s
    | ps =>
      let rtt := s.dtime - (ps.getLast?.map (·.2)).getD s.dtime
      let q := { q with probes := q.probes.filter (fun p => !ps.contains p) }
      if !q.paced then s.setQp idx q
      else s.setQp idx (q.onRtt s.dtime rtt (s.fld fNET_RC_CFG0_TARGET_NS) (s.fld fNET_RC_CFG0_AI_MBPS)
        (s.fld fNET_RC_CFG0_BETA_Q8) (s.fld fNET_RC_CFG1_MIN_MBPS) (s.portRate q.port * 1000))

/-- An acknowledgement of every packet up to a PSN (R256): the timer restarts while packets are outstanding. -/
def State.ackUpTo (s : State) (idx psn : Nat) : State :=
  match s.qp idx with
  | none => s
  | some q =>
    if psnDiff q.nextPsn q.unacked ≤ psnDiff psn q.unacked then s
    else
      let una := psnAdd psn 1
      let q' := { q with unacked := una, retries := 0, timer := if una = q.nextPsn then none else some s.dtime }
      let s := ((s.setQp idx q').measure idx psn).completeFront idx psn q.sends.length
      s.pump idx 1024

/-- Goes back to the oldest unacknowledged PSN (R256): its packets are queued again.
(DEDUCED, log entry 51.) -/
def State.goBack (s : State) (idx : Nat) : State :=
  match s.qp idx with
  | none => s
  | some q =>
    let mine := fun (f : EgFrame) => f.qp == some idx && (match f.body with
      | .write .. => true | .readReq .. => true | _ => false)
    let again := (q.sends.filter (·.issued)).map (fun r =>
      let done := psnDiff q.unacked r.psn
      s.packetsOf idx q r (if done < r.count then done else if done < 2 ^ 23 then r.count else 0))
    let q := { q with timer := some s.dtime, probes := [],
                      sends := q.sends.map (fun r => if r.issued && r.what.isRead then { r with got := [] } else r) }
    let s := s.setQp idx q
    { s with net := { s.net with egress := s.net.egress.filter (fun f => !mine f) ++ again.flatten } }

/-! ## The error state (R258, R259) -/

/-- Completes outstanding requests: the oldest with the cause, the rest with NET_FLUSHED, in posting order. -/
def State.flushAll (s : State) (cause : Status) : List WorkReq → State
  | [] => s
  | r :: rest => State.flushAll (s.wrDone r.owner cause []) stNET_FLUSHED rest

/-- A queue pair enters ERR with a cause; `quiet` for the causes that report nothing of their own (close, reset, abort). -/
def State.qpError (s : State) (idx : Nat) (cause : Status) (quiet : Bool) : State :=
  match s.qp idx with
  | none => s
  | some q =>
    if q.state = .err then s
    else
      let s := s.setQp idx { q with state := .err, cause := cause, sends := [], timer := none, coalesce := none, rx := none }
      let s := { s with net := { s.net with egress := s.net.egress.filter (fun f => f.qp != some idx || (match f.body with
        | .ack .. => true | _ => false)) } }
      let s := s.flushAll cause q.sends
      if quiet then s
      else match q.kind with
        | .peer => s.raise srcROCE cause 0 q.ctx .f2
        | .consumer => s.raise srcROCE stDELIVER_FAILED 0 q.ctx .f2
        | .client => s.raise srcROCE cause 0 q.ctx .f0

/-- An answer of the responder. -/
def State.reply (s : State) (idx psn : Nat) (k : AckKind) : State :=
  match s.qp idx with
  | none => s
  | some q => s.enqueue [frameOf q idx 0 s.dtime (.ack q.peerQpn psn k)]

/-! ## Windows (R260 to R262) -/

def keyOf (idx tag : Nat) : Nat := idx * 2 ^ 16 + tag

def State.windowsOf (s : State) (c : Nat) : Nat := (s.net.windows.filter (fun e => e.2.isOpen && e.2.ctx == c)).length

/-- Opens a window at a free index; its tag advances and skips 0. -/
def State.openWindow (s : State) (ctx pd : Nat) (kind : WinKind) (len : Nat) (w r : Bool) : Except Status (Nat × State) :=
  let busy := fun i => match Map.find s.net.windows i with
    | some x => x.isOpen || x.closing.isSome
    | none => false
  if s.shareWindows ctx ≤ s.windowsOf ctx then .error stNET_WINDOW_EXHAUSTED
  else match firstFree 65536 (s.free 16) busy with
    | none => .error stNET_WINDOW_EXHAUSTED
    | some i =>
      let old := ((Map.find s.net.windows i).map (·.tag)).getD 0
      let tag := if old + 1 = 65536 then 1 else old + 1
      let x : Window := { tag := tag, ctx := ctx, pd := pd, kind := kind, len := len, canWrite := w, canRead := r,
                          isOpen := true, closing := none }
      .ok (keyOf i tag, { s.used with net := { s.net with windows := Map.put s.net.windows i x } })

/-- Revokes a window at once (R262). -/
def State.revoke (s : State) (i : Nat) : State :=
  { s with net := { s.net with windows := Map.adjust s.net.windows i (fun x =>
      { x with isOpen := false, closing := some s.dtime }) } }

/-- The window a key names, when it is open and its tag current. -/
def State.windowAt (s : State) (key : Nat) : Option Window :=
  match Map.find s.net.windows (key / 2 ^ 16) with
  | some x => if x.isOpen ∧ x.tag = key % 2 ^ 16 then some x else none
  | none => none

end Sys2Proof.Machine
end

