-- ==== Sys2Proof/Machine/StepOps.lean ====
section
/-!
DEFINITION. The step timeline as a function of its history (R221), effective gates (R231), time uncertainty and time
quality (R228, R229), and deadlines (R238).
-/
namespace Sys2Proof.Machine

/-! States of Table 9.2. -/
def tlNONE : Nat := 0
def tlACQUIRING : Nat := 1
def tlLOCKED : Nat := 2
def tlEXTRAPOLATING : Nat := 3
def tlPAUSED : Nat := 4
def tlHOLD : Nat := 5

/-- Source ID of the gate scheduler (Table 17.1). (PRESUMED, log entry 44.) -/
def srcGATE : Nat := 0x000E

def State.timeline (s : State) : Nat := s.fld fSTEP_STATUS_TIMELINE

/-- The timeline predicts in LOCKED, EXTRAPOLATING and PAUSED. -/
def State.predicts (s : State) : Bool :=
  s.timeline == tlLOCKED || s.timeline == tlEXTRAPOLATING || s.timeline == tlPAUSED

def State.setTimeline (s : State) (v : Nat) : State := s.setFld fSTEP_STATUS_TIMELINE v

def State.period (s : State) : Nat := s.reg aSTEP_PERIOD

def State.newest (s : State) : Option (Nat × Nat) := s.clk.history.getLast?

/-- P of a history (R221); none for fewer than two entries. -/
def periodOf (h : List (Nat × Nat)) : Option Nat :=
  match h.head?, h.getLast? with
  | some a, some n => if a.1 < n.1 then some ((n.2 - a.2) / (n.1 - a.1)) else none
  | _, _ => none

/-- |a − b|. -/
def absDiff (a b : Nat) : Nat := if a ≤ b then b - a else a - b

/-- J of a history (R221). -/
def jitterOf (p : Nat) : List (Nat × Nat) → Nat
  | a :: b :: r => max (absDiff ((b.2 - a.2) / (b.1 - a.1)) p) (jitterOf p (b :: r))
  | _ => 0

/-- T(x) (R221): the START of a history entry, or the prediction past the newest one. -/
def State.startOf (s : State) (x : Nat) : Option Nat :=
  match s.clk.history.find? (fun e => e.1 == x), s.newest with
  | some e, _ => some e.2
  | none, some n => if n.1 < x ∧ s.predicts then some (n.2 + (x - n.1) * s.period) else none
  | none, none => none

/-- GRACE in effect (R221). -/
def State.grace (s : State) : Nat := min (s.fld fSTEP_CFG_GRACE * 1000) (s.period / 2)

def State.beaconTol (s : State) : Nat := s.fld fSTEP_CFG_BEACON_TOL * 1000

/-- U_s of a step (R231): 0 in the history, else k × max(J, 1,000 ns). -/
def State.stepUncert (s : State) (x : Nat) : Nat :=
  match s.newest with
  | some n => if n.1 < x then (x - n.1) * max (jitterOf s.period s.clk.history) 1000 else 0
  | none => 0

/-! ## Gates -/

structure GateEntry where
  cls : Nat
  start : Nat
  len : Nat
  ports : Nat
  deriving DecidableEq, Repr

/-- Gate plan entry n, when valid. -/
def State.gateEntry (s : State) (n : Nat) : Option GateEntry :=
  if s.fld (fSTEP_GATE_PLANn_VALID n) = 1 then
    some { cls := s.fld (fSTEP_GATE_PLANn_CLASS n), start := s.fld (fSTEP_GATE_PLANn_START n) * 1000,
           len := s.fld (fSTEP_GATE_PLANn_LEN n) * 1000, ports := s.fld (fSTEP_GATE_PORTSn_PORTS n) }
  else none

/-- The nominal gate of an entry in step x, cut to its compute phase. -/
def State.nominalGate (s : State) (e : GateEntry) (x : Nat) : Option (Nat × Nat) :=
  match s.startOf x with
  | some t => some (t + e.start, min (t + e.start + e.len) (t + s.clk.computeLen))
  | none => none

/-- The effective gate of an entry in step x (R231); none when it has no length or U is unbounded. -/
def State.effectiveGate (s : State) (e : GateEntry) (x : Nat) : Option (Nat × Nat) :=
  match s.nominalGate e x, s.clk.uncert with
  | some (o, c), some u =>
    let n := u + s.stepUncert x
    if o + n + n < c then some (o + n, c - n) else none
  | _, _ => none

/-- Close of the last effective TC2 gate before a time, over the entries and the steps before t; the time itself when there
is none (log entry 43). (DEDUCED, log entry 43.) -/
def State.deadlineOf (s : State) (t : Nat) : Option Nat :=
  match s.startOf t with
  | none => none
  | some tt =>
    let closes := ((List.range 32).map (fun n => match s.gateEntry n with
      | some e => if e.cls = 2 then
          (List.range 9).filterMap (fun i => if i + 1 ≤ t then
            (s.effectiveGate e (t - 1 - i)).map (·.2) else none)
        else []
      | none => [])).flatten
    some ((closes.filter (· ≤ tt)).foldl max 0 |> fun m => if m = 0 then tt else m)

/-! ## Ungated classes (R230) -/

/-- TC3 and TC5 are ungated, and TC1 and TC2 do not transmit. -/
def State.ungated (s : State) : Bool :=
  let t := s.timeline
  t == tlNONE || t == tlACQUIRING || t == tlHOLD
    || (t == tlPAUSED && (match s.newest with | some n => n.2 + s.period ≤ s.dtime | none => false))

def shaperKey (port sub cls ctx : Nat) : Nat := (subKey port sub * 8 + cls) * 64 + ctx

/-- The classes that become ungated start gaining credit now. -/
def State.enterUngated (s : State) : State :=
  let keys := s.net.shaperCfg.keys.filter (fun k => k / 64 % 8 == 3 || k / 64 % 8 == 5)
  -- a shaper configuration is per port; its credit is per subport
  let subs := keys.flatMap (fun k => (List.range 4).map (fun u => shaperKey (k / 2048) u (k / 64 % 8) (k % 64)))
  { s with net := { s.net with
      gates := []
      shapers := subs.foldl (fun m k => Map.put m k { credit := 0, since := s.dtime }) s.net.shapers } }

/-! ## Time (R228, R229) -/

/-- U now: the servo offset, PATH_BOUND, and the drift since the last sync once two sync intervals have passed. -/
def State.uncertNow (s : State) : Option Nat :=
  match s.clk.syncAt with
  | none => none
  | some t =>
    let tau := s.dtime - t
    let tau := if 2 * s.clk.syncInterval < tau then tau else 0
    some (s.clk.servoOffset + s.fld fSTEP_TIME_CFG_PATH_BOUND + s.fld fSTEP_TIME_CFG_DRIFT_PPB * tau / 10 ^ 9)

/-- Quality of an uncertainty: 0 GOOD, 1 DEGRADED, 2 LOST. -/
def State.qualityOf (s : State) (u : Option Nat) : Nat :=
  match u with
  | none => 2
  | some u =>
    if u ≤ s.fld fSTEP_TIME_CFG_U_WARN * 1000 then 0 else if u ≤ s.fld fSTEP_TIME_CFG_U_MAX * 1000 then 1 else 2

def State.enterQuality (s : State) (q : Nat) : State :=
  let s := s.setFld fSTEP_STATUS_TIME q
  if q = 1 then s.raise srcGATE stTIME_DEGRADED 0 noCtx .f0
  else if q = 2 then (s.flag fSTEP_ERR_TIME_LOST).raise srcGATE stTIME_LOST 0 noCtx .f0
  else s

/-- The next step boundary after now. -/
def State.nextBoundary (s : State) : Option Nat :=
  if !s.predicts then none
  else match s.newest with
    | none => none
    | some n => if s.period = 0 then none
      else if s.dtime < n.2 then some n.2 else some (n.2 + ((s.dtime - n.2) / s.period + 1) * s.period)

/-- Recomputes U and moves the time quality: to a worse state at once, to a better one at the next step boundary.
(DESIGN CHOICE, log entry 88.) -/
def State.recomputeUncert (s : State) : State :=
  let u := s.uncertNow
  let shown := match u with | some v => min v 0xFFFFFFFF | none => 0xFFFFFFFF
  let s := s.setFld fSTEP_UNCERT_TIME_NS shown
  let s := s.setFld fSTEP_UNCERT_STEP_NS (min (s.stepUncert (s.fld fSTEP_LAST_STEP + 1)) 0xFFFFFFFF)
  let s := { s with clk := { s.clk with uncert := u, uncertainAt := s.dtime } }
  let q := s.qualityOf u
  let cur := s.fld fSTEP_STATUS_TIME
  if cur < q then ({ s with clk := { s.clk with better := none } }).enterQuality q
  else if q = cur then { s with clk := { s.clk with better := none } }
  else match s.clk.better, s.nextBoundary with
    | some (_, at'), _ => if at' ≤ s.dtime then ({ s with clk := { s.clk with better := none } }).enterQuality q
      else { s with clk := { s.clk with better := some (q, at') } }
    | none, some b => { s with clk := { s.clk with better := some (q, b) } }
    | none, none => s.enterQuality q

end Sys2Proof.Machine
end

