-- ==== Sys2Proof/Machine/Egress.lean ====
section
/-!
DEFINITION. Gates, shapers and the start of frames (R230 to R237), queue telemetry (R235), the uncertainty of time (R228,
R229), and subports: links, MACsec and PFC (R244 to R248).
-/
namespace Sys2Proof.Machine

/-! ## Gates -/

/-- The latest step whose predicted start has passed, among those a gate can belong to. -/
def State.gateStep (s : State) : Option Nat :=
  let last := s.fld fSTEP_LAST_STEP
  let steps := if s.timeline = tlPAUSED then [last] else [last + 1, last]
  steps.find? (fun x => match s.startOf x with | some t => t ≤ s.dtime | none => false)

/-- The timeline lets gates open now (R227, R230). -/
def State.gatesRun (s : State) : Bool := s.predicts && !s.ungated

def State.setGates (s : State) (m : Map OpenGate) : State := { s with net := { s.net with gates := m } }

/-- Shapers of a subport and class start from credit 0 now. -/
def State.zeroShapers (s : State) (port sub cls : Nat) : State :=
  let cfg := s.net.shaperCfg.keys.filter (fun k => k / 2048 == port && k / 64 % 8 == cls)
  let fresh : Shaper := { credit := 0, since := s.dtime }
  { s with net := { s.net with shapers := cfg.foldl (fun m k => Map.put m (shaperKey port sub cls (k % 64)) fresh) s.net.shapers } }

/-- A gate entry opens on a subport, or is skipped when its effective gate is shorter than 2G (R231). -/
def State.openGate (s : State) (port sub entry : Nat) : State :=
  match s.gateEntry entry, s.gateStep with
  | some e, some x =>
    match s.nominalGate e x with
    | none => s
    | some (o, c) =>
      let k := subKey port sub
      let tag := (k, entry, x)
      let g := s.guard port
      if !bitOf e.ports port || s.dtime < o || c ≤ s.dtime || s.net.skipped.contains tag || Map.has s.net.gates k then s
      else
        let skip := fun (s : State) =>
          ({ s with net := { s.net with skipped := s.net.skipped ++ [tag] } }).bump fSTEP_SKIP_COUNT_COUNT 1
        match s.effectiveGate e x with
        | none => skip s
        | some (eo, ec) =>
          if ec - eo < 2 * g then skip s
          else if s.dtime < eo ∨ ec ≤ s.dtime then s
          else if (e.cls = 1 ∨ e.cls = 2) ∧ s.fld fSTEP_STATUS_TIME = 2 then s
          else
            (s.setGates (Map.put s.net.gates k
              { entry := entry, cls := e.cls, step := x, close := ec, lastStart := ec - g })).zeroShapers port sub e.cls
  | _, _ => s

/-- GATE_OPEN (R231). An effective gate opens on its ports, resetting its shaper credit, or is skipped when
shorter than 2G. -/
def execGateOpen (port : Fin 32) (sub : Fin 4) (entry : Fin 32) (s : State) : Step' :=
  act s (fun s => if s.gatesRun && s.subPresent port sub then s.openGate port sub entry else s)

/-- The close of the gate: its shaper credit is discarded (R233). -/
def execGateClose (port : Fin 32) (sub : Fin 4) (s : State) : Step' :=
  act s (fun s => match Map.find s.net.gates (subKey port sub) with
    | none => s
    | some g =>
      if s.dtime < g.close then s
      else (s.setGates (Map.del s.net.gates (subKey port sub))).zeroShapers port sub g.cls)

/-- PAUSED_STEP_END (R230). At T(x) + P of a paused step x, TC3 and TC5 become ungated and begin gaining
shaper credit, and TC1 and TC2 stop transmitting. -/
def execPausedStepEnd (s : State) : Step' :=
  act s (fun s => if s.timeline = tlPAUSED ∧ s.ungated then s.enterUngated else s)

/-! ## Frame selection (R230, R233, R248, R263) -/

/-- RATE and BURST of a class and context on a port; TC0 has the fixed shaper of R236. -/
def State.shaperOf (s : State) (port cls ctx : Nat) : Option ShaperCfg :=
  if cls = 0 then some { rate := 256, burst := 64 } else Map.find s.net.shaperCfg (shaperKey port 0 cls ctx)

/-- Credit now, in units of 1/256,000 packet: RATE per ns up to BURST. -/
def State.creditNow (s : State) (port sub cls ctx : Nat) : Nat :=
  match s.shaperOf port cls ctx with
  | none => 0
  | some c =>
    let sh := Map.getD s.net.shapers (shaperKey port sub cls ctx) { credit := 0, since := 0 }
    min (sh.credit + (s.dtime - sh.since) * c.rate) (c.burst * 256000)

def State.spendCredit (s : State) (port sub cls ctx : Nat) : State :=
  let c := s.creditNow port sub cls ctx - 256000
  { s with net := { s.net with shapers := Map.put s.net.shapers (shaperKey port sub cls ctx) { credit := c, since := s.dtime } } }

def dataClass (cls : Nat) : Bool := cls == 1 || cls == 2 || cls == 3 || cls == 5

/-- A queued frame may start now, its class and shaper apart: its queue pair's pace, and MACsec for tenant data. -/
def State.frameFree (s : State) (f : EgFrame) : Bool :=
  let paced := match f.qp with
    | some i => match s.qp i with
      | some q => if q.paced then q.paceAt ≤ s.dtime else true
      | none => false
    | none => true
  let split := s.lan.noQuorum && 1 ≤ f.cls && f.cls ≤ 3 && (s.runOf f.ctx).isSome
  paced && !split && (!(dataClass f.cls && f.ctx != 0) || s.macsec f.port f.sub == 2)

/-- Queued frames of a subport and class. -/
def State.queueAt (s : State) (port sub cls : Nat) : List EgFrame :=
  s.net.egress.filter (fun f => f.port == port && f.sub == sub && f.cls == cls)

/-- The next frame of a shaped class: contexts in round-robin order after the one served last. -/
def State.shapedFrame (s : State) (port sub cls : Nat) : Option EgFrame :=
  let q := s.queueAt port sub cls
  let last := Map.getD s.net.lastCtx (subKey port sub * 8 + cls) 63
  let order := (List.range 64).map (fun i => (last + 1 + i) % 64)
  let ctxs := order.filter (fun c => 256000 ≤ s.creditNow port sub cls c)
  (ctxs.filterMap (fun c => q.find? (fun f => f.ctx == c && s.frameFree f))).head?

/-- The gated class open on a subport, within its frame-start window; or an ungated TC3 or TC5. -/
def State.openClasses (s : State) (port sub : Nat) : List Nat :=
  if s.ungated then [3, 5]
  else match Map.find s.net.gates (subKey port sub) with
    | some g =>
      if s.dtime ≤ g.lastStart ∧ !((g.cls = 1 ∨ g.cls = 2) ∧ s.fld fSTEP_STATUS_TIME = 2) then [g.cls] else []
    | none => []

def State.tc0Paused (s : State) (port sub : Nat) : Bool :=
  match Map.find s.net.subs (subKey port sub) with
  | some x => match x.pausedUntil with | some t => s.dtime < t | none => false
  | none => false

/-- TC0 frames share one shaper per subport. -/
def State.tc0Frame (s : State) (port sub : Nat) : Option EgFrame :=
  if s.tc0Paused port sub ∨ s.creditNow port sub 0 0 < 256000 then none
  else (s.queueAt port sub 0).find? s.frameFree

/-- The frame a subport starts next (R230). -/
def State.nextFrame (s : State) (port sub : Nat) : Option EgFrame :=
  match s.tc0Frame port sub, (s.queueAt port sub 4).head?, (s.queueAt port sub 7).head? with
  | some f, _, _ => some f
  | none, some f, _ => some f
  | none, none, some f => some f
  | none, none, none => ((s.openClasses port sub).filterMap (s.shapedFrame port sub)).head?

/-- Removes the first copy of a frame from the egress queues. -/
def State.dequeue (s : State) (f : EgFrame) : State := { s with net := { s.net with egress := s.net.egress.erase f } }

/-- What starting a packet does to its queue pair: timer, round-trip probe, pace, SEAL_SEQ. -/
def Qp.started (q : Qp) (now : Nat) (f : EgFrame) : Qp :=
  let requests := match f.body with | .write .. => true | .readReq .. => true | _ => false
  let probe := match f.body with | .write _ psn _ ar _ _ _ => if ar then [(psn, now)] else [] | _ => []
  { q with
    timer := if requests && q.timer.isNone then some now else q.timer
    probes := q.probes ++ probe
    paceAt := now + 8 * f.bytes * 1000 / q.rate
    sealSeq := q.sealSeq + 1 }

/-- PEER packets of a tenant context are sealed (R375). -/
def Qp.sealed (q : Qp) : Bool := q.kind == .peer && q.ctx != 0

def State.startFrame (s : State) (port sub : Nat) (f : EgFrame) : State :=
  let k := subKey port sub
  let s := s.dequeue f
  let s := if f.cls = 0 then s.spendCredit port sub 0 0 else if dataClass f.cls then s.spendCredit port sub f.cls f.ctx else s
  let done := s.dtime + ceilDiv (8 * f.bytes) (s.portRate port)
  let s := { s with net := { s.net with
    busyUntil := Map.put s.net.busyUntil k done
    lastCtx := Map.put s.net.lastCtx (k * 8 + f.cls) f.ctx } }
  match f.qp with
  | none => s.emit (.frame port sub f.cls none f.body)
  | some i => match s.qp i with
    | none => s
    | some q =>
      (s.setQp i (q.started s.dtime f)).emit (.frame port sub f.cls (if q.sealed then some q.sealSeq else none) f.body)

/-- FRAME_START (R230). A port selects its next frame by strict priority, gate, shaper credit and pacing, and
starts it. -/
def execFrameStart (port : Fin 32) (sub : Fin 4) (s : State) : Step' :=
  act s (fun s =>
    if !s.subPresent port sub || !s.linkUp port sub || s.dtime < Map.getD s.net.busyUntil (subKey port sub) 0 then s
    else match s.nextFrame port sub with
      | none => s
      | some f => s.startFrame port sub f)

/-! ## Queue telemetry (R235) -/

/-- SAMPLE_US in ns; 0 means 10 µs. -/
def State.sampleNs (s : State) : Nat :=
  let v := s.fld fSTEP_CFG_SAMPLE_US
  (if v = 0 then 10 else v) * 1000

def qsKey (port cls ctx : Nat) : Nat := (port * 8 + cls) * 64 + ctx

/-- One sample of a (class, context) queue of a port. -/
def State.sampleQueue (s : State) (port cls ctx : Nat) : State :=
  let q := s.net.egress.filter (fun f => f.port == port && f.cls == cls && f.ctx == ctx)
  let k := qsKey port cls ctx
  if q.isEmpty ∧ !Map.has s.net.samples k then s
  else
    let o := Map.getD s.net.samples k { maxDepth := 0, sumDepth := 0, maxDelay := 0, samples := 0 }
    let delay := match q.head? with | some f => s.dtime - f.at_ | none => 0
    let n : QSample := { maxDepth := max o.maxDepth q.length, sumDepth := o.sumDepth + q.length,
                         maxDelay := max o.maxDelay (min delay 0xFFFFFFFF), samples := o.samples + 1 }
    { s with net := { s.net with samples := Map.put s.net.samples k n } }

/-- A sample of every queue of a port. -/
def State.samplePort (s : State) (port : Nat) : State :=
  let ctxs := (s.net.egress.map EgFrame.ctx ++ s.net.samples.keys.map (· % 64)).eraseDups
  let s := { s with net := { s.net with sampledAt := Map.put s.net.sampledAt port s.dtime } }
  (List.range 8).foldl (fun s cls => ctxs.foldl (fun s c => s.sampleQueue port cls c) s) s

/-- QUEUE_SAMPLE (R235). Every SAMPLE_US, each port samples the depth and delay of its egress queues. -/
def execQueueSample (port : Fin 32) (s : State) : Step' :=
  act s (fun s =>
    if !s.portPresent port || s.dtime < Map.getD s.net.sampledAt port 0 + s.sampleNs then s
    else s.samplePort port)

/-- A summary record (Table 9.5). (DEDUCED, log entry 52.) -/
def summaryRecord (step port cls : Nat) (q : QSample) : Bytes :=
  toLE 8 step ++ toLE 1 port ++ toLE 1 cls ++ zeros 2 ++ toLE 4 q.maxDepth ++ toLE 4 (q.sumDepth * 256 / q.samples)
    ++ toLE 4 q.maxDelay ++ toLE 4 q.samples ++ zeros 4

/-- Whose ring a queue's summary goes to: the owner receives those of TC0, TC4 and TC7. -/
def summaryReader (cls ctx : Nat) : Nat := if cls = 0 ∨ cls = 4 ∨ cls = 7 then 0 else ctx % 64

def State.postEvent (s : State) (ctx type : Nat) (record : Bytes) : State :=
  { s with host := { s.host with events := s.host.events ++ [{ ctx := ctx, type := type, record := record }] } }

/-- The summaries of a port's queues go to their readers, and new ones begin. -/
def State.summarise (s : State) (port x : Nat) : State :=
  let mine := s.net.samples.filter (fun e => e.1 / 512 == port)
  let s := mine.foldl (fun s e =>
    s.postEvent (summaryReader (e.1 / 64 % 8) (e.1 % 64)) 2 (summaryRecord x port (e.1 / 64 % 8) e.2)) s
  { s with net := { s.net with
      samples := s.net.samples.filter (fun e => e.1 / 512 != port)
      summarised := Map.put s.net.summarised port x } }

/-- QUEUE_SUMMARY (R235). At the end of each step, each port writes queue summaries into the contexts'
telemetry rings. -/
def execQueueSummary (port : Fin 32) (s : State) : Step' :=
  act s (fun s =>
    let x := s.fld fSTEP_LAST_STEP
    match s.startOf (x + 1) with
    | none => s
    | some t =>
      if s.dtime < t ∨ Map.find s.net.summarised port = some x then s
      else s.summarise port x)

/-! ## Time (R228) -/

def RxBody.isPfc : RxBody → Bool
  | .pfc .. => true
  | _ => false

def RxBody.isMka : RxBody → Bool
  | .mka _ => true
  | _ => false

/-- A RoCEv2 packet with a good ICRC and P_Key that p selects. -/
def RxBody.carries (p : Pkt → Bool) : RxBody → Bool
  | .rdma true x => p x
  | _ => false

/-- Takes the first waiting frame of a subport that the test picks. -/
def State.takeRx (s : State) (port sub : Nat) (p : RxBody → Bool) : Option (RxFrame × State) :=
  match s.net.ingress.find? (fun f => f.port == port && f.sub == sub && p f.body) with
  | some f => some (f, { s with net := { s.net with ingress := s.net.ingress.erase f } })
  | none => none

/-- NET switches the group of a port (R464): the servo, MKA rekeying and link training wait. -/
def State.groupSwitches (s : State) (port : Nat) : Bool :=
  match s.fw.switching with
  | some (2, left, _) => s.hw.variant.ports / 8 - left == port / 8
  | _ => false

/-- A sync message moves the servo. (DESIGN CHOICE, log entry 88.) -/
def State.servo (s : State) (offset : Int) (interval : Nat) : State :=
  State.recomputeUncert { s with clk := { s.clk with
    servoOffset := offset.natAbs
    syncAt := some s.dtime
    syncInterval := interval } }

/-- A PTP message; `sync` holds the offset and sync interval of a sync that the servo accepts. -/
def execPtpMessage (port : Fin 32) (sub : Fin 4) (sync : Option (Int × Nat)) (s : State) : Step' :=
  act s (fun s => match if s.groupSwitches port then none else s.takeRx port sub (· == .ptp) with
    | none => s
    | some (_, s) => match sync with
      | none => s
      | some (offset, interval) => s.servo offset interval)

/-- UNCERTAINTY_TICK (R228). Every 1 µs between syncs, U is recomputed and time quality may change. -/
def execUncertaintyTick (s : State) : Step' :=
  act s (fun s => if s.clk.uncertainAt + 1000 ≤ s.dtime then s.recomputeUncert else s)

/-! ## Subports -/

def State.subState (s : State) (port sub : Nat) : SubState :=
  Map.getD s.net.subs (subKey port sub) { discards := [], pausedUntil := none }

def State.setSub (s : State) (port sub : Nat) (x : SubState) : State :=
  { s with net := { s.net with subs := Map.put s.net.subs (subKey port sub) x } }

/-- A frame that fails MACsec: counted; more than 1,000 discards in a second raise F0 (R247: the spec names no status). -/
def State.macsecDrop (s : State) (port sub : Nat) : State :=
  let s := s.bump (fNET_PORT_DROP_COUNT_MACSEC port) 1
  let x := s.subState port sub
  let recent := x.discards.filter (fun t => s.dtime < t + 10 ^ 9) ++ [s.dtime]
  if 1000 < recent.length then
    let s := (s.setSub port sub { x with discards := [] }).flag (fNET_PORT_ERR_MACSEC_FAIL port)
    s.used.raise (srcPORT port) (BitVec.ofNat 16 (s.free 16)) sub noCtx .f0
  else s.setSub port sub { x with discards := recent }

/-- A frame of a class waits to be handled; TC0 beyond the control booking is discarded and counted (R236). -/
def State.accept (s : State) (f : RxFrame) : State :=
  let held := (s.net.ingress.filter (fun g => g.port == f.port && g.cls == 0)).length
  if f.cls = 0 ∧ s.fld fINK_CTRL_BOOK_INGRESS ≤ held then s.dropOther f.port
  else { s with net := { s.net with ingress := s.net.ingress ++ [f] } }

/-- The queue pair number a packet is addressed to. -/
def Pkt.qpn : Pkt → Nat
  | .write q .. => q
  | .readReq q .. => q
  | .readResp q .. => q
  | .ack q .. => q
  | _ => 0

/-- Classification by content (R245, R246, R249). -/
def State.classify (s : State) (port sub : Nat) (tag : Option (Nat × Bool)) (b : RxBody) : State :=
  let q := fun cls => s.accept { port := port, sub := sub, cls := cls, tag := tag, body := b }
  match b with
  | .ptp => q 4
  | .mka _ => q 7
  | .management _ => q 7
  | .pfc .. => q 0
  | .rdma ok p =>
    if !ok then s.bump (fNET_PORT_DROP_COUNT_ICRC port) 1
    else match s.findQpn p.qpn with
      | some (_, x) => q x.cls
      | none => s.dropStale port
  | .unsupported ok qpn psn =>
    if !ok then s.bump (fNET_PORT_DROP_COUNT_ICRC port) 1
    else match s.findQpn qpn with
      | some (i, x) =>
        if x.state = .rts ∨ x.state = .rtr then (s.reply i psn .nakInvalid).qpError i stNET_REMOTE_INVALID false
        else s.dropStale port
      | none => s.dropStale port
  | .qp1 => s.dropOther port
  | .cnp => s.dropOther port
  | .other => s.dropOther port

/-- FRAME_RECEIVE (R245). A received frame is validated by MACsec and classified by its content.
(DEDUCED, log entry 51.) (DESIGN CHOICE, log entry 93.) -/
def execFrameReceive (port : Fin 32) (sub : Fin 4) (mac : MacCheck) (tag : Option (Nat × Bool)) (body : RxBody) (s : State) :
    Step' :=
  act s (fun s =>
    if !s.subPresent port sub || !s.linkUp port sub then s
    else
      let exempt := match body with | .mka _ => true | .pfc .. => true | _ => false
      match mac with
      | .invalid => s.macsecDrop port sub
      | .plain => if s.macsec port sub = 2 ∧ !exempt then s.macsecDrop port sub else s.classify port sub tag body
      | .valid => s.classify port sub tag body)

/-- The PCP of TC0 (NET_TC_PCP). -/
def State.pcp0 (s : State) : Nat := s.fld fNET_TC_PCP_TC0 % 8

/-- PFC_FRAME (R246). A PFC frame for the PCP of TC0 pauses or resumes TC0, and any other PFC frame is ignored
and counted. (DEDUCED, log entry 51.) -/
def execPfcFrame (port : Fin 32) (sub : Fin 4) (s : State) : Step' :=
  act s (fun s => match s.takeRx port sub RxBody.isPfc with
    | none => s
    | some (f, s) => match f.body with
      | .pfc pcp pause =>
        if s.fld (fNET_PORT_CFG_PFC_EN port) = 1 ∧ pcp.val = s.pcp0 then
          let until_ := if pause = 0 then none else some (s.dtime + pause)
          s.setSub port sub { s.subState port sub with pausedUntil := until_ }
        else s.dropOther port
      | _ => s)

/-- PFC_PAUSE_EXPIRY (R246). The pause time of an honoured PFC frame for the PCP of TC0 runs out, and TC0
transmission resumes on the subport. -/
def execPfcPauseExpiry (port : Fin 32) (sub : Fin 4) (s : State) : Step' :=
  act s (fun s => match (s.subState port sub).pausedUntil with
    | some t => if t ≤ s.dtime then s.setSub port sub { s.subState port sub with pausedUntil := none } else s
    | none => s)

/-- An MKA frame advances the subport's key agreement, once K_link is held (R374). -/
def execMkaFrame (port : Fin 32) (sub : Fin 4) (outcome : MkaEnd) (s : State) : Step' :=
  act s (fun s => match
      if s.groupSwitches port then none else s.takeRx port sub RxBody.isMka with
    | none => s
    | some (_, s) =>
      if s.fld (fNET_PORT_CFG_MACSEC_EN port) = 0 ∨ s.fld fSEC_STATUS_LINK_KEY = 0 then s
      else s.setMacsec port sub (match outcome with | .pending => 1 | .secured => 2 | .failed => 3))

/-- LINK_DOWN (R244). A subport link loss raises F0 NET_LINK_DOWN and holds its frames, while its timers run.
-/
def execLinkDown (port : Fin 32) (sub : Fin 4) (s : State) : Step' :=
  act s (fun s =>
    if !s.subPresent port sub || !s.linkUp port sub then s
    else ((s.unflag ((fNET_PORT_STATUS_LINK port).bit sub)).flag (fNET_PORT_ERR_LINK_DOWN port)).raise
      (srcPORT port) stNET_LINK_DOWN sub noCtx .f0)

/-- A link comes up, once boot has started the links (Table 21.2), in the mode in effect; its MACsec channel is PENDING once K_link is held, else NONE (R374).
(DESIGN CHOICE, log entry 93.) -/
def execLinkUp (port : Fin 32) (sub : Fin 4) (s : State) : Step' :=
  act s (fun s =>
    if !s.subPresent port sub || s.linkUp port sub || s.mod.booted < 4 || s.groupSwitches port then s
    else
      let s := (s.flag ((fNET_PORT_STATUS_LINK port).bit sub)).setFld (fNET_PORT_STATUS_MODE_ACTIVE port)
        (s.fld (fNET_PORT_CFG_MODE port))
      let on := s.fld (fNET_PORT_CFG_MACSEC_EN port) = 1 ∧ s.fld fSEC_STATUS_LINK_KEY = 1
      s.setMacsec port sub (if on then 1 else 0))

end Sys2Proof.Machine
end

