-- ==== Sys2Proof/Machine/Throw.lean ====
section
/-!
DEFINITION. The Throw and the sample space (spec/02_sample_space_and_throw.md): domain exponent, round keys, the Feistel network and
its inverse, epochs, holders, augmentation parameters, seed check, and row owners (R194).
-/
namespace Sys2Proof.Machine

/-! ## Throw (R64 to R67) -/

/-- The smallest even k ≥ 2 with 2^k ≥ n (R64). -/
def throwExp (n : Nat) : Nat := ((List.range 24).map (fun i => 2 * i + 2)).find? (fun k => n ≤ 2 ^ k) |>.getD 48

/-- The round keys of epoch e (R65). -/
def throwKeys (seed : Bytes) (e k : Nat) : List Bytes :=
  let out := kmac256 seed (toLE 8 e ++ toLE 1 k) 1024 (ascii "Onafold Throw v1")
  (List.range 8).map (fun t => slice out (16 * t) 16)

/-- Round function F_t (R66). -/
def throwRound (keys : List Bytes) (k t v : Nat) : Nat :=
  leNat ((aesEncrypt (keys.getD t []) (toLE 8 v ++ toLE 1 t ++ toLE 1 k ++ zeros 6)).take 8) % 2 ^ (k / 2)

/-- A balanced Feistel network of the given rounds over halves of hw bits (R67). -/
def feistelWith (f : Nat → Nat → Nat) (hw : Nat) (rounds : List Nat) (x : Nat) : Nat :=
  let (l, r) := rounds.foldl (fun (p : Nat × Nat) t => (p.2, p.1 ^^^ f t p.2)) (x / 2 ^ hw, x % 2 ^ hw)
  l * 2 ^ hw + r

/-- The inverse network (R69). -/
def feistelInverse (f : Nat → Nat → Nat) (hw : Nat) (rounds : List Nat) (y : Nat) : Nat :=
  let (l, r) := rounds.reverse.foldl (fun (p : Nat × Nat) t => (p.2 ^^^ f t p.1, p.1)) (y / 2 ^ hw, y % 2 ^ hw)
  l * 2 ^ hw + r

def feistel (keys : List Bytes) (k x : Nat) : Nat := feistelWith (throwRound keys k) (k / 2) (List.range 8) x

/-- Cycle-walking down to n, for at most `fuel` further walks. -/
def throwWalk (step : Nat → Nat) (n : Nat) : Nat → Nat → Nat
  | 0, y => y
  | fuel + 1, y => if y < n then y else throwWalk step n fuel (step y)

/-- Throw_e(p): the walk ends within 2^k evaluations (R67). -/
def throwIndex (keys : List Bytes) (k n p : Nat) : Nat :=
  throwWalk (feistel keys k) n (2 ^ k) (feistel keys k p)

/-- SEED_CHECK (R335). -/
def seedCheck (seed : Bytes) : Bytes := kmac256 seed [] 128 (ascii "Onafold Seed Check v1")

/-! ## Augmentation parameters (R70, R71) -/

def augKey (seed : Bytes) (e : Nat) : Bytes := kmac256 seed (toLE 8 e) 256 (ascii "Onafold Augment v1")

/-- Word w_m of global index g. -/
def augWord (key : Bytes) (g m : Nat) : Nat :=
  fieldAt (aesEncrypt key (toLE 8 g ++ toLE 4 (m / 4) ++ zeros 4)) (4 * (m % 4)) 4

/-- A parameter's word by its kind (0 integer in [0, n); 1 Boolean; 2 real). -/
def augParam (kind n w : Nat) : Nat :=
  if kind = 0 then w * n / 2 ^ 32 else if kind = 1 then (if w < n then 1 else 0) else w

/-! ## Sample space and placement (R47, R59) -/

/-- Set bit numbers of a mask, ascending. -/
def maskBits (mask width : Nat) : List Nat := (List.range width).filter (bitOf mask)

def PodEnt.members (p : PodEnt) : List Nat := maskBits p.mask 32

/-- holder(s, f) of R59. -/
def DatasetEnt.holder (d : DatasetEnt) (s f : Nat) : Nat :=
  let pc := d.pods.length
  match d.pods[s % pc]? with
  | none => 0
  | some p =>
    let ms := p.members
    p.pod * 32 + ms.getD ((s / pc % ms.length + f) % ms.length) 0

/-- The dataset of a global index: the one with the largest base not above it (R47). -/
def ManifestRec.datasetOf (m : ManifestRec) (g : Nat) : Option DatasetEnt :=
  (m.datasets.filter (fun d => d.base ≤ g)).getLast?

/-- The extent that holds a local index. -/
def DatasetEnt.extentOf (d : DatasetEnt) (loc : Nat) : Nat := (d.extents.filter (fun x => x.first ≤ loc)).length - 1

/-- sample_holder(g) of R59. -/
def ManifestRec.sampleHolder (m : ManifestRec) (g : Nat) : Nat :=
  match m.datasetOf g with
  | none => 0
  | some d =>
    let e := d.extentOf (g - d.base)
    d.holder (e / 10) (e % 10)

/-! ## Epochs (R62) and rows (R63, R193, R194) -/

/-- Samples per step. -/
def PackCfg.batch (p : PackCfg) : Nat := p.consumers * p.rows * p.q

def Epoch.steps (e : Epoch) (b : Nat) : Nat := e.count / b

/-- The epoch of a run-relative step. -/
def epochOf (es : List Epoch) (u : Nat) : Option Epoch := (es.filter (fun e => e.start ≤ u)).getLast?

/-- Consumer, row and place of position i of a step (R63). -/
def PackCfg.consumerOf (p : PackCfg) (i : Nat) : Nat := i / (p.rows * p.q)
def PackCfg.rowOf (p : PackCfg) (i : Nat) : Nat := i / p.q % p.rows
def PackCfg.placeOf (p : PackCfg) (i : Nat) : Nat := i % p.q

/-- The row owner of consumer c, run-relative step u and pack group grp (R194). -/
def RunCfg.owner (r : RunCfg) (c u grp : Nat) : Nat :=
  let rc := r.ranks.length
  r.ranks.getD (((c * r.pack.owners) % rc + (u + grp) % r.pack.owners) % rc) 0

/-- Owner j of a consumer's owner set. -/
def RunCfg.ownerAt (r : RunCfg) (c j : Nat) : Nat :=
  let rc := r.ranks.length
  r.ranks.getD (((c * r.pack.owners) % rc + j) % rc) 0

/-- Groups per consumer and step. -/
def PackCfg.groups (p : PackCfg) : Nat := p.rows / p.group

/-- The (consumer, group) pairs a rank owns at step u, ascending (R194). -/
def RunCfg.ownedPairs (r : RunCfg) (rank u : Nat) : List (Nat × Nat) :=
  ((List.range r.pack.consumers).map (fun c =>
    ((List.range r.pack.groups).filter (fun g => r.owner c u g == rank)).map (fun g => (c, g)))).flatten

/-- Gmax: the owner function repeats with period W in u. -/
def RunCfg.gMax (r : RunCfg) : Nat :=
  ((List.range r.pack.owners).map (fun u =>
    (r.ranks.map (fun rank => (r.ownedPairs rank u).length)).foldl max 0)).foldl max 0

/-- The step slot of a run-relative step (R198). -/
def PackCfg.slotOf (p : PackCfg) (u : Nat) : Nat := u % (p.lead + 1)

/-- The virtual peg of a group (R200). -/
def RunCfg.groupPeg (r : RunCfg) (u ordinal : Nat) : Nat := r.pegBase + r.pack.slotOf u * r.gMax + ordinal

/-- The landing address of a position (R198). -/
def landingAddr (slot ordinal gpos off : Nat) : Nat := slot * 2 ^ 60 + ordinal * 2 ^ 47 + gpos * 2 ^ 31 + off

end Sys2Proof.Machine
end

