-- ==== Sys2Proof/Machine/Pack.lean ====
section
/-!
DEFINITION. The packer (spec/08_legs_packing_delivery.md): the exchange header (Table 8.2, R202), items (R205), the packing of a
group (R206), row layouts (R207, R208) and the slot header (Table 8.5).
-/
namespace Sys2Proof.Machine

/-! ## Exchange header -/

/-- Bytes 0 to 31 of an exchange header. -/
def exchHead (kind step consumer row place bodyLen : Nat) : Bytes :=
  toLE 4 0x4858464F ++ toLE 1 kind ++ zeros 3 ++ toLE 8 step ++ toLE 4 consumer ++ toLE 2 row ++ toLE 2 place
    ++ toLE 8 bodyLen

/-- The 64-byte header of a body. -/
def exchHeader (kind step consumer row place : Nat) (body : Bytes) : Bytes :=
  let h := exchHead kind step consumer row place body.length
  h ++ toLE 8 (crc64 (h ++ body)) ++ zeros 24

/-- The header rules of R202 for a position: the fields match, KIND is known, BODY_LEN is within the landed bytes `room`
beyond offset 64, and CHECK matches. `body n` reads n bytes of the body. -/
def exchOk (h : Bytes) (step consumer row place room : Nat) (body : Nat → Bytes) : Bool :=
  let kind := fieldAt h 4 1
  let len := fieldAt h 24 8
  fieldAt h 0 4 == 0x4858464F && kind ≤ 2 && fieldAt h 8 8 == step && fieldAt h 16 4 == consumer && fieldAt h 20 2 == row
    && fieldAt h 22 2 == place && (if kind = 2 then len == 0 else true) && len ≤ room
    && fieldAt h 32 8 == crc64 (h.take 32 ++ body len)

/-! ## Items -/

/-- What a position brings to its row: a drop, or prepared bytes. -/
abbrev Prepared := Option Bytes

/-- An item: its tokens, how far it is placed, and whether it came from the queue. -/
structure PackItem where
  tokens : List Bytes
  start : Nat
  carried : Bool
  deriving DecidableEq, Repr

/-- Cuts bytes into n tokens of w bytes. -/
def cutTokens (w : Nat) : Nat → Bytes → List Bytes
  | 0, _ => []
  | n + 1, b => b.take w :: cutTokens w n (b.drop w)

/-- A token position's item (R205); none: it counts in DROPPED. -/
def tokenItem (p : PackCfg) (w : Nat) (d : Prepared) : Option PackItem :=
  match d with
  | none => none
  | some b =>
    let n := b.length / w
    if b.length % w ≠ 0 ∨ n = 0 then none
    else if p.rowTokens < n then
      if p.overlong = 1 then none else some ⟨cutTokens w p.rowTokens b, 0, false⟩
    else some ⟨cutTokens w n b, 0, false⟩

/-! ## Rows of a group (R206) -/

/-- A segment: its tokens and the position of its first token within its sample. -/
structure Segment where
  tokens : List Bytes
  start : Nat
  deriving DecidableEq, Repr

structure PackedRow where
  segs : List Segment
  room : Nat
  carried : Bool
  splitOut : Bool
  dropped : Nat
  deriving DecidableEq, Repr

structure RowFill where
  segs : List Segment
  room : Nat
  queue : List PackItem
  carried : Bool
  splitOut : Bool
  deriving DecidableEq, Repr

/-- One item of the loop of R206. -/
def fillItem (p : PackCfg) (f : RowFill) (it : PackItem) : RowFill :=
  let left := it.tokens.length - it.start
  let place := fun (n : Nat) => f.segs ++ [⟨(it.tokens.drop it.start).take n, it.start⟩]
  if f.segs.length = p.segMax then { f with queue := f.queue ++ [{ it with carried := true }] }
  else if left ≤ f.room then
    { f with segs := place left, room := f.room - left, carried := f.carried || it.carried, splitOut := false }
  else if p.fitMode = 0 ∧ 0 < f.room then
    { f with
      segs := place f.room
      room := 0
      queue := f.queue ++ [{ it with start := it.start + f.room, carried := true }]
      carried := f.carried || it.carried
      splitOut := true }
  else { f with queue := f.queue ++ [{ it with carried := true }] }

/-- Rows of a group: own items of each row with its DROPPED count; the rows packed and the items lost. -/
def fillRows (p : PackCfg) : List (List PackItem × Nat) → List PackItem → List PackedRow × Nat
  | [], q => ([], q.length)
  | (own, dropped) :: rest, q =>
    let f := (q ++ own).foldl (fillItem p) ⟨[], p.rowTokens, [], false, false⟩
    let (rows, lost) := fillRows p rest f.queue
    (⟨f.segs, f.room, f.carried, f.splitOut, dropped⟩ :: rows, lost)

/-! ## Layouts (R207) -/

def padTo (n : Nat) (b : Bytes) : Bytes := b ++ zeros (n - b.length)

/-- PAYLOAD_LEN of a run. -/
def PackCfg.payloadLen (p : PackCfg) (w : Nat) : Nat :=
  match p.layout with
  | 0 => align64 (p.rowTokens * w) + align64 (p.rowTokens * 2) + p.rowTokens * 4
  | 1 => align64 (p.rowTokens * w) + (p.segMax + 1) * 4
  | _ => align64 (p.q * p.entryBytes) + ceilDiv p.q 8

/-- The tokens region: the row's tokens, then PAD_ID. -/
def tokenRegion (p : PackCfg) (w : Nat) (r : PackedRow) : Bytes :=
  padTo (align64 (p.rowTokens * w))
    ((r.segs.map (fun g => g.tokens.flatten)).flatten ++ (List.replicate r.room (toLE w p.padId)).flatten)

/-- Segment k of a row starts at token `at'`. -/
def segStarts : List Segment → Nat → List Nat
  | [], _ => []
  | g :: gs, a => a :: segStarts gs (a + g.tokens.length)

def numbered {α : Type} (xs : List α) : List (Nat × α) := (List.range xs.length).zip xs

/-- The payload of a token row (LAYOUT 0 MARKS, 1 OFFSETS). -/
def tokenPayload (p : PackCfg) (w : Nat) (r : PackedRow) : Bytes :=
  let used := p.rowTokens - r.room
  if p.layout = 0 then
    let ids := (numbered r.segs).map (fun e => (List.replicate e.2.tokens.length (toLE 2 (e.1 + 1))).flatten)
    let pos := r.segs.map (fun g => ((List.range g.tokens.length).map (fun i => toLE 4 (g.start + i))).flatten)
    tokenRegion p w r ++ padTo (align64 (p.rowTokens * 2)) ids.flatten ++ padTo (p.rowTokens * 4) pos.flatten
  else
    let starts := segStarts r.segs 0
    tokenRegion p w r ++ ((starts ++ List.replicate (p.segMax + 1 - starts.length) used).map (toLE 4)).flatten

/-- The payload of a tensor row, with its admitted entries (R208). -/
def tensorPayload (p : PackCfg) (entries : List Prepared) : Bytes :=
  let entry := fun (d : Prepared) => match d with
    | some b => if b.length = p.entryBytes then b else zeros p.entryBytes
    | none => zeros p.entryBytes
  let valid := entries.map (fun d => (d.map (fun b => b.length == p.entryBytes)).getD false)
  let bits := (List.range (ceilDiv p.q 8)).map (fun b =>
    byteOf (((List.range 8).map (fun i => if valid.getD (8 * b + i) false then 2 ^ i else 0)).foldl (· + ·) 0))
  padTo (align64 (p.q * p.entryBytes)) ((entries.map entry).flatten) ++ bits

/-! ## Slot header (Table 8.5) -/

/-- Header bytes 0 to 55 of a row. -/
def rowHeader (p : PackCfg) (w flags step seq consumer row segs used dropped lost : Nat) (payload : Bytes) : Bytes :=
  let h := toLE 4 0x5244464F ++ toLE 1 p.layout ++ toLE 1 (if p.layout = 2 then 0 else w) ++ toLE 2 flags ++ toLE 8 step
    ++ toLE 8 seq ++ toLE 4 consumer ++ toLE 2 row ++ toLE 2 segs ++ toLE 4 used ++ toLE 4 payload.length
    ++ toLE 2 dropped ++ toLE 2 lost ++ zeros 4
  h ++ toLE 8 (crc64 (h ++ payload))

/-- Places of row r of a group from its positions in Throw order. -/
def rowPlaces (p : PackCfg) (ds : List Prepared) (r : Nat) : List Prepared := (ds.drop (r * p.q)).take p.q

/-- The rows of a group: header bytes 0 to 55 and payload of each, in ascending row order. `first` is the first row,
`u` the run-relative step, `ds` what each group position brings, in order. -/
def packGroup (p : PackCfg) (w step u consumer first : Nat) (ds : List Prepared) : List (Bytes × Bytes) :=
  let seq := fun r => u * p.rows + (first + r)
  if p.layout = 2 then
    (List.range p.group).map (fun r =>
      let es := rowPlaces p ds r
      let good := (es.filter (fun d => (d.map (fun b => b.length == p.entryBytes)).getD false)).length
      let pay := tensorPayload p es
      (rowHeader p w 0 step (seq r) consumer (first + r) good good (es.length - good) 0 pay, pay))
  else
    let own := (List.range p.group).map (fun r =>
      let its := (rowPlaces p ds r).map (tokenItem p w)
      (its.filterMap id, (its.filter Option.isNone).length))
    let (rows, lost) := fillRows p own []
    (numbered rows).map (fun e =>
      let last := e.1 + 1 == p.group
      let l := if last then lost else 0
      let flags := (if e.2.carried then 1 else 0) + (if e.2.splitOut then 2 else 0) + (if l = 0 then 0 else 4)
      let pay := tokenPayload p w e.2
      (rowHeader p w flags step (seq e.1) consumer (first + e.1) e.2.segs.length (p.rowTokens - e.2.room) e.2.dropped l pay,
        pay))

end Sys2Proof.Machine
end

