-- ==== Sys2Proof/Machine/Manifest.lean ====
section
/-!
DEFINITION. Manifests (Tables 2.5 and 2.6, R55), run configurations (Tables 8.1, 8.4 and 19.15, R192, R194, R210), and the
parts of OSF that ingest writes and fetch checks (Tables 2.1 to 2.4, R48 to R54).
-/
namespace Sys2Proof.Machine

/-! ## Manifests -/

def readExtents (b : Bytes) (at' n : Nat) : List ExtentEnt :=
  (List.range n).map (fun i =>
    { first := bitsOf (fieldAt b (at' + 16 * i) 8) 0 48, count := fieldAt b (at' + 16 * i + 8) 4,
      used := fieldAt b (at' + 16 * i + 12) 4 })

/-- A pod entry with its MEMBER_COUNT. -/
def readPods (b : Bytes) (at' n : Nat) : List (PodEnt × Nat) :=
  (List.range n).map (fun i =>
    ({ pod := fieldAt b (at' + 8 * i) 1, mask := fieldAt b (at' + 8 * i + 4) 4 }, fieldAt b (at' + 8 * i + 1) 1))

/-- One dataset entry with the tables it points at. -/
def readDataset (b : Bytes) (o : Nat) : DatasetEnt × List (PodEnt × Nat) :=
  let pods := readPods b (fieldAt b (o + 32) 4) (fieldAt b (o + 2) 2)
  ({ id := fieldAt b o 1, sizeLog2 := fieldAt b (o + 1) 1, gen := fieldAt b (o + 4) 4, count := fieldAt b (o + 8) 8,
     base := fieldAt b (o + 16) 8, extents := readExtents b (fieldAt b (o + 28) 4) (fieldAt b (o + 24) 4),
     pods := pods.map (·.1) }, pods)

/-- Every table of a dataset entry lies within the manifest. -/
def datasetBounds (b : Bytes) (o : Nat) : Bool :=
  o + 64 ≤ b.length && fieldAt b (o + 28) 4 + 16 * fieldAt b (o + 24) 4 ≤ b.length
    && fieldAt b (o + 32) 4 + 8 * fieldAt b (o + 2) 2 ≤ b.length

/-- Extents cover 0 to n − 1 contiguously, each holds a sample and fits 2^x bytes (R48, R55). -/
def extentsOk (x n : Nat) : List ExtentEnt → Nat → Bool
  | [], next => next == n
  | e :: es, next => e.first == next && 1 ≤ e.count && e.used ≤ 2 ^ x && extentsOk x n es (next + e.count)

/-- Dataset IDs strictly ascend and BASE follows R47; the total of the sample counts. -/
def basesOk : List DatasetEnt → Option Nat → Nat → Option Nat
  | [], _, total => some total
  | d :: ds, prev, total =>
    let ascends := match prev with | some p => p < d.id | none => true
    if ascends && d.base == total && 1 ≤ d.count then basesOk ds (some d.id) (total + d.count) else none

/-- A pod entry as R55 requires it; pods within a dataset are distinct. -/
def podsOk (ps : List (PodEnt × Nat)) : Bool :=
  1 ≤ ps.length && ps.length ≤ 64
    && ps.all (fun p => p.1.pod < 64 && p.2 == (maskBits p.1.mask 32).length && 6 ≤ p.2)
    && (ps.map (·.1.pod)).eraseDups.length == ps.length

/-- R55 as far as the manifest alone decides it, in the order of its rules.
(DEDUCED, log entry 56.) -/
def parseManifest (b : Bytes) : Except Status ManifestRec :=
  let n := fieldAt b 6 2
  let tab := fieldAt b 24 4
  let offs := (List.range n).map (fun i => tab + 64 * i)
  if fieldAt b 0 4 ≠ 0x4D46534F ∨ fieldAt b 4 2 ≠ 1 ∨ fieldAt b 12 4 ≠ b.length ∨ b.length < 64
      ∨ !offs.all (datasetBounds b) then .error stMAN_FORMAT
  else
    let ds := offs.map (readDataset b)
    let total := fieldAt b 16 8
    if n = 0 ∨ 256 < n ∨ basesOk (ds.map (·.1)) none 0 ≠ some total ∨ total = 0 ∨ 2 ^ 48 ≤ total
        ∨ !ds.all (fun d => 22 ≤ d.1.sizeLog2 && d.1.sizeLog2 ≤ 31 && extentsOk d.1.sizeLog2 d.1.count d.1.extents 0) then
      .error stMAN_COUNT
    else if !ds.all (fun d => podsOk d.2) then .error stMAN_PLACEMENT
    else .ok { version := fieldAt b 8 4, total := total, digest := sha384 b, datasets := ds.map (·.1) }

/-- Same sample count and bases (R57). -/
def ManifestRec.sameSpace (a b : ManifestRec) : Bool :=
  a.total == b.total && a.datasets.map (fun d => (d.id, d.base)) == b.datasets.map (fun d => (d.id, d.base))

/-- Logical ranks a manifest names as members. -/
def ManifestRec.ranks (m : ManifestRec) : List Nat :=
  (m.datasets.map (fun d => (d.pods.map (fun p => p.members.map (fun i => p.pod * 32 + i))).flatten)).flatten

/-! ## Run configurations -/

def readPack (b : Bytes) : PackCfg :=
  { consumers := fieldAt b 0 4, rows := fieldAt b 4 2, group := fieldAt b 6 2, q := fieldAt b 8 4, lead := fieldAt b 12 1,
    layout := fieldAt b 13 1, fitMode := fieldAt b 14 1, overlong := fieldAt b 15 1, rowTokens := fieldAt b 16 4,
    segMax := fieldAt b 20 2, owners := fieldAt b 22 1, padId := fieldAt b 24 4, entryBytes := fieldAt b 28 4,
    reserve := fieldAt b 32 8, creditPoll := fieldAt b 40 8, raw := b.take 64 }

def within (lo hi x : Nat) : Bool := lo ≤ x && x ≤ hi

/-- The ranges of Table 8.1 and the rules of R192 that need no image; `r` is the logical fabric size. -/
def packOk (p : PackCfg) (r : Nat) : Bool :=
  within 1 16384 p.consumers && within 1 4096 p.rows && within 1 p.rows p.group && within 1 65535 p.q
    && within 1 8 p.lead && p.layout ≤ 2 && p.fitMode ≤ 1 && p.overlong ≤ 1 && within 1 1048576 p.rowTokens
    && within 1 65535 p.segMax && within 1 32 p.owners && p.owners ≤ r
    && (if p.layout = 2 then within 1 (2 ^ 26) p.entryBytes else p.entryBytes == 0)
    && within 100000 (10 ^ 10) p.reserve && within 1000 1000000 p.creditPoll
    && p.rows % p.group == 0 && p.group * p.q ≤ 65536

def readConsumer (b : Bytes) : ConsumerRec :=
  { num := fieldAt b 0 4, slots := fieldAt b 4 4, ringAddr := fieldAt b 8 8, ringKey := fieldAt b 16 4,
    stride := fieldAt b 20 4, creditAddr := fieldAt b 24 8, creditKey := fieldAt b 32 4, gid := slice b 40 16,
    qpnBase := bitsOf (fieldAt b 56 4) 0 24 }

/-- R210; w is the token ID width of the run. -/
def consumersOk (p : PackCfg) (w : Nat) (cs : List ConsumerRec) : Bool :=
  cs.length == p.consumers && (List.range p.consumers).all (fun c => (cs.filter (fun x => x.num == c)).length == 1)
    && cs.all (fun c => p.rows * (p.lead + 1) ≤ c.slots && c.slots ≤ 2 ^ 20 && c.stride % 64 == 0
        && 64 + p.payloadLen w ≤ c.stride && c.ringAddr % 64 == 0 && c.creditAddr % 8 == 0)

/-- Where the lists of Table 19.15 stand: ranks, spares, consumers, frames. -/
def runOffsets (b : Bytes) : Nat × Nat × Nat × Nat :=
  let ranks := 128
  let spares := ranks + align64 (2 * fieldAt b 34 2)
  let cons := spares + align64 (2 * fieldAt b 36 2)
  (ranks, spares, cons, cons + 64 * fieldAt b 64 4)

def u16List (b : Bytes) (o n : Nat) : List Nat := (List.range n).map (fun i => fieldAt b (o + 2 * i) 2)

def ascending : List Nat → Bool
  | a :: b :: r => a < b && ascending (b :: r)
  | _ => true

/-- Table 19.15: magic, version, lengths and lists; HOST_ARGS otherwise. (DEDUCED, log entry 57.) -/
def parseRunCfg (b : Bytes) : Except Status RunCfg :=
  let (ro, so, co, fo) := runOffsets b
  let rc := fieldAt b 34 2
  let sc := fieldAt b 36 2
  let replay := bitOf (fieldAt b 7 1) 0
  let frames := fieldAt b 56 4
  let ranks := u16List b ro rc
  if fieldAt b 0 4 ≠ 0x4352464F ∨ fieldAt b 4 2 ≠ 1 ∨ 1 < fieldAt b 6 1 ∨ b.length < 128 ∨ b.length ≠ fo + frames
      ∨ rc = 0 ∨ 2048 < rc ∨ 1024 < sc ∨ !ascending ranks ∨ (!replay ∧ (frames ≠ 0 ∨ fieldAt b 24 8 ≠ 0)) then
    .error stHOST_ARGS
  else .ok {
    power := fieldAt b 6 1, replay := replay, runId := fieldAt b 8 8, firstStep := fieldAt b 16 8,
    replayFrom := fieldAt b 24 8, pegBase := fieldAt b 32 2, ranks := ranks, spares := u16List b so sc,
    splitMax := fieldAt b 38 2, splitMargin := fieldAt b 40 8, splitTimeout := fieldAt b 48 8,
    pack := readPack (b.drop 64),
    consumers := (List.range (fieldAt b 64 4)).map (fun i => readConsumer (b.drop (co + 64 * i))),
    frames := slice b fo frames }

/-! ## OSF -/

/-- The XTS tweak of data unit j of an extent (R49). -/
def extentTweak (gen extent j : Nat) : Bytes := toLE 16 (gen * 2 ^ 96 + extent * 2 ^ 64 + j)

/-- Data units j on of bytes, each 4,096 bytes, through a cipher on a unit. -/
def overUnits (f : Nat → Bytes → Bytes) : Nat → Nat → Bytes → Bytes
  | 0, _, _ => []
  | n + 1, j, b => f j (b.take 4096) ++ overUnits f n (j + 1) (b.drop 4096)

/-- Encrypts an extent under the dataset key K_ds (64 bytes: data key, tweak key). -/
def encryptExtent (key : Bytes) (gen extent : Nat) (b : Bytes) : Bytes :=
  overUnits (fun j u => xtsEncrypt (key.take 32) (key.drop 32) (extentTweak gen extent j) u) (ceilDiv b.length 4096) 0 b

def decryptExtent (key : Bytes) (gen extent : Nat) (b : Bytes) : Bytes :=
  overUnits (fun j u => xtsDecrypt (key.take 32) (key.drop 32) (extentTweak gen extent j) u) (ceilDiv b.length 4096) 0 b

/-- An extent's header (Table 2.1). -/
def extentHeader (dataset sizeLog2 extent gen first count dirOff : Nat) : Bytes :=
  let h := toLE 4 0x5846534F ++ toLE 2 1 ++ toLE 1 dataset ++ toLE 1 sizeLog2 ++ toLE 4 extent ++ toLE 4 gen
    ++ toLE 8 first ++ toLE 4 count ++ toLE 4 dirOff ++ toLE 4 (dirOff + 4 * (count + 1)) ++ zeros 12
  h ++ toLE 8 (crc64 h) ++ zeros 8

/-- Offsets of records that start one after the other from `o`. -/
def recordOffsets : List Bytes → Nat → List Nat
  | [], o => [o]
  | r :: rs, o => o :: recordOffsets rs (o + r.length)

/-- A plaintext extent from its records (R48, R50). -/
def buildExtent (dataset sizeLog2 extent gen first : Nat) (records : List Bytes) : Bytes :=
  let offs := recordOffsets records 64
  let dirOff := offs.getLast?.getD 64
  let b := extentHeader dataset sizeLog2 extent gen first records.length dirOff ++ records.flatten
    ++ (offs.map (toLE 4)).flatten
  padTo (2 ^ sizeLog2) b

/-- A sample record (Table 2.2) with its seal (R52) and seek tables, padded to 64 bytes. -/
def buildRecord (index plainLen codec media : Nat) (payload seek : Bytes) : Bytes :=
  let seekOff := if seek.isEmpty then 0 else ceilDiv (32 + payload.length) 8 * 8
  let h := toLE 8 index ++ toLE 4 payload.length ++ toLE 4 plainLen ++ toLE 1 codec ++ toLE 1 media
    ++ toLE 2 (if seek.isEmpty then 0 else 1) ++ toLE 4 seekOff
  let r := h ++ toLE 8 (crc64 (h ++ payload)) ++ payload
  let r := if seek.isEmpty then r else padTo seekOff r ++ seek
  padTo (align64 r.length) r

/-- A seek table: header of R53 and its entries. -/
def seekTable (kind : Nat) (entries : List Bytes) : Bytes :=
  let e := entries.flatten
  toLE 1 kind ++ toLE 1 16 ++ zeros 2 ++ toLE 4 entries.length ++ toLE 8 (crc64 e) ++ e

/-- Header checks of R72 on an extent: MAGIC, DATASET_ID, EXTENT_NUMBER, GENERATION, HEADER_CRC. -/
def extentHeaderOk (h : Bytes) (dataset extent gen : Nat) : Bool :=
  fieldAt h 0 4 == 0x5846534F && fieldAt h 6 1 == dataset && fieldAt h 8 4 == extent && fieldAt h 12 4 == gen
    && fieldAt h 48 8 == crc64 (h.take 48)

/-- Checks on a record (R51, R52, R72): its index, its codes, its seal, and the TABLE_CRC of its seek table. -/
def recordOk (r : Bytes) (index : Nat) : Bool :=
  let len := fieldAt r 8 4
  let seek := bitOf (fieldAt r 18 2) 0
  let so := fieldAt r 20 4
  let cnt := fieldAt r (so + 4) 4
  bitsOf (fieldAt r 0 8) 0 48 == index && fieldAt r 16 1 ≤ 4 && fieldAt r 17 1 ≤ 9 && 32 + len ≤ r.length
    && fieldAt r 24 8 == crc64 (r.take 24 ++ slice r 32 len)
    && (!seek || fieldAt r (so + 8) 8 == crc64 (slice r (so + 16) (16 * cnt)))

/-- Record i of a plaintext extent: from its directory entry to the next. -/
def extentRecord (b : Bytes) (i : Nat) : Bytes :=
  let dir := fieldAt b 28 4
  let o := fieldAt b (dir + 4 * i) 4
  slice b o (fieldAt b (dir + 4 * (i + 1)) 4 - o)

/-- Multiplication by 2 in GF(2^8) with polynomial 0x11D (R54). -/
def gf11dDouble (x : Nat) : Nat := if 128 ≤ x then (2 * x) ^^^ 0x11D else 2 * x

/-- Parity fragment 11 of data fragments by Horner's rule: sum of 2^f D_f. -/
def parityQ (ds : List Bytes) : Bytes :=
  ds.reverse.foldl (fun acc d => List.zipWith (fun a x => byteOf (gf11dDouble a.toNat ^^^ x.toNat)) acc d)
    (zeros ((ds.headD []).length))

/-- Parity fragment 10: exclusive-or of the data fragments. -/
def parityP (ds : List Bytes) : Bytes := ds.foldl xorBytes (zeros ((ds.headD []).length))

end Sys2Proof.Machine
end

