-- ==== Sys2Proof/Machine/Geometry.lean ====
section
/-!
DEFINITION. Engine 0x03 (spec/05_geometry_and_colour.md): TRANSFORM and NORMALISE, R128 to R143, and the parameter mappings of
the library kernels (R144).
-/
namespace Sys2Proof.Machine

/-- The parameter block of Table 5.2. -/
structure GeoParams where
  filter : Nat
  outFormat : Nat
  outChannels : Nat
  flipH : Bool
  flipV : Bool
  quarter : Nat
  rotate : Bool
  inBits : Nat
  cx : Nat
  cy : Nat
  cw : Nat
  ch : Nat
  rw : Nat
  rh : Nat
  rotU : Int
  sat : Nat
  fill : List Nat
  scale : List Int
  offset : List Int
  deriving DecidableEq, Repr

def parseGeo (b : Bytes) : GeoParams :=
  let fl := fieldAt b 3 1
  { filter := fieldAt b 0 1, outFormat := fieldAt b 1 1, outChannels := fieldAt b 2 1,
    flipH := bitOf fl 0, flipV := bitOf fl 1, quarter := fl / 4 % 4, rotate := bitOf fl 4, inBits := fieldAt b 4 1,
    cx := fieldAt b 8 2, cy := fieldAt b 10 2, cw := fieldAt b 12 2, ch := fieldAt b 14 2,
    rw := fieldAt b 16 2, rh := fieldAt b 18 2, rotU := toSigned 32 (fieldAt b 20 4), sat := fieldAt b 24 2,
    fill := (List.range 4).map (fun k => fieldAt b (28 + 2 * k) 2),
    scale := (List.range 4).map (fun k => toSigned 32 (fieldAt b (40 + 4 * k) 4)),
    offset := (List.range 4).map (fun k => toSigned 64 (fieldAt b (56 + 8 * k) 8)) }

/-- The decoded image of Table 4.5 as the engine reads it. -/
structure GeoImage where
  format : Nat
  depth : Nat
  fw : Nat
  fh : Nat
  x0 : Nat
  y0 : Nat
  w : Nat
  h : Nat
  hs : List Nat
  vs : List Nat
  hmax : Nat
  vmax : Nat
  data : Array Nat
  starts : List Nat
  deriving DecidableEq, Repr

def planeCount (format : Nat) : Nat := [3, 1, 3, 4, 2].getD format 0

/-- Header and samples; none when the header or the length is not one of Table 4.5. -/
def parseGeoImage (b : Bytes) : Option GeoImage :=
  let format := fieldAt b 0 1
  let n := fieldAt b 1 1
  let depth := fieldAt b 2 1
  let hs := toNats (slice b 16 n)
  let vs := toNats (slice b 20 n)
  if b.length < 32 ∨ 4 < format ∨ n ≠ planeCount format ∨ (depth ≠ 8 ∧ depth ≠ 16) then none
  else if hs.any (fun x => x = 0 ∨ 2 < x) ∨ vs.any (fun x => x = 0 ∨ 2 < x) then none
  else
    let hmax := hs.foldl max 1
    let vmax := vs.foldl max 1
    let w := fieldAt b 12 2
    let h := fieldAt b 14 2
    let sizes := (List.zip hs vs).map (fun p => ceilDiv (w * p.1) hmax * ceilDiv (h * p.2) vmax)
    let total := sizes.sum
    let sb := depth / 8
    if b.length < 32 + total * sb then none
    else
      let body := toNats ((b.drop 32).take (total * sb))
      let data :=
        if sb = 1 then body.toArray
        else
          let a := body.toArray
          ((List.range total).map (fun i => a.getD (2 * i) 0 + 256 * a.getD (2 * i + 1) 0)).toArray
      let starts := (sizes.foldl (fun (p : List Nat × Nat) s => (p.1 ++ [p.2], p.2 + s)) ([], 0)).1
      some ⟨format, depth, fieldAt b 4 2, fieldAt b 6 2, fieldAt b 8 2, fieldAt b 10 2, w, h, hs, vs, hmax, vmax, data, starts⟩

/-- asr(x, n): floor of x / 2^n. -/
def asr (x : Int) (n : Nat) : Int := x / (2 ^ n : Nat)

/-- divr of R131. -/
def divr (n d : Int) : Int := (2 * n + d) / (2 * d)

def clampI (lo hi x : Int) : Int := if x < lo then lo else if hi < x then hi else x

/-- Phase bits and weight bits of Table 5.3. -/
def geoPrecision (profile : Nat) : Nat × Nat := if profile = 0 then (5, 12) else if profile = 1 then (6, 13) else (7, 14)

/-- Resize-grid index of an output pixel (R130, Table 5.3a). -/
def gridIndex (g : GeoParams) (ox oy : Nat) : Nat × Nat :=
  let (rx, ry) :=
    if g.quarter = 0 then (ox, oy)
    else if g.quarter = 1 then (oy, g.rh - 1 - ox)
    else if g.quarter = 2 then (g.rw - 1 - ox, g.rh - 1 - oy)
    else (g.rw - 1 - oy, ox)
  (if g.flipH then g.rw - 1 - rx else rx, if g.flipV then g.rh - 1 - ry else ry)

/-- cos and sin in Q16 (R131). -/
def rotation (g : GeoParams) : Int × Int :=
  let uu := g.rotU * g.rotU
  (divr ((2 ^ 32 - uu) * 2 ^ 16) (2 ^ 32 + uu), divr (2 * g.rotU * 2 ^ 32) (2 ^ 32 + uu))

/-- The sampling position of R132: px, py in Q16, inside. -/
def position (g : GeoParams) (rx ry : Nat) : Int × Int × Bool :=
  let dx : Int := ((((2 * rx + 1) * g.cw) * 65536) / (2 * g.rw) : Nat) - (g.cw * 32768 : Nat)
  let dy : Int := ((((2 * ry + 1) * g.ch) * 65536) / (2 * g.rh) : Nat) - (g.ch * 32768 : Nat)
  let (cs, sn) := rotation g
  let ex := if g.rotate then asr (cs * dx + sn * dy + 32768) 16 else dx
  let ey := if g.rotate then asr (cs * dy - sn * dx + 32768) 16 else dy
  let xc : Int := (g.cx * 65536 + g.cw * 32768 : Nat) + ex
  let yc : Int := (g.cy * 65536 + g.ch * 32768 : Nat) + ey
  let inside := decide ((g.cx * 65536 : Nat) ≤ xc ∧ xc < ((g.cx + g.cw) * 65536 : Nat) ∧
    (g.cy * 65536 : Nat) ≤ yc ∧ yc < ((g.cy + g.ch) * 65536 : Nat))
  (xc - 32768, yc - 32768, inside)

/-- A bicubic weight: ONE × n / (2 PH^3), halves away from zero (R135). -/
def cubicRound (one : Nat) (n : Int) (ph3 : Nat) : Int :=
  let num : Int := one * n
  let q : Int := ((2 * num.natAbs + 2 * ph3) / (4 * ph3) : Nat)
  if num < 0 then -q else q

/-- Index of the largest magnitude, the lower tap on a tie. -/
def largestAt : List Int → Nat → Nat → Nat → Nat
  | [], _, best, _ => best
  | x :: xs, i, best, mag => if mag < x.natAbs then largestAt xs (i + 1) i x.natAbs else largestAt xs (i + 1) best mag

/-- Taps (index, weight) along one axis from a plane position (R134, R135). -/
def filterTaps (filter : Nat) (prec : Nat × Nat) (p : Int) : List (Int × Int) :=
  let b := prec.1
  let one : Nat := 2 ^ prec.2
  if filter = 0 then [(asr (p + 32768) 16, (one : Int))]
  else
    let ph0 := asr (p % 65536 + (2 ^ (15 - b) : Nat)) (16 - b)
    let phs : Int := (2 ^ b : Nat)
    let idx := if ph0 = phs then asr p 16 + 1 else asr p 16
    let ph := if ph0 = phs then 0 else ph0
    if filter = 1 then [(idx, one - ph * one / phs), (idx + 1, ph * one / phs)]
    else
      let q := phs
      let ns : List Int := [-(ph ^ 3) + 2 * ph ^ 2 * q - ph * q ^ 2, 3 * ph ^ 3 - 5 * ph ^ 2 * q + 2 * q ^ 3,
        -(3 * ph ^ 3) + 4 * ph ^ 2 * q + ph * q ^ 2, ph ^ 3 - ph ^ 2 * q]
      let ws := ns.map (fun n => cubicRound one n ((2 ^ b) ^ 3))
      let k := largestAt ws 0 0 0
      let fix := (one : Int) - ws.sum
      let ws := ws.set k (ws.getD k 0 + fix)
      (List.zip ws (List.range 4)).map (fun e => (idx - 1 + (e.2 : Int), e.1))

/-- Plane geometry: width and height of the full plane, its decoded rectangle (x, y, w, h). -/
def planeDims (m : GeoImage) (c : Nat) : Nat × Nat × Nat × Nat × Nat × Nat :=
  let hs := m.hs.getD c 1
  let vs := m.vs.getD c 1
  (ceilDiv (m.fw * hs) m.hmax, ceilDiv (m.fh * vs) m.vmax,
   m.x0 * hs / m.hmax, m.y0 * vs / m.vmax, ceilDiv (m.w * hs) m.hmax, ceilDiv (m.h * vs) m.vmax)

/-- A sample of plane c, the tap clamped to the plane; none outside the decoded rectangle (R136). -/
def tapValue (m : GeoImage) (c : Nat) (ix iy : Int) : Option Nat :=
  let (pw, phh, rx, ry, rw, rh) := planeDims m c
  let x := (clampI 0 (pw - 1 : Nat) ix).toNat
  let y := (clampI 0 (phh - 1 : Nat) iy).toNat
  if x < rx ∨ rx + rw ≤ x ∨ y < ry ∨ ry + rh ≤ y then none
  else some (m.data.getD (m.starts.getD c 0 + (y - ry) * rw + (x - rx)) 0)

def sumTaps (m : GeoImage) (c : Nat) (xs ys : List (Int × Int)) : Option Int :=
  ys.foldl (fun acc ty =>
    match acc with
    | none => none
    | some a =>
      match xs.foldl (fun r tx =>
          match r, tapValue m c tx.1 ty.1 with
          | some s, some v => some (s + tx.2 * (v : Int))
          | _, _ => none) (some (0 : Int)) with
      | none => none
      | some s => some (a + ty.2 * s)) (some 0)

/-- One plane sample by nearest, bilinear or bicubic (R133 to R137). -/
def planeSample (g : GeoParams) (prec : Nat × Nat) (m : GeoImage) (c : Nat) (px py : Int) : Option Int :=
  let pxc := asr (px + 32768) (Nat.log2 (m.hmax / m.hs.getD c 1)) - 32768
  let pyc := asr (py + 32768) (Nat.log2 (m.vmax / m.vs.getD c 1)) - 32768
  let w := prec.2
  (sumTaps m c (filterTaps g.filter prec pxc) (filterTaps g.filter prec pyc)).map (fun acc =>
    clampI 0 ((2 ^ g.inBits - 1 : Nat) : Int) (asr (acc + (2 ^ (2 * w - 1) : Nat)) (2 * w)))

/-- Overlap weights of an output index along one axis (R138): source index and weight. -/
def areaTaps (c0 cn rn r : Nat) : List (Int × Int) :=
  (List.range cn).filterMap (fun i =>
    let lo := max (i * rn) (r * cn)
    let hi := min ((i + 1) * rn) ((r + 1) * cn)
    if lo < hi then some (((c0 + i : Nat) : Int), ((hi - lo : Nat) : Int)) else none)

def areaSample (g : GeoParams) (m : GeoImage) (c rx ry : Nat) : Option Int :=
  (sumTaps m c (areaTaps g.cx g.cw g.rw rx) (areaTaps g.cy g.ch g.rh ry)).map (fun acc =>
    (acc + ((g.cw * g.ch / 2 : Nat) : Int)) / ((g.cw * g.ch : Nat) : Int))

/-- Planes of one pixel. -/
def pixelPlanes (g : GeoParams) (prec : Nat × Nat) (m : GeoImage) (rx ry : Nat) (px py : Int) : Option (List Int) :=
  (List.range (planeCount m.format)).foldr (fun c acc =>
    match acc, (if g.filter = 3 then areaSample g m c rx ry else planeSample g prec m c px py) with
    | some l, some v => some (v :: l)
    | _, _ => none) (some [])

def greyOf (r g b : Int) : Int := asr (19595 * r + 38470 * g + 7471 * b + 32768) 16

/-- Colour conversion and saturation (R139, R140). -/
def convertColour (g : GeoParams) (format : Nat) (p : List Int) : List Int :=
  let maxv : Int := ((2 ^ g.inBits - 1 : Nat) : Int)
  let off : Int := ((2 ^ (g.inBits - 1) : Nat) : Int)
  let at' (i : Nat) := p.getD i 0
  let cl := clampI 0 maxv
  if g.outChannels = 4 then p
  else
    let rgb : List Int :=
      if format = 0 then
        let cb := at' 1 - off
        let cr := at' 2 - off
        [cl (at' 0 + asr (91881 * cr + 32768) 16), cl (at' 0 + asr (-22553 * cb - 46802 * cr + 32768) 16),
         cl (at' 0 + asr (116130 * cb + 32768) 16)]
      else if format = 1 ∨ format = 4 then [at' 0, at' 0, at' 0]
      else [at' 0, at' 1, at' 2]
    let alpha := if format = 4 then at' 1 else if format = 3 then at' 3 else maxv
    if g.outChannels = 2 then
      [if format = 0 ∨ format = 1 ∨ format = 4 then at' 0 else greyOf (at' 0) (at' 1) (at' 2)]
    else
      let y := greyOf (rgb.getD 0 0) (rgb.getD 1 0) (rgb.getD 2 0)
      let rgb := if g.sat = 4096 then rgb else rgb.map (fun c => cl (y + asr ((g.sat : Int) * (c - y) + 2048) 12))
      if g.outChannels = 0 then rgb
      else if g.outChannels = 1 then rgb.reverse
      else rgb ++ [alpha]

def geoChannels (oc : Nat) : Nat := if oc = 2 then 1 else if oc = 3 then 4 else 3

def geoElem (fmt : Nat) : Nat := if fmt ≤ 1 then 1 else 2

/-- Nearest integer to n / 2^24, ties to even. -/
def roundQ24 (n : Int) : Int := if n < 0 then -(divPow2Even n.natAbs 24 : Int) else divPow2Even n.natAbs 24

/-- Normalisation and output of channel k with value v (R141). -/
def normalise (g : GeoParams) (k : Nat) (v : Int) : Bytes :=
  let n := v * g.scale.getD k 0 + g.offset.getD k 0
  if g.outFormat = 0 then [byteOf (clampI 0 255 (roundQ24 n)).toNat]
  else if g.outFormat = 1 then [byteOf (encodeFloat fmtE4M3 true n (-24))]
  else if g.outFormat = 2 then toLE 2 (encodeFloat fmtFP16 true n (-24))
  else toLE 2 (encodeFloat fmtBF16 true n (-24))

def normPixel (g : GeoParams) (l : List Int) : Bytes :=
  (List.zip l (List.range l.length)).flatMap (fun p => normalise g p.2 p.1)

/-- The field checks of R129 that hold for either operation. (DEDUCED, log entry 22.) -/
def geoFieldsOk (g : GeoParams) : Bool :=
  decide (g.filter ≤ 3 ∧ g.outFormat ≤ 3 ∧ g.outChannels ≤ 4 ∧ 8 ≤ g.inBits ∧ g.inBits ≤ 16 ∧
    -65536 ≤ g.rotU ∧ g.rotU ≤ 65536 ∧ g.cw ≠ 0 ∧ g.ch ≠ 0 ∧ g.rw ≠ 0 ∧ g.rh ≠ 0 ∧
    ¬ (g.filter = 3 ∧ (g.rotate = true ∨ g.cw < g.rw ∨ g.ch < g.rh)))

def geoImageOk (g : GeoParams) (m : GeoImage) : Bool :=
  decide (g.cx + g.cw ≤ m.fw ∧ g.cy + g.ch ≤ m.fh ∧
    (m.depth = 8 → g.inBits = 8) ∧ (m.depth = 16 → g.inBits ≠ 8) ∧
    ¬ (g.filter = 3 ∧ (m.hs.any (· ≠ m.hmax) ∨ m.vs.any (· ≠ m.vmax))) ∧
    ¬ (g.outChannels = 4 ∧ m.format ≠ 0) ∧ ¬ (g.outChannels = 3 ∧ m.format = 0))

def outGrid (g : GeoParams) : Nat × Nat := if g.quarter % 2 = 0 then (g.rw, g.rh) else (g.rh, g.rw)

/-- Output bytes of one pixel; none when a tap lies outside the decoded rectangle. -/
def geoPixel (g : GeoParams) (prec : Nat × Nat) (m : GeoImage) (ox oy : Nat) : Option Bytes :=
  let (rx, ry) := gridIndex g ox oy
  let (px, py, inside) := position g rx ry
  if inside then
    (pixelPlanes g prec m rx ry px py).map (fun p => normPixel g (convertColour g m.format p))
  else some (normPixel g ((g.fill.take (geoChannels g.outChannels)).map (fun (x : Nat) => (x : Int))))

def geoRows (g : GeoParams) (prec : Nat × Nat) (m : GeoImage) : List (Nat × Nat) → Option (List Bytes)
  | [] => some []
  | (ox, oy) :: rest =>
    match geoPixel g prec m ox oy with
    | none => none
    | some b => (geoRows g prec m rest).map (fun r => b :: r)

/-- TRANSFORM (R128 to R141, R143): `overlap` says that the output range meets the input or auxiliary range. -/
def geoTransform (profile : Nat) (overlap : Bool) (input aux : Bytes) (cap : Nat) : EngRes :=
  let g := parseGeo aux
  if aux.length ≠ 128 ∨ overlap ∨ !geoFieldsOk g then engFail stGEO_ARGS
  else
    match parseGeoImage input with
    | none => engFail stGEO_ARGS
    | some m =>
      if !geoImageOk g m then engFail stGEO_ARGS
      else
        let (ow, oh) := outGrid g
        let len := ow * oh * geoChannels g.outChannels * geoElem g.outFormat
        if cap < len then engFail stGEO_LIMIT
        else
          let coords := (List.range oh).flatMap (fun oy => (List.range ow).map (fun ox => (ox, oy)))
          match geoRows g (geoPrecision profile) m coords with
          | none => engFail stGEO_COVERAGE
          | some rows => ⟨stOK, len, rows.flatten⟩

/-- NORMALISE (R142). (DEDUCED, log entry 22.) -/
def geoNormalise (overlap : Bool) (input aux : Bytes) (cap : Nat) : EngRes :=
  let g := parseGeo aux
  let n := geoChannels g.outChannels
  let es := if g.inBits = 8 then 1 else 2
  if aux.length ≠ 128 ∨ overlap ∨ !geoFieldsOk g ∨ input.length % (n * es) ≠ 0 then engFail stGEO_ARGS
  else
    let count := input.length / es
    let len := count * geoElem g.outFormat
    if cap < len then engFail stGEO_LIMIT
    else
      let a := input.toArray
      let val (i : Nat) : Nat := if es = 1 then (a.getD i 0).toNat else (a.getD (2 * i) 0).toNat + 256 * (a.getD (2 * i + 1) 0).toNat
      ⟨stOK, len, (List.range count).flatMap (fun i => normalise g (i % n) (val i : Int))⟩

/-! ## Parameter mappings of the library kernels (R144, Table 5.7) -/

def rangeQ (w lo hi : Nat) : Nat := lo + ((hi - lo) * w) / 2 ^ 32

def clampN (lo hi x : Nat) : Nat := if x < lo then lo else if hi < x then hi else x

/-- Crop width and height from area and aspect words. -/
def cropSize (fw fh a r : Nat) : Nat × Nat :=
  let t := fw * fh
  (clampN 1 fw (Nat.sqrt ((t * a * r) / 2 ^ 32)), clampN 1 fh (Nat.sqrt ((t * a) / r)))

def cropOrigin (w full size : Nat) : Nat := (w * (full - size + 1)) / 2 ^ 32

def brightness (a0 g : Int) : Int := asr (a0 * g + 2048) 12

def rotationParam (w uMax : Nat) : Int := (rangeQ w 0 (2 * uMax) : Int) - uMax

end Sys2Proof.Machine
end

