-- ==== Sys2Proof/Machine/Jpeg.lean ====
section
/-!
DEFINITION. The image decoder's JPEG half (R115, R116, R118, R119, R120): ITU-T T.81 baseline, extended sequential and
progressive Huffman frames into component planes. Coefficients of every block are held, then transformed.
-/
namespace Sys2Proof.Machine

/-- A decoded image (Table 4.5): header fields and the samples of each plane, row by row. -/
structure Image where
  format : Nat
  depth : Nat
  region : Bool
  fullW : Nat
  fullH : Nat
  x0 : Nat
  y0 : Nat
  w : Nat
  h : Nat
  hs : List Nat
  vs : List Nat
  planes : List (List Nat)
  deriving DecidableEq, Repr

/-- The 32-byte header of Table 4.5. -/
def Image.header (m : Image) : Bytes :=
  let pad (l : List Nat) := ofNats (l ++ List.replicate (4 - l.length) 0)
  [byteOf m.format, byteOf m.hs.length, byteOf m.depth, byteOf (if m.region then 1 else 0)] ++
  toLE 2 m.fullW ++ toLE 2 m.fullH ++ toLE 2 m.x0 ++ toLE 2 m.y0 ++ toLE 2 m.w ++ toLE 2 m.h ++
  pad m.hs ++ pad m.vs ++ zeros 8

def Image.bytes (m : Image) : Bytes :=
  m.header ++ m.planes.flatMap (fun p => p.flatMap (toLE (m.depth / 8)))

structure JComp where
  id : Nat
  h : Nat
  v : Nat
  tq : Nat
  bw : Nat
  bh : Nat
  stride : Nat
  coef : Array Int
  seen : Bool
  deriving DecidableEq, Repr

structure JFrame where
  progressive : Bool
  w : Nat
  h : Nat
  hmax : Nat
  vmax : Nat
  mcux : Nat
  mcuy : Nat
  comps : List JComp
  deriving DecidableEq, Repr

structure JTables where
  q : List (Option (List Nat))
  dc : List (Option Huff)
  ac : List (Option Huff)
  ri : Nat
  deriving DecidableEq, Repr

/-- The entropy-coded stream: bits of the current segment (most significant first), bytes from the marker on. -/
structure JBits where
  bits : List Bool
  rest : Bytes
  deriving DecidableEq, Repr

def jBad {α : Type} : Except Status α := .error stDEC_MALFORMED
def jUnsup {α : Type} : Except Status α := .error stDEC_UNSUPPORTED
def jCheck (ok : Bool) : Except Status Unit := if ok then .ok () else .error stDEC_MALFORMED

def msbBits (b : Byte) : List Bool := (byteBits b).reverse

/-- The bits up to the next marker, stuffed zero bytes removed. -/
def jSegment : Nat → Bytes → List Bool → JBits
  | 0, d, acc => ⟨acc.reverse, d⟩
  | _ + 1, [], acc => ⟨acc.reverse, []⟩
  | fuel + 1, b :: rest, acc =>
    if b = 255#8 then
      match rest with
      | 0#8 :: rest' => jSegment fuel rest' ((byteBits b) ++ acc)
      | 255#8 :: _ => jSegment fuel rest acc
      | _ => ⟨acc.reverse, b :: rest⟩
    else jSegment fuel rest ((byteBits b) ++ acc)

def jStart (d : Bytes) : JBits := jSegment (d.length + 1) d []

/-- Two-component positional code walk over the bits. -/
def jWalk : Huff → Nat → Nat → List Bool → Except Status (Nat × List Bool)
  | [], _, _, _ => jBad
  | _, _, _, [] => jBad
  | row :: rows, code, first, b :: bs =>
    let code := 2 * code + (if b then 1 else 0)
    let first := 2 * first
    if code < first + row.length then .ok (row.getD (code - first) 0, bs)
    else jWalk rows code (first + row.length) bs

def jTake (k : Nat) (bs : List Bool) : Except Status (Nat × List Bool) :=
  let t := bs.take k
  if t.length = k then .ok (bitsNat t.reverse, bs.drop k) else jBad

/-- EXTEND of T.81: a value of `s` bits. -/
def jExtend (v s : Nat) : Int := if s = 0 then 0 else if v < 2 ^ (s - 1) then (v : Int) - (2 ^ s - 1) else v

def zigzag : List Nat :=
  [0, 1, 8, 16, 9, 2, 3, 10, 17, 24, 32, 25, 18, 11, 4, 5, 12, 19, 26, 33, 40, 48, 41, 34, 27, 20, 13, 6, 7, 14, 21, 28] ++
  [35, 42, 49, 56, 57, 50, 43, 36, 29, 22, 15, 23, 30, 37, 44, 51, 58, 59, 52, 45, 38, 31, 39, 46, 53, 60, 61, 54, 47, 55, 62, 63]

/-- A scan's parameters: spectral band, successive approximation. -/
structure JScan where
  ss : Nat
  se : Nat
  ah : Nat
  al : Nat
  deriving DecidableEq, Repr

/-- Decoding progress inside a scan: coefficients of one component, bits, its DC predictor, the EOB run. -/
structure JWork where
  coef : Array Int
  bits : List Bool
  pred : Int
  eob : Nat
  deriving DecidableEq, Repr

def jSet (w : JWork) (base k : Nat) (v : Int) : JWork :=
  { w with coef := w.coef.setIfInBounds (base + zigzag.getD k 0) v }
def jGet (w : JWork) (base k : Nat) : Int := w.coef.getD (base + zigzag.getD k 0) 0

/-- The AC coefficients of a sequential block. -/
def jSeqAC (ac : Huff) (base : Nat) : Nat → Nat → JWork → Except Status JWork
  | 0, _, _ => jBad
  | fuel + 1, k, w =>
    if 64 ≤ k then .ok w
    else do
      let (rs, bs) ← jWalk ac 0 0 w.bits
      let r := rs / 16
      let s := rs % 16
      let w := { w with bits := bs }
      if s = 0 then
        if r = 15 then (if 64 < k + 16 then jBad else jSeqAC ac base fuel (k + 16) w)
        else if r = 0 then return w
        else jBad
      else
        jCheck (k + r ≤ 63 ∧ s ≤ 10)
        let (v, bs) ← jTake s w.bits
        jSeqAC ac base fuel (k + r + 1) (jSet { w with bits := bs } base (k + r) (jExtend v s))

def jDCFirst (dc : Huff) (base al : Nat) (w : JWork) : Except Status JWork := do
  let (s, bs) ← jWalk dc 0 0 w.bits
  jCheck (s ≤ 11)
  let (v, bs) ← jTake s bs
  let p := w.pred + jExtend v s
  return jSet { w with bits := bs, pred := p } base 0 (p * 2 ^ al)

def jACFirst (ac : Huff) (sc : JScan) (base : Nat) : Nat → Nat → JWork → Except Status JWork
  | 0, _, _ => jBad
  | fuel + 1, k, w =>
    if sc.se < k then .ok w
    else do
      let (rs, bs) ← jWalk ac 0 0 w.bits
      let r := rs / 16
      let s := rs % 16
      let w := { w with bits := bs }
      if s = 0 then
        if r = 15 then (if sc.se + 1 < k + 16 then jBad else jACFirst ac sc base fuel (k + 16) w)
        else
          let (x, bs) ← jTake r w.bits
          return { w with bits := bs, eob := 2 ^ r + x - 1 }
      else
        jCheck (k + r ≤ sc.se ∧ s ≤ 10)
        let (v, bs) ← jTake s w.bits
        jACFirst ac sc base fuel (k + r + 1)
          (jSet { w with bits := bs } base (k + r) (jExtend v s * 2 ^ sc.al))

/-- Refines a nonzero coefficient with the next correction bit. -/
def jCorrect (base k al : Nat) (w : JWork) : Except Status JWork := do
  let (b, bs) ← jTake 1 w.bits
  let w := { w with bits := bs }
  let c := jGet w base k
  if b = 1 ∧ (c.natAbs / 2 ^ al) % 2 = 0 then
    return jSet w base k (if 0 ≤ c then c + 2 ^ al else c - 2 ^ al)
  else return w

/-- Refines nonzero coefficients and passes `zerosLeft` zero ones; stops at the next zero coefficient's place. -/
def jPass (sc : JScan) (base : Nat) : Nat → Nat → Nat → JWork → Except Status (Nat × JWork)
  | 0, _, _, _ => jBad
  | fuel + 1, k, left, w =>
    if sc.se < k then .ok (k, w)
    else if jGet w base k ≠ 0 then do
      let w ← jCorrect base k sc.al w
      jPass sc base fuel (k + 1) left w
    else if left = 0 then .ok (k, w)
    else jPass sc base fuel (k + 1) (left - 1) w

def jACRefine (ac : Huff) (sc : JScan) (base : Nat) : Nat → Nat → JWork → Except Status JWork
  | 0, _, _ => jBad
  | fuel + 1, k, w =>
    if sc.se < k then .ok w
    else do
      let (rs, bs) ← jWalk ac 0 0 w.bits
      let r := rs / 16
      let s := rs % 16
      let w := { w with bits := bs }
      if s = 0 ∧ r < 15 then
        let (x, bs) ← jTake r w.bits
        let (_, w) ← jPass sc base 70 k 64 { w with bits := bs }
        return { w with eob := 2 ^ r + x - 1 }
      else
        jCheck (s ≤ 1)
        let (sign, bs) ← jTake s w.bits
        let (k', w) ← jPass sc base 70 k r { w with bits := bs }
        if s = 1 then
          jCheck (k' ≤ sc.se)
          jACRefine ac sc base fuel (k' + 1)
            (jSet w base k' (if sign = 1 then 2 ^ sc.al else -(2 ^ sc.al)))
        else
          jCheck (k' ≤ sc.se)
          jACRefine ac sc base fuel (k' + 1) w

/-- One block of one component in a scan. -/
def jBlock (prog : Bool) (sc : JScan) (dc ac : Option Huff) (base : Nat) (w : JWork) : Except Status JWork := do
  let need (h : Option Huff) : Except Status Huff := match h with | some h => .ok h | none => jBad
  if !prog then
    let w ← jDCFirst (← need dc) base 0 w
    jSeqAC (← need ac) base 65 1 w
  else if sc.ss = 0 then
    if sc.ah = 0 then jDCFirst (← need dc) base sc.al w
    else
      let (b, bs) ← jTake 1 w.bits
      let w := { w with bits := bs }
      if b = 1 then
        let c := jGet w base 0
        return (if (c / 2 ^ sc.al) % 2 = 0 then jSet w base 0 (c + 2 ^ sc.al) else w)
      else return w
  else if 0 < w.eob then
    if sc.ah = 0 then return { w with eob := w.eob - 1 }
    else
      let (_, w') ← jPass sc base 70 sc.ss 64 w
      return { w' with eob := w.eob - 1 }
  else if sc.ah = 0 then jACFirst (← need ac) sc base 65 sc.ss w
  else jACRefine (← need ac) sc base 65 sc.ss w

/-- A component of a scan: its index in the frame, its tables, its DC predictor. -/
structure JSel where
  idx : Nat
  dc : Option Huff
  ac : Option Huff
  pred : Int
  deriving DecidableEq, Repr

structure JRun where
  comps : List JComp
  sels : List JSel
  jb : JBits
  eob : Nat
  deriving DecidableEq, Repr

/-- Blocks of one scan component inside the MCU at (mx, my). -/
def jBlocksOf (single : Bool) (c : JComp) (mx my : Nat) : List Nat :=
  if single then [(my * c.stride + mx) * 64]
  else (List.range c.v).flatMap (fun y => (List.range c.h).map (fun x =>
    ((my * c.v + y) * c.stride + mx * c.h + x) * 64))

def jFoldBlocks (prog : Bool) (sc : JScan) (dc ac : Option Huff) : List Nat → JWork → Except Status JWork
  | [], w => .ok w
  | b :: bs, w =>
    match jBlock prog sc dc ac b w with
    | .error e => .error e
    | .ok w => jFoldBlocks prog sc dc ac bs w

def jMcuSels (fr : JFrame) (sc : JScan) (mx my : Nat) (single : Bool) : Nat → JRun → Except Status JRun
  | 0, r => .ok r
  | k + 1, r =>
    -- components in scan order: index = number of selections − 1 − k
    let i := r.sels.length - 1 - k
    match r.sels[i]? with
    | none => jBad
    | some sel =>
      match r.comps[sel.idx]? with
      | none => jBad
      | some c =>
        let blocks := jBlocksOf single c mx my
        let comps' := r.comps.set sel.idx { c with coef := #[], seen := true }
        match jFoldBlocks fr.progressive sc sel.dc sel.ac blocks ⟨c.coef, r.jb.bits, sel.pred, r.eob⟩ with
        | .error e => .error e
        | .ok w =>
          jMcuSels fr sc mx my single k
            { comps := comps'.set sel.idx { c with coef := w.coef, seen := true }
              sels := r.sels.set i { sel with pred := w.pred }
              jb := { r.jb with bits := w.bits }
              eob := w.eob }

/-- Crosses a restart marker: the segment's remaining bits are dropped, predictors start again. -/
def jRestart (n : Nat) (r : JRun) : Except Status JRun :=
  match r.jb.rest with
  | 255#8 :: m :: rest =>
    if m = byteOf (208 + n % 8) then
      .ok { r with jb := jStart rest, sels := r.sels.map (fun s => { s with pred := 0 }), eob := 0 }
    else jBad
  | _ => jBad

/-- MCUs number `from'` to `from' + count − 1` of a scan whose rows hold `cols` MCUs. -/
def jMcus (fr : JFrame) (sc : JScan) (ri cols : Nat) (single : Bool) : Nat → Nat → Nat → JRun → Except Status JRun
  | 0, _, _, r => .ok r
  | count + 1, first, i, r => do
    let r ← (if ri ≠ 0 ∧ i ≠ first ∧ i % ri = 0 then jRestart (i / ri - 1) r else .ok r)
    let r ← jMcuSels fr sc (i % cols) (i / cols) single r.sels.length r
    jMcus fr sc ri cols single count first (i + 1) r

/-! ## Markers -/

def jHuffTable (counts : List Nat) (vals : List Nat) : Option Huff :=
  let used := (List.zip counts (List.range 16)).map (fun p => p.1 * 2 ^ (15 - p.2))
  if 2 ^ 16 ≤ used.sum then none
  else some ((counts.foldl (fun (p : Huff × List Nat) c => (p.2.take c :: p.1, p.2.drop c)) ([], vals)).1.reverse)

def jDHT : Nat → Bytes → JTables → Except Status JTables
  | 0, _, _ => jBad
  | fuel + 1, d, t =>
    if d = [] then .ok t
    else do
      jCheck (17 ≤ d.length)
      let tc := fieldAt d 0 1 / 16
      let th := fieldAt d 0 1 % 16
      let counts := toNats ((d.drop 1).take 16)
      let n := counts.sum
      jCheck (tc ≤ 1 ∧ th ≤ 3 ∧ n ≤ 256 ∧ 17 + n ≤ d.length)
      match jHuffTable counts (toNats ((d.drop 17).take n)) with
      | none => jBad
      | some h =>
        jDHT fuel (d.drop (17 + n)) (if tc = 0 then { t with dc := t.dc.set th (some h) } else { t with ac := t.ac.set th (some h) })

def jDQT : Nat → Bytes → JTables → Except Status JTables
  | 0, _, _ => jBad
  | fuel + 1, d, t =>
    if d = [] then .ok t
    else do
      let pq := fieldAt d 0 1 / 16
      let tq := fieldAt d 0 1 % 16
      let sz := if pq = 0 then 1 else 2
      jCheck (pq ≤ 1 ∧ tq ≤ 3 ∧ 1 + 64 * sz ≤ d.length)
      let vals := (List.range 64).map (fun i => beNat (slice d (1 + i * sz) sz))
      jDQT fuel (d.drop (1 + 64 * sz)) { t with q := t.q.set tq (some vals) }

def jSOF (marker : Nat) (d : Bytes) : Except Status JFrame := do
  jCheck (6 ≤ d.length)
  if fieldAt d 0 1 ≠ 8 then jUnsup
  let h := beNat (slice d 1 2)
  let w := beNat (slice d 3 2)
  let n := fieldAt d 5 1
  if n = 2 ∨ n = 4 then jUnsup
  jCheck (h ≠ 0 ∧ w ≠ 0 ∧ (n = 1 ∨ n = 3) ∧ d.length = 6 + 3 * n)
  let raw := (List.range n).map (fun i => (fieldAt d (6 + 3 * i) 1, fieldAt d (7 + 3 * i) 1, fieldAt d (8 + 3 * i) 1))
  if raw.any (fun c => 2 < c.2.1 / 16 ∨ 2 < c.2.1 % 16) then jUnsup
  jCheck (raw.all (fun c => 1 ≤ c.2.1 / 16 ∧ 1 ≤ c.2.1 % 16 ∧ c.2.2 ≤ 3))
  let hmax := (raw.map (fun c => c.2.1 / 16)).foldl max 1
  let vmax := (raw.map (fun c => c.2.1 % 16)).foldl max 1
  let mcux := ceilDiv w (8 * hmax)
  let mcuy := ceilDiv h (8 * vmax)
  let comps := raw.map (fun c =>
    let ch := c.2.1 / 16
    let cv := c.2.1 % 16
    ({ id := c.1, h := ch, v := cv, tq := c.2.2, bw := ceilDiv (ceilDiv (w * ch) hmax) 8,
       bh := ceilDiv (ceilDiv (h * cv) vmax) 8, stride := mcux * ch,
       coef := Array.replicate (mcux * ch * mcuy * cv * 64) 0, seen := false } : JComp))
  return ⟨marker = 194, w, h, hmax, vmax, mcux, mcuy, comps⟩

/-- What a call asks of the JPEG decoder. -/
inductive JWant where
  | info
  | full
  | region (c1 r0 r1 : Nat) (entries : List (Nat × Nat × Nat × List Int))
  deriving DecidableEq, Repr

structure JDec where
  tables : JTables
  frame : Option JFrame
  finished : Bool
  deriving DecidableEq, Repr

/-- A region scan with a kind 1 seek table: each MCU row of r0 to r1 from its entry (R119). -/
def jRowsByEntry (fr : JFrame) (sc : JScan) (payload : Bytes) (ri c1 : Nat)
    (entries : List (Nat × Nat × Nat × List Int)) : List Nat → JRun → Except Status JRun
  | [], r => .ok r
  | row :: rows, r =>
    match entries.find? (fun e => e.1 = row) with
    | none => jBad
    | some (_, off, bit, preds) => do
      let jb := jStart (payload.drop off)
      let sels := (List.zip r.sels (preds ++ [0, 0, 0])).map (fun p => { p.1 with pred := p.2 })
      let i := row * fr.mcux
      let r ← jMcus fr sc ri fr.mcux (decide (r.sels.length = 1)) (c1 + 1) i i
        { r with jb := { jb with bits := jb.bits.drop bit }, sels := sels, eob := 0 }
      jRowsByEntry fr sc payload ri c1 entries rows r

/-- One scan: header at `d`, entropy data after it. Gives the frame and the bytes from the next marker. -/
def jScan (payload : Bytes) (want : JWant) (t : JTables) (fr : JFrame) (hdr body : Bytes) :
    Except Status (JFrame × Bytes × Bool) := do
  jCheck (1 ≤ hdr.length)
  let n := fieldAt hdr 0 1
  jCheck (1 ≤ n ∧ n ≤ 3 ∧ hdr.length = 4 + 2 * n)
  let sc : JScan := ⟨fieldAt hdr (1 + 2 * n) 1, fieldAt hdr (2 + 2 * n) 1, fieldAt hdr (3 + 2 * n) 1 / 16, fieldAt hdr (3 + 2 * n) 1 % 16⟩
  let picks := (List.range n).map (fun i =>
    let cid := fieldAt hdr (1 + 2 * i) 1
    let tt := fieldAt hdr (2 + 2 * i) 1
    (fr.comps.findIdx (fun c => c.id = cid), tt / 16, tt % 16))
  jCheck (picks.all (fun p => p.1 < fr.comps.length ∧ p.2.1 ≤ 3 ∧ p.2.2 ≤ 3))
  jCheck ((picks.map (·.1)).Nodup)
  if fr.progressive then
    jCheck (sc.ss ≤ sc.se ∧ sc.se ≤ 63 ∧ sc.al ≤ 13 ∧ (sc.ah = 0 ∨ sc.ah = sc.al + 1))
    jCheck (if sc.ss = 0 then sc.se = 0 else n = 1)
  else pure ()
  let sels := picks.map (fun p =>
    ({ idx := p.1, dc := (t.dc.getD p.2.1 none), ac := (t.ac.getD p.2.2 none), pred := 0 } : JSel))
  let single := decide (n = 1)
  let (cols, rows) :=
    match single, picks with
    | true, p :: _ => match fr.comps[p.1]? with
      | some c => (c.bw, c.bh)
      | none => (fr.mcux, fr.mcuy)
    | _, _ => (fr.mcux, fr.mcuy)
  let run : JRun := ⟨fr.comps, sels, jStart body, 0⟩
  let onlyScan := !fr.progressive && n == fr.comps.length && cols == fr.mcux && rows == fr.mcuy
  match want with
  | .region c1 r0 r1 entries =>
    if onlyScan then
      let r ←
        (if entries ≠ [] then
          jRowsByEntry fr sc payload t.ri c1 entries ((List.range (r1 + 1 - r0)).map (· + r0)) run
        else jMcus fr sc t.ri cols single (r1 * cols + c1 + 1) 0 0 run)
      return ({ fr with comps := r.comps }, [], true)
    else
      let r ← jMcus fr sc t.ri cols single (rows * cols) 0 0 run
      return ({ fr with comps := r.comps }, r.jb.rest, false)
  | _ =>
    let r ← jMcus fr sc t.ri cols single (rows * cols) 0 0 run
    return ({ fr with comps := r.comps }, r.jb.rest, false)

/-- Marker segments until the image is complete (or, for INFO, up to the first scan). -/
def jMarkers (payload : Bytes) (want : JFrame → JWant) : Nat → Bytes → JDec → Except Status JDec
  | 0, _, _ => jBad
  | fuel + 1, d, st => do
    match d with
    | 255#8 :: 255#8 :: rest => jMarkers payload want fuel (255#8 :: rest) st
    | 255#8 :: mb :: rest =>
      let m := mb.toNat
      if m = 217 then
        match st.frame with
        | none => jBad
        | some fr => if fr.comps.all (·.seen) then return { st with finished := true } else jBad
      else
        jCheck (2 ≤ rest.length)
        let len := beNat (rest.take 2)
        jCheck (2 ≤ len ∧ len ≤ rest.length)
        let seg := (rest.drop 2).take (len - 2)
        let after := rest.drop len
        if m = 192 ∨ m = 193 ∨ m = 194 then
          jCheck st.frame.isNone
          let fr ← jSOF m seg
          jMarkers payload want fuel after { st with frame := some fr }
        else if m = 196 then
          let t ← jDHT 20 seg st.tables
          jMarkers payload want fuel after { st with tables := t }
        else if 192 ≤ m ∧ m ≤ 207 then jUnsup
        else if m = 222 ∨ m = 223 then jUnsup
        else if m = 219 then
          let t ← jDQT 20 seg st.tables
          jMarkers payload want fuel after { st with tables := t }
        else if m = 221 then
          jCheck (seg.length = 2)
          jMarkers payload want fuel after { st with tables := { st.tables with ri := beNat seg } }
        else if m = 218 then
          match st.frame with
          | none => jBad
          | some fr =>
            if want fr = .info then return { st with finished := true }
            else
              jCheck (fr.comps.all (fun c => (st.tables.q.getD c.tq none).isSome))
              let (fr, next, fin) ← jScan payload (want fr) st.tables fr seg after
              let st := { st with frame := some fr }
              if fin then return { st with finished := true } else jMarkers payload want fuel next st
        else if (224 ≤ m ∧ m ≤ 239) ∨ m = 254 then jMarkers payload want fuel after st
        else jBad
    | _ => jBad

/-! ## Inverse transform (R116) -/

def idctM (j : Nat) : Int := [0, 4017, 3784, 3406, 2896, 2276, 1567, 799].getD j 0

/-- K[x][u] of R116. -/
def idctK (x u : Nat) : Int :=
  if u = 0 then 2896
  else
    let m := (2 * x + 1) * u % 32
    let m := if 16 < m then 32 - m else m
    if 8 < m then -(idctM (16 - m)) else idctM m

def idctKs : Array Int := ((List.range 64).map (fun i => idctK (i / 8) (i % 8))).toArray

def clampByte (x : Int) : Nat := if x < 0 then 0 else if 255 < x then 255 else x.toNat

/-- The 64 pixels of a block from its dequantized coefficients, row by row. -/
def idctBlock (f : Array Int) : Array Nat :=
  let dot (k : Nat → Int) (v : Nat → Int) : Int := (List.range 8).foldl (fun a u => a + k u * v u) 0
  let r := ((List.range 64).map (fun i =>
    Int.shiftRight (dot (fun u => idctKs.getD (i % 8 * 8 + u) 0) (fun u => f.getD (i / 8 * 8 + u) 0) + 2 ^ 10) 11)).toArray
  ((List.range 64).map (fun i =>
    let s := Int.shiftRight (dot (fun v => idctKs.getD (i / 8 * 8 + v) 0) (fun v => r.getD (v * 8 + i % 8) 0) + 2 ^ 14) 15
    clampByte (s + 128))).toArray

def dequant (q : List Nat) (coef : Array Int) (base : Nat) : Array Int :=
  let qn := (List.zip zigzag q).foldl (fun (a : Array Nat) p => a.setIfInBounds p.1 p.2) (Array.replicate 64 0)
  ((List.range 64).map (fun i => coef.getD (base + i) 0 * (qn.getD i 0 : Int))).toArray

/-- The rectangle [x0, x0+w) × [y0, y0+h) of a component's plane. -/
def jPlane (q : List Nat) (c : JComp) (x0 y0 w h : Nat) : List Nat :=
  if w = 0 ∨ h = 0 then []
  else
    let bx0 := x0 / 8
    let bx1 := (x0 + w - 1) / 8
    let by0 := y0 / 8
    let by1 := (y0 + h - 1) / 8
    (List.range (by1 + 1 - by0)).flatMap (fun by' =>
      let blocks := ((List.range (bx1 + 1 - bx0)).map (fun bx =>
        idctBlock (dequant q c.coef (((by0 + by') * c.stride + bx0 + bx) * 64)))).toArray
      (List.range 8).flatMap (fun r =>
        let y := (by0 + by') * 8 + r
        if y < y0 ∨ y0 + h ≤ y then []
        else (List.range w).map (fun i =>
          let x := x0 + i
          (blocks.getD (x / 8 - bx0) #[]).getD (r * 8 + x % 8) 0)))

def jPicture (st : JDec) (region : Bool) (x0 y0 w h : Nat) : Except Status Image :=
  match st.frame with
  | none => jBad
  | some fr =>
    let planes := fr.comps.map (fun c =>
      let px0 := x0 * c.h / fr.hmax
      let py0 := y0 * c.v / fr.vmax
      let pw := ceilDiv (w * c.h) fr.hmax
      let ph := ceilDiv (h * c.v) fr.vmax
      jPlane ((st.tables.q.getD c.tq none).getD []) c px0 py0 pw ph)
    .ok ⟨if fr.comps.length = 1 then 1 else 0, 8, region, fr.w, fr.h, x0, y0, w, h,
         fr.comps.map (·.h), fr.comps.map (·.v), planes⟩

def jRun (d : Bytes) (want : JFrame → JWant) : Except Status JDec :=
  match d with
  | 255#8 :: 216#8 :: rest =>
    jMarkers d want (d.length + 1) rest ⟨⟨[none, none, none, none], [none, none, none, none], [none, none, none, none], 0⟩, none, false⟩
  | _ => jBad

def jpegInfo (d : Bytes) : Except Status Image := do
  let st ← jRun d (fun _ => .info)
  match st.frame with
  | none => jBad
  | some fr => return ⟨if fr.comps.length = 1 then 1 else 0, 8, false, fr.w, fr.h, 0, 0, fr.w, fr.h,
      fr.comps.map (·.h), fr.comps.map (·.v), []⟩

def jpegFull (d : Bytes) : Except Status Image := do
  let st ← jRun d (fun _ => .full)
  match st.frame with
  | none => jBad
  | some fr => jPicture st false 0 0 fr.w fr.h

/-- Kind 1 seek-table entries (Table 2.4): MCU row, byte offset, bit offset, DC predictors.
(DEDUCED, log entry 21.) -/
def seekRows (aux : Bytes) : List (Nat × Nat × Nat × List Int) :=
  if fieldAt aux 0 1 = 1 then
    (List.range (fieldAt aux 4 4)).filterMap (fun i =>
      let o := 16 + 16 * i
      if fieldAt aux (o + 8) 2 = 0 then
        some (fieldAt aux (o + 6) 2, fieldAt aux o 4, fieldAt aux (o + 4) 1,
          [toSigned 16 (fieldAt aux (o + 10) 2), toSigned 16 (fieldAt aux (o + 12) 2), toSigned 16 (fieldAt aux (o + 14) 2)])
      else none)
  else []

/-- DECODE_REGION of a JPEG (R119, R120): the MCU-aligned cover of the rectangle, clipped to the image. -/
def jpegRegion (d aux : Bytes) (outCap x0 y0 w h : Nat) : Except Status Image := do
  let info ← jpegInfo d
  if w = 0 ∨ h = 0 ∨ info.fullW < x0 + w ∨ info.fullH < y0 + h then throw stDEC_REGION
  let hmax := info.hs.foldl max 1
  let vmax := info.vs.foldl max 1
  let mw := 8 * hmax
  let mh := 8 * vmax
  let c0 := x0 / mw
  let c1 := (x0 + w - 1) / mw
  let r0 := y0 / mh
  let r1 := (y0 + h - 1) / mh
  let st ← jRun d (fun fr => .region (min c1 (fr.mcux - 1)) r0 (min r1 (fr.mcuy - 1)) (seekRows aux))
  match st.frame with
  | none => jBad
  | some fr =>
    let blocks := (fr.comps.map (fun c => c.stride * fr.mcuy * c.v)).sum
    if fr.progressive ∧ outCap < 128 * blocks then throw stDEC_LIMIT
    jPicture st true (c0 * mw) (r0 * mh) (min ((c1 + 1) * mw) fr.w - c0 * mw) (min ((r1 + 1) * mh) fr.h - r0 * mh)

end Sys2Proof.Machine
end

