-- ==== Sys2Proof/Machine/Operands.lean ====
section
/-!
DEFINITION. Operands of lane instructions (R74, Table 3.2): registers, immediates, effective addresses, and how a lane
instruction ends (R75, R89, R94).
-/
namespace Sys2Proof.Machine

def Lane.getG (x : Lane) (r : Nat) : BitVec 64 := if r = 0 then 0#64 else Map.getD x.g r 0#64

/-- Writes to g0 are ignored. -/
def Lane.setG (x : Lane) (r : Nat) (v : BitVec 64) : Lane := if r = 0 then x else { x with g := Map.setD 0#64 x.g r v }

def Lane.getV (x : Lane) (r : Nat) : BitVec 128 := Map.getD x.v r 0#128

def Lane.setV (x : Lane) (r : Nat) (v : BitVec 128) : Lane := { x with v := Map.setD 0#128 x.v r v }

/-- rs1 + imm16, signed, modulo 2^64. -/
def Lane.addr (x : Lane) (rs1 : Nat) (imm : BitVec 16) : Nat := (x.getG rs1 + imm.signExtend 64).toNat

/-- Bits set in the low w bits of a number. -/
def popCount : Nat → Nat → Nat
  | 0, _ => 0
  | w + 1, x => x % 2 + popCount w (x / 2)

/-- pc after an instruction that does not branch. -/
def Lane.next (x : Lane) : Lane := { x with pc := (x.pc + 4) % 2 ^ 32 }

/-- How an instruction ends: the lane goes on, faults (R95) or stalls (R75). -/
inductive LaneEnd where
  | go (x : Lane)
  | fault (x : Lane) (st : Status)
  | stall (why : Stall)
  deriving DecidableEq, Repr

/-- Instructions retired since WORK.GET by the lane, or by every lane of its group kernel (R94). -/
def TileRec.retiredBy (r : TileRec) (k : Kernel) (l : Nat) : Nat :=
  if k.group then ((r.lanes.filter (fun e => bitOf k.groups (e.1 / 32))).map (fun e => e.2.retired)).foldl (· + ·) 0
  else (r.lane l).retired

/-- Retires an instruction: budget of R94, then the pc rule of R89. -/
def State.retire (s : State) (t l : Nat) (x : Lane) : State :=
  let busy := x.slot.isSome
  let x := if busy then { x with retired := x.retired + 1, stall := .none } else { x with stall := .none }
  let s := s.setLane t l x
  match s.tileImage t with
  | none => s
  | some i =>
    match i.kernelOf l with
    | some k =>
      if busy && k.budget < (s.tile t).retiredBy k l then s.laneFault t l stLANE_BUDGET
      else if x.run = .running ∧ i.code.length < x.pc + 4 then s.laneFault t l stLANE_ADDRESS
      else s
    | none => s

def State.endLane (s : State) (t l : Nat) : LaneEnd → State
  | .go x => s.retire t l x
  | .fault x st => (s.setLane t l x).laneFault t l st
  | .stall why => s.setLane t l { (s.tile t).lane l with stall := why }

/-- A lane issues only when its tile is READY or DRAINING, its quarter's clock runs (R452), Rounds does not have the tile
(R96), the lane runs a kernel, and it does not stall on another instruction (R75). -/
def State.laneIssues (s : State) (t l : Nat) (resumes : Stall → Bool) : Bool :=
  let x := (s.tile t).lane l
  (s.tileState t == tsREADY || s.tileState t == tsDRAINING) && s.clockRuns (quarterOf t) && (s.tile t).slice.isNone
    && x.run == .running
    && (x.stall == .none || resumes x.stall)

/-- One instruction of a lane that cannot stall on itself. -/
def State.lane1 (s : State) (t l : Nat) (body : Lane → LaneEnd) : State :=
  if s.laneIssues t l (fun _ => false) then s.endLane t l (body ((s.tile t).lane l)) else s

end Sys2Proof.Machine
end

