-- ==== Sys2Proof/Machine/Shadow.lean ====
section
/-!
DEFINITION. Fencing and draining of tiles (Table 3.9, R90, R317) and shadow recomputation (R390, R391): pairs, their
comparison, and the clearing of finished items.
-/
namespace Sys2Proof.Machine

/-- What fencing, draining and unseating share: items return to the hub, lanes and engines stop, the tile's chains are
freed (R317), and it leaves its barriers (R332). -/
def State.dropTile (s : State) (t : Nat) : State :=
  let c := s.tileCtx t
  let s := (s.returnItems t).stopTile t
  let s := s.freeWhere c (fun ch => ch.owner == agTILE && ch.tile == t)
  let s := s.leaveBars c t
  { s with work := { s.work with pairs := s.work.pairs.filter (fun p => p.tile != t && p.second != t && p.third != some t) } }

/-- Any state to FENCED, with F3 (Table 3.9). -/
def State.fenceTile (s : State) (t : Nat) (st : Status) (unit : Nat) : State :=
  let c := if s.fld (fTILE_STATE_SEATED t) = 1 then s.tileCtx t else noCtx
  if s.tileState t = tsFENCED then s
  else ((s.dropTile t).setTileState t tsFENCED).raise (srcTILE t) st unit c .f3

/-! ## Quarter links (R455) -/

/-- A quarter's clock runs, and its link carries traffic. -/
def State.quarterRuns (s : State) (q : Nat) : Bool :=
  s.clockRuns q && s.clock.links.contains q && !s.clock.fenced.contains q

/-- The FIFO of a link direction (up: towards the hub) and virtual channel (0 control, 1 request, 2 data). -/
def fifoKey (q : Nat) (up : Bool) (vc : Nat) : Nat := (q * 2 + (if up then 1 else 0)) * 4 + vc

/-- The sender holds a credit: the FIFO has fewer than 32 entries. (DESIGN CHOICE, log entry 65.) -/
def State.hasCredit (s : State) (q : Nat) (up : Bool) (vc : Nat) : Bool :=
  (Map.getD s.clock.fifos (fifoKey q up vc) []).length < 32

/-- An entry enters a crossing FIFO now. (DESIGN CHOICE, log entry 65.) -/
def State.cross (s : State) (q : Nat) (up : Bool) (vc : Nat) : State :=
  let k := fifoKey q up vc
  { s with clock := { s.clock with fifos := Map.put s.clock.fifos k (Map.getD s.clock.fifos k [] ++ [s.dtime]) } }

/-- Items the hub may dispatch to a tile: queued for its context under the image it holds (R99). -/
def State.nextItem (s : State) (t : Nat) : Option WorkItem :=
  s.work.queued.find? (fun w => w.ctx == s.tileCtx t && some w.image == (s.tile t).image)

def State.unqueue (s : State) (w : WorkItem) : State :=
  { s with work := { s.work with queued := s.work.queued.filter (fun x => x != w) } }

/-- READY tiles of a tile's context that hold the same image, other than the listed ones, another quarter first. -/
def State.partners (s : State) (t : Nat) (not : List Nat) : List Nat :=
  let rs := (s.readyTiles (s.tileCtx t)).filter (fun u => !not.contains u && (s.tile u).image == (s.tile t).image
    && !(s.openSlots u).isEmpty)
  let far := rs.filter (fun u => quarterOf u != quarterOf t)
  if far.isEmpty then rs else far

/-- Writes a copy of an item into a slot of a tile that the hub chooses. -/
def State.placeCopy (s : State) (t : Nat) (w : WorkItem) (copy : Nat) : State :=
  match s.choose (s.openSlots t) with
  | some n => (s.putItem t n { w with copy := copy }).used
  | none => s

/-- The item and first copy number of a new pair: the next queued item, else the tile's latest item (R391). -/
def State.pairItem (s : State) (t : Nat) : Option (WorkItem × Nat) :=
  match s.nextItem t with
  | some w => some (w, 0)
  | none => match (s.tile t).latest with
    | some w => some ({ w with copy := 0 }, 1)
    | none => none

/-- Starts a shadow pair on a READY tile that has none in flight (R390). -/
def State.startPair (s : State) (t : Nat) : State :=
  if s.tileState t != tsREADY || s.work.pairs.any (fun p => p.tile == t) || (s.openSlots t).isEmpty then s
  else match s.pairItem t with
    | none => s
    | some (w, first) =>
      let second := (s.choose (s.partners t [t])).getD t
      let s := (s.unqueue w).used
      let s := s.placeCopy t w first
      if second = t ∧ (s.openSlots t).isEmpty then s
      else
        let s := s.placeCopy second w (first + 1)
        let p : ShadowPair := { ctx := w.ctx, tile := t, second := second, third := none, item := w, first := first,
                                started := s.dtime, results := [] }
        { s with work := { s.work with pairs := s.work.pairs ++ [p], lastPair := Map.put s.work.lastPair t s.dtime } }

/-- A tile that holds uncleared items and has no pair in flight gets one at once (R391). -/
def State.forcePair (s : State) (t : Nat) : State :=
  if (s.tile t).uncleared.isEmpty then s else s.startPair t

/-- Clears a tile up to a dispatch time: its items completed before it pass to the exchange service or the packer. -/
def State.clearTile (s : State) (t upTo : Nat) : State :=
  let ds := (s.tile t).uncleared
  let s := s.mapTile t (fun r => { r with uncleared := ds.filter (fun d => upTo < d.at_) })
  { s with work := { s.work with returned := s.work.returned ++ ds.filter (fun d => d.at_ ≤ upTo) } }

/-- What a shadow comparison looks at: CRC-64 of the output, OUT_LEN and VERDICT. -/
def State.shadowKey (s : State) (d : DoneItem) : Nat × Nat × Nat :=
  (crc64 (s.readHandle d.outHandle 0 d.outLen), d.outLen, d.verdict)

/-- Frees the outputs of the copies of a pair that is over, and forgets the pair. -/
def State.endPair (s : State) (p : ShadowPair) : State :=
  let s := (p.results.filter (fun d => d.item.copy != 0)).foldl (fun s d => s.freeHandle d.outHandle) s
  { s with work := { s.work with pairs := s.work.pairs.filter (fun q => q != p) } }

def State.mismatch (s : State) : State := s.bump fFLT_SHADOW_COUNT_MISMATCH 1

/-- The result that a copy number brought. -/
def ShadowPair.result (p : ShadowPair) (copy : Nat) : Option DoneItem := p.results.find? (fun d => d.item.copy == copy)

/-- SHADOW_COMPARE: both copies of a pair are in. -/
def State.comparePair (s : State) (p : ShadowPair) : State :=
  match p.result p.first, p.result (p.first + 1) with
  | some a, some b =>
    if p.third.isSome then s
    else if s.shadowKey a = s.shadowKey b then
      let s := ((s.endPair p).clearTile p.tile p.started).clearTile p.second p.started
      (s.forcePair p.tile).forcePair p.second
    else
      let s := s.mismatch
      let third := if p.second = p.tile then some p.tile else s.choose (s.partners p.tile [p.tile, p.second])
      match third with
      | some u =>
        let s := s.used.placeCopy u p.item (p.first + 2)
        { s with work := { s.work with pairs := s.work.pairs.map (fun q => if q = p then { q with third := some u } else q) } }
      | none => (s.endPair p).raise (srcTILE p.tile) stSHADOW_DIVERGE 0xFF p.ctx .f2
  | _, _ => s

/-- The output of the delivered item becomes the output of an agreeing copy: the other result is discarded. -/
def State.replaceOutput (s : State) (t : Nat) (bad good : DoneItem) : State :=
  s.mapTile t (fun r => { r with uncleared := r.uncleared.map (fun d =>
    if d = bad then { bad with outHandle := good.outHandle, outLen := good.outLen, verdict := good.verdict } else d) })

/-- SHADOW_THIRD_COMPARE: the third copy votes. -/
def State.compareThird (s : State) (p : ShadowPair) : State :=
  match p.third, p.result p.first, p.result (p.first + 1), p.result (p.first + 2) with
  | some _, some a, some b, some c =>
    let ka := s.shadowKey a
    let kb := s.shadowKey b
    let kc := s.shadowKey c
    if p.second = p.tile then
      if kc = ka then
        ((s.endPair p).clearTile p.tile p.started).raise (srcTILE p.tile) stSHADOW_TRANSIENT 0xFF p.ctx .f1
      else if kc = kb then
        let keep := { p with results := p.results.filter (fun d => d != b) }
        let s := if p.first = 0 then (s.replaceOutput p.tile a b).freeHandle a.outHandle else s
        let s := if p.first = 0 then s.endPair keep else s.endPair p
        let s := { s with work := { s.work with pairs := s.work.pairs.filter (fun q => q != p) } }
        (s.clearTile p.tile p.started).raise (srcTILE p.tile) stSHADOW_TRANSIENT 0xFF p.ctx .f1
      else (s.endPair p).fenceTile p.tile stSHADOW_MISMATCH 0xFF
    else if kc = ka then
      ((s.endPair p).clearTile p.tile p.started).fenceTile p.second stSHADOW_MISMATCH 0xFF
    else if kc = kb then
      ((s.endPair p).clearTile p.second p.started).fenceTile p.tile stSHADOW_MISMATCH 0xFF
    else (s.endPair p).raise (srcTILE p.tile) stSHADOW_DIVERGE 0xFF p.ctx .f2
  | _, _, _, _ => s

end Sys2Proof.Machine
end

