-- ==== Sys2Proof/Machine/LaneSync.lean ====
section
/-!
DEFINITION. Lane barriers (R85 to R88), work slots (R93), HALT, and engine calls from the lane's side (R80 to R84). A
lane that stalls stays at its instruction; the command given again completes it once its condition holds (R75).
-/
namespace Sys2Proof.Machine

/-! ## Lane barriers -/

def TileRec.bar (r : TileRec) (b : Nat) : BarSlot := Map.getD r.bars b { arrived := 0, gen := 0 }

def ImageRec.mask (i : ImageRec) (b : Nat) : Nat := i.masks.getD b 0

/-- Whether a slot is unarmed for a lane: an all-zero mask, or one without the lane (R87). -/
def notMember (mask l : Nat) : Bool := mask == 0 || !bitOf mask l

/-- Adds the lane to the arrival set; the slot releases when the set equals the mask (R86). -/
def State.arrive (s : State) (t l b mask : Nat) : State :=
  let r := s.tile t
  let bs := r.bar b
  let x := r.lane l
  let a := bs.arrived ||| 2 ^ l
  let bs' : BarSlot := if a = mask then { arrived := 0, gen := (bs.gen + 1) % 2 ^ 16 } else { bs with arrived := a }
  s.setTile t { r.setLane l { x with arrivals := Map.put x.arrivals b bs.gen } with bars := Map.put r.bars b bs' }

/-- The fault of an arrival, if any (R87). -/
def TileRec.arriveFault (r : TileRec) (l b mask : Nat) : Option Status :=
  if notMember mask l then some stBAR_NOT_MEMBER
  else if bitOf (r.bar b).arrived l then some stBAR_TWICE else none

/-- Whether the generation has changed since the lane's latest arrival; none: it has not arrived (R86, R87). -/
def TileRec.released (r : TileRec) (l b : Nat) : Option Bool :=
  match Map.find (r.lane l).arrivals b with
  | some g => some ((r.bar b).gen != g)
  | none => none

def Lane.forget (x : Lane) (b : Nat) : Lane := { x with arrivals := Map.del x.arrivals b }

/-- The wait half of BAR.WAIT and BAR.SYNC. -/
def State.barWait (s : State) (t l b : Nat) (sync : Bool) : State :=
  let r := s.tile t
  let x := r.lane l
  match r.released l b with
  | none => s.endLane t l (.fault x stBAR_NO_ARRIVAL)
  | some true => s.endLane t l (.go (x.forget b).next)
  | some false => s.endLane t l (.stall (.bar b sync))

def State.maskOf (s : State) (t b : Nat) : Nat :=
  match s.tileImage t with
  | some i => i.mask b
  | none => 0

/-- BAR_ARRIVE (R86). BAR.ARRIVE adds the lane to a slot's arrival set and releases the slot when the set
equals the mask. -/
def execBarArrive (tile : Fin 96) (lane : Fin 288) (slot : Fin 8) (s : State) : Step' :=
  act s (fun s =>
    if !s.laneIssues tile lane (fun _ => false) then s
    else
      let m := s.maskOf tile slot
      match (s.tile tile).arriveFault lane slot m with
      | some st => s.endLane tile lane (.fault ((s.tile tile).lane lane) st)
      | none =>
        let s := s.arrive tile lane slot m
        s.endLane tile lane (.go ((s.tile tile).lane lane).next))

/-- BAR_WAIT (R86). BAR.WAIT stalls until the slot's generation has changed since the lane's arrival. -/
def execBarWait (tile : Fin 96) (lane : Fin 288) (slot : Fin 8) (s : State) : Step' :=
  act s (fun s =>
    if s.laneIssues tile lane (· == .bar slot false) then s.barWait tile lane slot false else s)

/-- BAR_SYNC (R86). BAR.SYNC performs BAR.ARRIVE followed by BAR.WAIT. -/
def execBarSync (tile : Fin 96) (lane : Fin 288) (slot : Fin 8) (s : State) : Step' :=
  act s (fun s =>
    if !s.laneIssues tile lane (· == .bar slot true) then s
    else if ((s.tile tile).lane lane).stall = .bar slot true then s.barWait tile lane slot true
    else
      let m := s.maskOf tile slot
      match (s.tile tile).arriveFault lane slot m with
      | some st => s.endLane tile lane (.fault ((s.tile tile).lane lane) st)
      | none => (s.arrive tile lane slot m).barWait tile lane slot true)

/-- RANK (R88). RANK returns the lane's rank within a slot mask, or 0 for a solo kernel. -/
def execRank (tile : Fin 96) (lane : Fin 288) (rd : Fin 32) (query : Fin 32) (slot : Fin 8) (s : State) : Step' :=
  act s (fun s => s.lane1 tile lane (fun x =>
    let m := s.maskOf tile slot
    if query = 1 then .go (x.setG rd 0#64).next
    else if query ≠ 0 then .fault x stLANE_ILLEGAL
    else if notMember m lane then .fault x stBAR_NOT_MEMBER
    else .go (x.setG rd (BitVec.ofNat 64 (popCount 288 (m % 2 ^ lane.val)))).next))

/-! ## Work slots (R93) -/

/-- Slots that hold an item no lane has taken. -/
def TileRec.freeItems (r : TileRec) : List Nat := (r.slots.filter (fun e => e.2.taken == 0)).map (·.1)

/-- A lane that received slot n at address a: rd, the slot held, a fresh budget (R94). -/
def Lane.gotSlot (x : Lane) (rd n a : Nat) : Lane :=
  { (x.setG rd (BitVec.ofNat 64 a)).next with slot := some n, retired := 0, stall := .none }

/-- Gives slot n to the lanes of a mask that wait in WORK.GET. -/
def State.giveSlot (s : State) (t n mask : Nat) (i : ImageRec) : State :=
  s.mapTile t (fun r =>
    let lanes := Map.mapVals r.lanes (fun l x => match x.stall with
      | .workGet rd => if bitOf mask l then x.gotSlot rd n (i.slotAddr n) else x
      | _ => x)
    { r with lanes := lanes, slots := Map.adjust r.slots n (fun q => { q with taken := mask }) })

/-- Completes a group's WORK.GET as a release of its barrier slot, when every member waits and an item is there. -/
def State.groupGet (s : State) (t b mask : Nat) (i : ImageRec) : State :=
  let r := s.tile t
  if (r.bar b).arrived ≠ mask then s
  else match s.choose r.freeItems with
    | none => s
    | some n =>
      let s := s.setTile t { r with bars := Map.put r.bars b { arrived := 0, gen := ((r.bar b).gen + 1) % 2 ^ 16 } }
      (s.giveSlot t n mask i).used

def State.workGet (s : State) (t l rd : Nat) (i : ImageRec) (k : Kernel) : State :=
  let r := s.tile t
  let x := r.lane l
  if k.group then
    let m := i.mask k.barrier
    if x.stall = .workGet rd then s.groupGet t k.barrier m i
    else match r.arriveFault l k.barrier m with
      | some st => s.endLane t l (.fault x st)
      | none =>
        let bs := r.bar k.barrier
        let r := { r with bars := Map.put r.bars k.barrier { bs with arrived := bs.arrived ||| 2 ^ l } }
        (s.setTile t (r.setLane l { x with stall := .workGet rd })).groupGet t k.barrier m i
  else match s.choose r.freeItems with
    | none => s.endLane t l (.stall (.workGet rd))
    | some n => (((s.setLane t l { x with stall := .workGet rd }).giveSlot t n (2 ^ l) i)).used

/-- WORK_GET (R93). WORK.GET returns the address of an available work slot, as a barrier release for a group
kernel. -/
def execWorkGet (tile : Fin 96) (lane : Fin 288) (rd : Fin 32) (s : State) : Step' :=
  act s (fun s =>
    if !s.laneIssues tile lane (· == .workGet rd) then s
    else match s.tileImage tile with
      | none => s
      | some i => match i.kernelOf lane with
        | none => s
        | some k => s.workGet tile lane rd i k)

/-- Removes slot n from a tile and from the lanes that hold it. -/
def TileRec.dropSlot (r : TileRec) (n : Nat) : TileRec :=
  { r with slots := Map.del r.slots n,
           lanes := Map.mapVals r.lanes (fun _ x => if x.slot = some n then { x with slot := none } else x) }

/-- The hub takes a finished item: the output handle passes to it when the kernel gave it away (R93), a copy's result goes to its shadow pair, and
an item waits to be cleared (R391). -/
def State.takeDone (s : State) (t : Nat) (d : DoneItem) : State :=
  let given := match s.findChain d.item.ctx d.outHandle none with
    | .ok (_, c) => c.owner == agEXCHANGE || c.owner == agPACKER
    | .error _ => false
  let d := if given then d else { d with outHandle := 0 }
  let mine := fun (p : ShadowPair) => p.item.id == d.item.id && (p.tile == t || p.second == t || p.third == some t)
    && p.first ≤ d.item.copy && d.item.copy ≤ p.first + 2
  let pairs := s.work.pairs.map (fun p => if mine p then { p with results := p.results ++ [d] } else p)
  let s := { s with work := { s.work with pairs := pairs } }
  let s := if d.item.copy = 0 then s.mapTile t (fun r => { r with uncleared := r.uncleared ++ [d] }) else s
  s.forcePair t

/-- The work slot and item that a lane holds at an address. -/
def State.heldSlot (s : State) (t l a : Nat) : Option (Nat × SlotRec) :=
  match s.tileImage t with
  | none => none
  | some i => match i.slotAt a with
    | none => none
    | some n => match Map.find (s.tile t).slots n with
      | some q => if bitOf q.taken l then some (n, q) else none
      | none => none

/-- WORK_DONE (R93). WORK.DONE returns the slot to the hub, which takes the output handle and verdict.
(DEDUCED, log entry 25.) -/
def execWorkDone (tile : Fin 96) (lane : Fin 288) (rs1 : Fin 32) (s : State) : Step' :=
  act s (fun s =>
    if !s.laneIssues tile lane (fun _ => false) then s
    else
      let r := s.tile tile
      let x := r.lane lane
      let a := (x.getG rs1).toNat
      match s.heldSlot tile lane a with
      | none => s.endLane tile lane (.go x.next)
      | some (n, q) =>
        let d : DoneItem := { item := q.item, tile := tile, outHandle := leNat (Mem.read r.store (a + 24) 8),
                              outLen := leNat (Mem.read r.store (a + 32) 4),
                              verdict := leNat (Mem.read r.store (a + 36) 2), at_ := s.dtime }
        let s := s.endLane tile lane (.go { x.next with slot := none })
        (s.mapTile tile (fun r => r.dropSlot n)).takeDone tile d)

/-- HALT (R79). A lane executes HALT. -/
def execHalt (tile : Fin 96) (lane : Fin 288) (s : State) : Step' :=
  act s (fun s => s.lane1 tile lane (fun x => .go { x with run := .halted }))

/-! ## Engine calls -/

/-- Engines and hub services of Tables 3.1 and 3.5. -/
def engineKnown (e : Nat) : Bool := e ≤ 5 || (0x10 ≤ e && e ≤ 0x15)

/-- Operations each engine defines (Tables 4.3, 4.6, 5.1, 6.4, 7.3, 13.4; tile DMA 0x01 LOAD and 0x02 STORE, exchange
0x01 SEND, hub decompressor and VDC 0x01: log entry 33). (PRESUMED, log entry 33.) -/
def opKnown (e op : Nat) : Bool :=
  match e with
  | 0x00 => op == 1 || op == 2
  | 0x01 => op == 1
  | 0x02 => 1 ≤ op && op ≤ 3
  | 0x03 => op == 1 || op == 2
  | 0x04 => op == 1 || op == 2
  | 0x05 => op == 1 || op == 0x10 || op == 0x11
  | 0x10 => 1 ≤ op && op ≤ 5
  | 0x11 => 1 ≤ op && op ≤ 4
  | 0x12 => op == 1 || op == 2
  | 0x13 => op == 1
  | 0x14 => op == 1
  | 0x15 => op == 1
  | _ => false

/-- Operations that write output into the tile store (R83). -/
def writesStore (e op : Nat) : Bool :=
  match e with
  | 0x00 => op == 1
  | 0x10 => op == 1 || op == 5
  | 0x11 => op == 3
  | _ => 1 ≤ e && e ≤ 5

/-- Operations whose output goes only into handles: OUT_ADDR and OUT_CAP must be 0 (R83). -/
def writesHandles (e op : Nat) : Bool := (e == 0x00 && op == 2) || e == 0x14 || e == 0x15

/-- Engine-specific selectors without a status of their own (R83, R107, R118). -/
def selectorBad (e : Nat) (d : Bytes) : Bool :=
  match e with
  | 0x01 => !(1 ≤ fieldAt d 32 1 && fieldAt d 32 1 ≤ 4)
  | 0x14 => !(1 ≤ fieldAt d 52 1 && fieldAt d 52 1 ≤ 4)
  | 0x02 => !(fieldAt d 32 1 == 2 || fieldAt d 32 1 == 3)
  | _ => false

def outside (r : Nat × Nat) : Bool := r.2 != 0 && storeSize < r.1 + r.2

/-- R83: whether a call completes with ENG_DESC. -/
def descBad (constEnd e op : Nat) (d : Bytes) : Bool :=
  fieldAt d 0 1 != e || fieldAt d 1 1 != op || !opKnown e op || selectorBad e d
    || outside (descIn d) || outside (descOut d) || outside (descAux d)
    || ((descOut d).2 != 0 && (descOut d).1 < constEnd)
    || (writesStore e op && (descOut d).2 == 0)
    || (writesHandles e op && descOut d != (0, 0))

/-- R84: an overlap with a call in flight of another lane. -/
def TileRec.foreignOverlap (r : TileRec) (l : Nat) (d : Bytes) : Bool :=
  r.calls.any (fun c => c.lane != l
    && (overlap (descIn d) (descOut c.desc) || overlap (descAux d) (descOut c.desc) || overlap (descOut d) (descOut c.desc)
      || overlap (descOut d) (descIn c.desc) || overlap (descOut d) (descAux c.desc)))

/-- The named engine or service is of an absent or fenced unit (R3, R127). -/
def State.engineAbsent (s : State) (e : Nat) : Bool :=
  (e == 0x15 && (!s.hw.variant.hasVdc || s.fld fVDC_STATUS_FENCED == 1))
    || (e == 0x14 && s.fld fMED_DCMP_STATUS_FENCED == 1)

/-- Places an accepted call in the engine's queue, or completes it at once with a status. -/
def State.acceptCall (s : State) (t l k e op a : Nat) (d : Bytes) (now : Option Status) : State :=
  let r := s.tile t
  let x := r.lane l
  let s := s.setTile t (r.setLane l { x with tickets := Map.put x.tickets k ⟨e, none⟩ })
  match now with
  | some st => s.completeTicket t l k 0 st
  | none => s.mapTile t (fun r =>
      { r with calls := r.calls ++ [⟨r.nextSeq, l, k, e, op, a, d⟩], nextSeq := r.nextSeq + 1 })

/-- ENG (R80). ENG places an engine call in the named engine's queue and returns a ticket.
(DEDUCED, log entries 24, 25.) -/
def execEng (tile : Fin 96) (lane : Fin 288) (rd rs1 : Fin 32) (engine op : BitVec 8) (s : State) : Step' :=
  act s (fun s =>
    if !s.laneIssues tile lane (· == .eng) then s
    else
      let r := s.tile tile
      let x := r.lane lane
      let e := engine.toNat
      let a := (x.getG rs1).toNat
      let open' := (List.range 8).filter (fun k => !Map.has x.tickets k)
      match s.choose open' with
      | none => s.endLane tile lane (.fault x stLANE_ILLEGAL)
      | some k =>
        if engineKnown e && 64 ≤ (r.calls.filter (fun c => c.engine == e)).length then
          s.endLane tile lane (.stall .eng)
        else if engineKnown e && storeSize < a + 64 then s.endLane tile lane (.fault x stLANE_ADDRESS)
        else
          let d := s.loadTile tile a 64
          let absent := s.engineAbsent e
          let constEnd := match s.tileImage tile with | some i => i.constEnd | none => 0
          let bad := !engineKnown e || descBad constEnd e op.toNat d
          let now := if absent then some stUNIT_ABSENT else if bad then some stENG_DESC else none
          if now.isNone && r.foreignOverlap lane d then s.endLane tile lane (.fault x stENG_OVERLAP)
          else
            let s := s.used.acceptCall tile lane k e op.toNat a d now
            s.endLane tile lane (.go (((s.tile tile).lane lane).setG rd (BitVec.ofNat 64 k)).next))

/-- rd of EWAIT and EPOLL: produced length << 16 | status (R81). -/
def ticketWord (len : Nat) (st : Status) : BitVec 64 := BitVec.ofNat 64 (len * 2 ^ 16 + st.toNat)

/-- EWAIT (R81). EWAIT waits for a ticket's call, frees the ticket and returns the length and status. -/
def execEwait (tile : Fin 96) (lane : Fin 288) (rd rs1 : Fin 32) (s : State) : Step' :=
  act s (fun s =>
    let x := (s.tile tile).lane lane
    let k := (x.getG rs1).toNat
    if !s.laneIssues tile lane (· == .ewait k) then s
    else match Map.find x.tickets k with
      | none => s.endLane tile lane (.fault x stLANE_ILLEGAL)
      | some tk => match tk.result with
        | none => s.endLane tile lane (.stall (.ewait k))
        | some (len, st) =>
          s.endLane tile lane (.go ({ x with tickets := Map.del x.tickets k }.setG rd (ticketWord len st)).next))

/-- EPOLL (R81). EPOLL returns a completed call's length and status and frees the ticket, or returns 0xFFFF.
(DEDUCED, log entry 25.) -/
def execEpoll (tile : Fin 96) (lane : Fin 288) (rd rs1 : Fin 32) (s : State) : Step' :=
  act s (fun s => s.lane1 tile lane (fun x =>
    let k := (x.getG rs1).toNat
    match Map.find x.tickets k with
    | none => .fault x stLANE_ILLEGAL
    | some tk => match tk.result with
      | none => .go (x.setG rd 0xFFFF#64).next
      | some (len, st) => .go ({ x with tickets := Map.del x.tickets k }.setG rd (ticketWord len st)).next))

end Sys2Proof.Machine
end

