-- ==== Sys2Proof/Machine/Png.lean ====
section
/-!
DEFINITION. The image decoder's PNG half (R117, R118, R119): ISO/IEC 15948, every colour type and bit depth, Adam7, and the
three operations of Table 4.6 over both formats.
-/
namespace Sys2Proof.Machine

structure PngHead where
  w : Nat
  h : Nat
  depth : Nat
  colour : Nat
  adam7 : Bool
  plte : Option Bytes
  trns : Option Bytes
  idat : Bytes
  deriving DecidableEq, Repr

def pngSig : Bytes := ofNats [137, 80, 78, 71, 13, 10, 26, 10]

def pngDepthOk (colour depth : Nat) : Bool :=
  if colour = 0 then depth ∈ [1, 2, 4, 8, 16]
  else if colour = 3 then depth ∈ [1, 2, 4, 8]
  else (colour = 2 || colour = 4 || colour = 6) && (depth = 8 || depth = 16)

def pngChannels (colour : Nat) : Nat := if colour = 2 then 3 else if colour = 4 then 2 else if colour = 6 then 4 else 1

/-- Chunks in order (R117): every CRC is checked; ancillary chunks but tRNS are passed over. `info` stops at IDAT. -/
def pngChunks (info : Bool) : Nat → Bytes → Option PngHead → Except Status PngHead
  | 0, _, _ => jBad
  | fuel + 1, d, hd => do
    jCheck (12 ≤ d.length)
    let len := beNat (d.take 4)
    jCheck (12 + len ≤ d.length)
    let type := slice d 4 4
    let body := (d.drop 8).take len
    let rest := d.drop (12 + len)
    if beNat (slice d (8 + len) 4) ≠ crc32 (type ++ body) then throw stDEC_CHECKSUM
    match hd with
    | none =>
      jCheck (type = ascii "IHDR" ∧ len = 13)
      let w := beNat (body.take 4)
      let h := beNat (slice body 4 4)
      let depth := fieldAt body 8 1
      let colour := fieldAt body 9 1
      let il := fieldAt body 12 1
      jCheck (w ≠ 0 ∧ h ≠ 0 ∧ pngDepthOk colour depth ∧ fieldAt body 10 2 = 0 ∧ il ≤ 1)
      if 65535 < w ∨ 65535 < h then jUnsup
      pngChunks info fuel rest (some ⟨w, h, depth, colour, il = 1, none, none, []⟩)
    | some p =>
      if type = ascii "IDAT" then
        if info then return p
        else pngChunks info fuel rest (some { p with idat := p.idat ++ body })
      else if type = ascii "IEND" then return p
      else if type = ascii "PLTE" then
        jCheck (len % 3 = 0 ∧ 0 < len ∧ len ≤ 768)
        pngChunks info fuel rest (some { p with plte := some body })
      else if type = ascii "tRNS" then pngChunks info fuel rest (some { p with trns := some body })
      else if bitOf (fieldAt type 0 1) 5 then pngChunks info fuel rest (some p)
      else jUnsup

def paeth (a b c : Nat) : Nat :=
  let p : Int := (a : Int) + b - c
  let pa := (p - a).natAbs
  let pb := (p - b).natAbs
  let pc := (p - c).natAbs
  if pa ≤ pb ∧ pa ≤ pc then a else if pb ≤ pc then b else c

/-- Unfilters one row; `done` holds the row's bytes so far, newest first. -/
def unfilterRow (type bpp : Nat) : List Nat → List Nat → List Nat → List Nat → List Nat
  | [], _, _, done => done.reverse
  | x :: xs, prev, left, done =>
    -- prev: the row above from this byte on; left: the row above from bpp bytes before (zeros first)
    let a := done.getD (bpp - 1) 0
    let b := prev.headD 0
    let c := left.headD 0
    let v := (x + (if type = 1 then a else if type = 2 then b else if type = 3 then (a + b) / 2
      else if type = 4 then paeth a b c else 0)) % 256
    unfilterRow type bpp xs (prev.drop 1) (left.drop 1) (v :: done)

def unfilterRows (rowBytes bpp : Nat) : Nat → List Nat → List Nat → Except Status (List (List Nat))
  | 0, _, _ => .ok []
  | n + 1, d, prev => do
    match d with
    | [] => jBad
    | t :: rest =>
      jCheck (t ≤ 4 ∧ rowBytes ≤ rest.length)
      let row := unfilterRow t bpp (rest.take rowBytes) prev (List.replicate bpp 0 ++ prev) []
      let more ← unfilterRows rowBytes bpp n (rest.drop rowBytes) row
      return row :: more

/-- Samples of a row at the image's own depth. -/
def rowSamples (depth count : Nat) (row : List Nat) : List Nat :=
  let a := row.toArray
  (List.range count).map (fun i =>
    if depth = 16 then a.getD (2 * i) 0 * 256 + a.getD (2 * i + 1) 0
    else if depth = 8 then a.getD i 0
    else a.getD (i * depth / 8) 0 / 2 ^ (8 - depth - i * depth % 8) % 2 ^ depth)

/-- Passes of the image: x start, y start, x step, y step. -/
def pngPasses (adam7 : Bool) : List (Nat × Nat × Nat × Nat) :=
  if adam7 then [(0, 0, 8, 8), (4, 0, 8, 8), (0, 4, 4, 8), (2, 0, 4, 4), (0, 2, 2, 4), (1, 0, 2, 2), (0, 1, 1, 2)]
  else [(0, 0, 1, 1)]

def passDim (n start step : Nat) : Nat := if n ≤ start then 0 else ceilDiv (n - start) step

def passRowBytes (p : PngHead) (pw : Nat) : Nat := ceilDiv (pw * pngChannels p.colour * p.depth) 8

/-- Raw samples of the first `rows` rows (all rows of every pass when interlaced), channel-interleaved, as an array. -/
def pngFill (p : PngHead) (rows : Nat) : List (Nat × Nat × Nat × Nat) → Bytes → Array Nat → Except Status (Array Nat)
  | [], _, a => .ok a
  | (xs, ys, dx, dy) :: more, d, a => do
    let pw := passDim p.w xs dx
    let ph := if p.adam7 then passDim p.h ys dy else rows
    if pw = 0 ∨ ph = 0 then pngFill p rows more d a
    else
      let ch := pngChannels p.colour
      let rb := passRowBytes p pw
      let out ← unfilterRows rb (max 1 (ch * p.depth / 8)) ph (toNats (d.take (ph * (rb + 1)))) (List.replicate rb 0)
      let a := (List.zip out (List.range ph)).foldl (fun a r =>
        (List.zip (rowSamples p.depth (pw * ch) r.1) (List.range (pw * ch))).foldl (fun (a : Array Nat) s =>
          let x := xs + s.2 / ch * dx
          let y := ys + r.2 * dy
          a.setIfInBounds ((y * p.w + x) * ch + s.2 % ch) s.1) a) a
      pngFill p rows more (d.drop (ph * (rb + 1))) a

/-- The inflated rows: all of them with the stream's checks, or only the bytes that the first rows need (R119). -/
def pngInflate (p : PngHead) (rows : Nat) : Except Status Bytes :=
  let total := ((pngPasses p.adam7).map (fun q =>
    let pw := passDim p.w q.1 q.2.2.1
    let ph := passDim p.h q.2.1 q.2.2.2
    if pw = 0 then 0 else ph * (passRowBytes p pw + 1))).sum
  if p.adam7 ∨ rows = p.h then
    match zlibDecode p.idat total with
    | .ok o => if o.length < total then .error stDEC_MALFORMED else .ok o
    | .error (.bad st) => .error st
    | .error (.full _) => .error stDEC_MALFORMED
  else
    let need := rows * (passRowBytes p p.w + 1)
    match zlibDecode p.idat need with
    | .ok o => if o.length < need then .error stDEC_MALFORMED else .ok o
    | .error (.full o) => .ok o.reverse
    | .error (.bad st) => .error st

/-- Left bit replication of depths 1, 2 and 4; depth 16 kept or reduced to its high byte (R117). -/
def pngScale (depth : Nat) (keep16 : Bool) (v : Nat) : Nat :=
  if depth = 16 then (if keep16 then v else v / 256)
  else if depth = 8 then v
  else v * (255 / (2 ^ depth - 1))

/-- Output channels of one pixel. -/
def pngPixel (p : PngHead) (keep16 : Bool) (px : List Nat) : List Nat :=
  let top := if p.depth = 16 ∧ keep16 then 65535 else 255
  let sc := pngScale p.depth keep16
  if p.colour = 3 then
    let i := px.headD 0
    let pal := p.plte.getD []
    let rgb := [fieldAt pal (3 * i) 1, fieldAt pal (3 * i + 1) 1, fieldAt pal (3 * i + 2) 1]
    match p.trns with
    | some t => rgb ++ [if i < t.length then fieldAt t i 1 else 255]
    | none => rgb
  else
    match p.trns with
    | some t =>
      if p.colour = 0 then [sc (px.headD 0), if px.headD 0 = beNat (slice t 0 2) then 0 else top]
      else if p.colour = 2 then
        px.map sc ++ [if px = [beNat (slice t 0 2), beNat (slice t 2 2), beNat (slice t 4 2)] then 0 else top]
      else px.map sc
    | none => px.map sc

def pngFormat (p : PngHead) : Nat :=
  let alpha := p.trns.isSome
  if p.colour = 0 then (if alpha then 4 else 1)
  else if p.colour = 2 ∨ p.colour = 3 then (if alpha then 3 else 2)
  else if p.colour = 4 then 4 else 3

def pngOutChannels (p : PngHead) : Nat := [3, 1, 3, 4, 2].getD (pngFormat p) 1

def pngParse (info : Bool) (d : Bytes) : Except Status PngHead := do
  jCheck (d.take 8 = pngSig)
  let p ← pngChunks info (d.length + 1) (d.drop 8) none
  jCheck (p.colour ≠ 3 ∨ p.plte.isSome)
  return p

def pngImage (p : PngHead) (keep16 region : Bool) (x0 y0 w h : Nat) (planes : List (List Nat)) : Image :=
  let n := pngOutChannels p
  ⟨pngFormat p, if p.depth = 16 ∧ keep16 then 16 else 8, region, p.w, p.h, x0, y0, w, h,
   List.replicate n 1, List.replicate n 1, planes⟩

def pngInfo (d : Bytes) (keep16 : Bool) : Except Status Image := do
  let p ← pngParse true d
  return pngImage p keep16 false 0 0 p.w p.h []

def pngRect (d : Bytes) (keep16 region : Bool) (x0 y0 w h : Nat) : Except Status Image := do
  let p ← pngParse false d
  let rows := if p.adam7 then p.h else y0 + h
  let raw ← pngInflate p rows
  let ch := pngChannels p.colour
  let a ← pngFill p rows (pngPasses p.adam7) raw (Array.replicate (p.w * p.h * ch) 0)
  let px (x y : Nat) : List Nat := (List.range ch).map (fun c => a.getD ((y * p.w + x) * ch + c) 0)
  let pixels := (List.range h).flatMap (fun y => (List.range w).map (fun x => px (x0 + x) (y0 + y)))
  if p.colour = 3 ∧ pixels.any (fun q => (p.plte.getD []).length ≤ 3 * q.headD 0) then jBad
  let outs := pixels.map (pngPixel p keep16)
  let planes := (List.range (pngOutChannels p)).map (fun c => outs.map (fun q => q.getD c 0))
  return pngImage p keep16 region x0 y0 w h planes

def pngFull (d : Bytes) (keep16 : Bool) : Except Status Image := do
  let p ← pngParse true d
  pngRect d keep16 false 0 0 p.w p.h

def pngRegion (d : Bytes) (keep16 : Bool) (x0 y0 w h : Nat) : Except Status Image := do
  let p ← pngParse true d
  if w = 0 ∨ h = 0 ∨ p.w < x0 + w ∨ p.h < y0 + h then throw stDEC_REGION
  pngRect d keep16 true x0 y0 w h

/-- How an image call ends: its bytes, or DEC_LIMIT when they pass the output range (log entry 20).
(DEDUCED, log entry 20.) -/
def imageEnd (cap : Nat) (r : Except Status Image) : EngRes :=
  match r with
  | .error st => engFail st
  | .ok m => let b := m.bytes
    if cap < b.length then engFail stDEC_LIMIT else ⟨stOK, b.length, b⟩

/-- DECODE_FULL of MEDIA_TYPE 2 (JPEG) or 3 (PNG). -/
def decodeFull (media : Nat) (keep16 : Bool) (cap : Nat) (d : Bytes) : EngRes :=
  imageEnd cap (if media = 2 then jpegFull d else pngFull d keep16)

def decodeRegion (media : Nat) (keep16 : Bool) (cap : Nat) (d aux : Bytes) (x0 y0 w h : Nat) : EngRes :=
  imageEnd cap (if media = 2 then jpegRegion d aux cap x0 y0 w h else pngRegion d keep16 x0 y0 w h)

/-- INFO writes only the header, with the OUT fields of the full image. -/
def decodeInfo (media : Nat) (keep16 : Bool) (cap : Nat) (d : Bytes) : EngRes :=
  imageEnd cap (if media = 2 then jpegInfo d else pngInfo d keep16)

end Sys2Proof.Machine
end

