-- ==== Sys2Proof/Machine/Tokens.lean ====
section
/-!
DEFINITION. Engine 0x04 (spec/06_token_engine.md): vocabulary images (R147, R148), TOKENIZE (R154 to R161) and
DETOKENIZE (R163, R164).
-/
namespace Sys2Proof.Machine

/-- One entry of the entry table (Table 6.2): kind, and its string (kind 2: its byte). -/
structure VocEntry where
  kind : Nat
  str : Bytes
  deriving DecidableEq, Repr

/-- A vocabulary image as the engine reads it (Tables 6.1, 6.2). -/
structure Vocab where
  idWidth : Nat
  maxPiece : Nat
  bos : Nat
  eos : Nat
  ranges : List (Nat × Nat × Nat)
  breaks : List Nat
  entries : List VocEntry
  deriving DecidableEq, Repr

def noToken : Nat := 0xFFFFFFFF

/-- A byte string as a number, with a leading 1 that keeps its length. -/
def stringKey (x : Bytes) : Nat := leNat (x ++ [1#8])

def distinctKeys : List Nat → Bool
  | [] => true
  | x :: xs => xs.all (fun y => !(Nat.beq x y)) && distinctKeys xs

/-- No two strings of the list are equal. -/
def distinctStrings (xs : List Bytes) : Bool := distinctKeys (xs.map stringKey)

/-- The entry at the head of the entry table, with the string pool. -/
def entryIn (table pool : Bytes) (poolLen : Nat) : Option VocEntry :=
  let value := fieldAt table 0 4
  let len := fieldAt table 4 2
  let kind := fieldAt table 6 1
  if kind = 2 then (if value ≤ 255 ∧ len = 1 then some ⟨2, [byteOf value]⟩ else none)
  else if kind ≤ 1 ∧ 1 ≤ len ∧ len ≤ 256 ∧ value + len ≤ poolLen then some ⟨kind, slice pool value len⟩
  else none

/-- n entries of 8 bytes, in order. -/
def entriesIn (pool : Bytes) (poolLen : Nat) : Nat → Bytes → List (Option VocEntry)
  | 0, _ => []
  | n + 1, table => entryIn table pool poolLen :: entriesIn pool poolLen n (table.drop 8)

def allSome {α : Type} : List (Option α) → Option (List α)
  | [] => some []
  | none :: _ => none
  | some a :: l => (allSome l).map (fun r => a :: r)

def rangesOk : List (Nat × Nat × Nat) → Bool
  | [] => true
  | [(f, l, c)] => decide (f ≤ l ∧ l ≤ 0x10FFFF ∧ c ≤ 14)
  | (f, l, c) :: (f', l', c') :: more =>
    decide (f ≤ l ∧ l < f' ∧ c ≤ 14) && rangesOk ((f', l', c') :: more)

/-- The vocabulary of an image; none where R148 refuses it with VOC_FORMAT. -/
def parseVocab (b : Bytes) : Option Vocab :=
  let idw := fieldAt b 6 1
  let n := fieldAt b 8 4
  let specials := fieldAt b 12 2
  let maxPiece := fieldAt b 14 2
  let total := fieldAt b 16 4
  let nr := fieldAt b 20 4
  let rt := fieldAt b 24 4
  let bt := fieldAt b 28 4
  let et := fieldAt b 32 4
  let pool := fieldAt b 36 4
  let poolLen := fieldAt b 40 4
  let bos := fieldAt b 44 4
  let eos := fieldAt b 48 4
  let okHead := decide (64 ≤ b.length ∧ fieldAt b 0 4 = 0x4356464F ∧ fieldAt b 4 2 = 1 ∧ (idw = 2 ∨ idw = 4) ∧
    257 ≤ n ∧ n ≤ 1048576 ∧ (idw = 2 → n ≤ 65536) ∧ specials ≤ 4096 ∧ 16 ≤ maxPiece ∧ maxPiece ≤ 4096 ∧
    total ≤ 320 * 1048576 ∧ total = b.length ∧ nr ≤ 65536 ∧ poolLen ≤ 256 * 1048576 ∧
    rt + 12 * nr ≤ total ∧ bt + 32 ≤ total ∧ et + 8 * n ≤ total ∧ pool + poolLen ≤ total)
  if !okHead then none
  else
    let ranges := (List.range nr).map (fun i =>
      (fieldAt b (rt + 12 * i) 4, fieldAt b (rt + 12 * i + 4) 4, fieldAt b (rt + 12 * i + 8) 1))
    match allSome (entriesIn (b.drop pool) poolLen n (b.drop et)) with
    | none => none
    | some es =>
      let strs (k : Nat) := (es.filter (fun e => e.kind = k)).map (·.str)
      let isSpecial (id : Nat) : Bool := id == noToken || ((es[id]?).map (fun e => e.kind == 1)).getD false
      if distinctStrings (strs 0) && distinctStrings (strs 1) && distinctStrings (strs 2) && (strs 2).length = 256 &&
         (strs 1).length = specials && rangesOk ranges && isSpecial bos && isSpecial eos then
        some ⟨idw, maxPiece, bos, eos, ranges, (List.range 16).map (fun p => fieldAt b (bt + 2 * p) 2), es⟩
      else none

/-! ## UTF-8 units (R155) -/

def contByte (b : Byte) : Bool := 128 ≤ b.toNat && b.toNat ≤ 191

/-- Bounds of the second byte of a well-formed sequence with this first byte (Unicode Table 3-7), and its length. -/
def utf8Lead (b : Byte) : Option (Nat × Nat × Nat) :=
  let x := b.toNat
  if x ≤ 0x7F then some (1, 0, 0)
  else if 0xC2 ≤ x ∧ x ≤ 0xDF then some (2, 0x80, 0xBF)
  else if x = 0xE0 then some (3, 0xA0, 0xBF)
  else if x = 0xED then some (3, 0x80, 0x9F)
  else if 0xE1 ≤ x ∧ x ≤ 0xEF then some (3, 0x80, 0xBF)
  else if x = 0xF0 then some (4, 0x90, 0xBF)
  else if 0xF1 ≤ x ∧ x ≤ 0xF3 then some (4, 0x80, 0xBF)
  else if x = 0xF4 then some (4, 0x80, 0x8F)
  else none

/-- Do these bytes agree with a well-formed sequence as far as they go? Gives the sequence's full length. -/
def utf8Prefix (bs : Bytes) : Option Nat :=
  match bs with
  | [] => none
  | b :: rest =>
    match utf8Lead b with
    | none => none
    | some (n, lo, hi) =>
      match rest.take (n - 1) with
      | [] => some n
      | c :: more => if lo ≤ c.toNat ∧ c.toNat ≤ hi ∧ more.all contByte then some n else none

/-- Length of the well-formed sequence at the start, if there is one. -/
def utf8Len (bs : Bytes) : Option Nat :=
  match utf8Prefix (bs.take 4) with
  | some n => if n ≤ bs.length then some n else none
  | none => none

/-- The bytes are a proper prefix of a well-formed sequence. -/
def utf8Partial (bs : Bytes) : Bool :=
  match utf8Prefix bs with
  | some n => decide (bs.length < n)
  | none => false

def codePoint (bs : Bytes) : Nat :=
  match bs.map (·.toNat) with
  | [a] => a
  | [a, b] => (a % 32) * 64 + b % 64
  | [a, b, c] => (a % 16) * 4096 + b % 64 * 64 + c % 64
  | [a, b, c, d] => (a % 8) * 262144 + b % 64 * 4096 + c % 64 * 64 + d % 64
  | _ => 0

def classOf (v : Vocab) (cp : Nat) : Nat :=
  match v.ranges.find? (fun r => r.1 ≤ cp && cp ≤ r.2.1) with
  | some r => r.2.2
  | none => 0

/-- Units of a text run: bytes and class. -/
def unitsOf (v : Vocab) : Nat → Bytes → List (Bytes × Nat)
  | 0, _ => []
  | fuel + 1, bs =>
    match bs with
    | [] => []
    | b :: rest =>
      match utf8Len bs with
      | some n => (bs.take n, classOf v (codePoint (bs.take n))) :: unitsOf v fuel (bs.drop n)
      | none => ([b], 15) :: unitsOf v fuel rest

/-! ## Pieces (R156, R157) -/

inductive Piece where
  | text (bytes : Bytes)
  | special (id len : Nat)
  deriving DecidableEq, Repr

def Piece.len : Piece → Nat
  | .text b => b.length
  | .special _ n => n

def indexed (v : Vocab) : List (VocEntry × Nat) := List.zip v.entries (List.range v.entries.length)

/-- The longest entry of `kind` that begins the bytes: id and length. -/
def longestAt (es : List (VocEntry × Nat)) (kind : Nat) (bs : Bytes) : Option (Nat × Nat) :=
  es.foldl (fun best e =>
    if e.1.kind = kind && e.1.str.isPrefixOf bs && (match best with | some b => b.2 < e.1.str.length | none => true)
    then some (e.2, e.1.str.length) else best) none

/-- The input cut into text runs and special pieces; `run` is the current run, newest byte first. -/
def scanRuns (es : List (VocEntry × Nat)) : Nat → Bytes → Bytes → List Piece
  | 0, _, _ => []
  | fuel + 1, bs, run =>
    let flush := if run = [] then [] else [Piece.text run.reverse]
    match bs with
    | [] => flush
    | b :: rest =>
      match longestAt es 1 bs with
      | some (id, n) => flush ++ .special id n :: scanRuns es fuel (bs.drop n) []
      | none => scanRuns es fuel rest (b :: run)

/-- Pieces of one run's units: `cur` is the current piece (oldest first), `prev` the class of its last unit. -/
def cutUnits (v : Vocab) : List (Bytes × Nat) → Bytes → Nat → List Piece
  | [], cur, _ => if cur = [] then [] else [.text cur]
  | (u, c) :: us, cur, prev =>
    if cur ≠ [] ∧ (bitOf (v.breaks.getD prev 0) c ∨ v.maxPiece < cur.length + u.length) then
      .text cur :: cutUnits v us u c
    else cutUnits v us (cur ++ u) c

def piecesOf (v : Vocab) (specials : Bool) (input : Bytes) : List Piece :=
  let runs := if specials then scanRuns ((indexed v).filter (fun e => e.1.kind = 1)) (input.length + 1) input []
    else if input = [] then [] else [.text input]
  runs.flatMap (fun p =>
    match p with
    | .text b => cutUnits v (unitsOf v b.length b) [] 0
    | s => [s])

/-- Greedy longest match over bytes with byte fallback (R158). -/
def matchPiece (es : List (VocEntry × Nat)) : Nat → Bytes → List Nat
  | 0, _ => []
  | fuel + 1, bs =>
    match bs with
    | [] => []
    | b :: rest =>
      match longestAt es 0 bs with
      | some (id, n) => id :: matchPiece es fuel (bs.drop n)
      | none =>
        ((es.find? (fun e => e.1.kind = 2 && e.1.str = [b])).map (·.2)).getD 0 :: matchPiece es fuel rest

def pieceTokens (v : Vocab) (p : Piece) : List Nat :=
  match p with
  | .text b => matchPiece (indexed v) b.length b
  | .special id _ => [id]

/-- A token call's end: status, output, CONSUMED, COUNT. -/
structure TokRes where
  status : Status
  out : Bytes
  consumed : Nat
  count : Nat
  hold : Bytes
  deriving DecidableEq, Repr

/-- Writes piece after piece while its tokens fit (R161); tokens so far are oldest first. -/
def writePieces (idw cap : Nat) : List (Nat × List Nat) → Nat → List Nat → TokRes
  | [], pos, acc => ⟨stOK, acc.flatMap (toLE idw), pos, acc.length, []⟩
  | (len, toks) :: more, pos, acc =>
    if cap < idw * (acc.length + toks.length) then
      ⟨stTOK_LIMIT, acc.flatMap (toLE idw), pos, acc.length, []⟩
    else writePieces idw cap more (pos + len) (acc ++ toks)

/-- Starts of pieces, in order. -/
def pieceStarts : Nat → List Piece → List Nat
  | _, [] => []
  | pos, p :: ps => pos :: pieceStarts (pos + p.len) ps

/-- TOKENIZE (R156 to R161): flags bit 0 SPECIALS, 1 BOS, 2 EOS, 3 MORE. -/
def tokenize (v : Vocab) (flags : Nat) (input : Bytes) (cap : Nat) : TokRes :=
  let more := bitOf flags 3
  let ps := piecesOf v (bitOf flags 0) input
  let starts := pieceStarts 0 ps
  let c := if input.length < 255 then 0 else (starts.filter (· ≤ input.length - 255)).foldl max 0
  let kept := if more then ((List.zip ps starts).filter (fun p => p.2 + p.1.len ≤ c)).map (·.1) else ps
  let bos := if bitOf flags 1 ∧ v.bos ≠ noToken then [v.bos] else []
  let eos := if bitOf flags 2 ∧ !more ∧ v.eos ≠ noToken then [v.eos] else []
  let groups := kept.map (fun p => (p.len, pieceTokens v p))
  let groups :=
    match groups with
    | [] => if more then [] else [(0, bos)]
    | (n, t) :: gs => (n, bos ++ t) :: gs
  let groups :=
    match groups.reverse with
    | [] => []
    | (n, t) :: gs => ((n, t ++ eos) :: gs).reverse
  writePieces v.idWidth cap groups 0 []

/-! ## DETOKENIZE -/

/-- Complete units of the bytes, written; and the held rest. -/
def writeUnits (replace : Bool) : Nat → Bytes → Bytes → Bytes × Bytes
  | 0, bs, acc => (acc.reverse, bs)
  | fuel + 1, bs, acc =>
    match bs with
    | [] => (acc.reverse, [])
    | b :: rest =>
      match utf8Len bs with
      | some n => writeUnits replace fuel (bs.drop n) ((bs.take n).reverse ++ acc)
      | none =>
        if utf8Partial bs then (acc.reverse, bs)
        else writeUnits replace fuel rest (if replace then [0xBD#8, 0xBF#8, 0xEF#8] ++ acc else b :: acc)

def detokBytes (specials : Bool) (e : VocEntry) : Bytes := if e.kind = 1 ∧ !specials then [] else e.str

/-- Tokens in order; `out` oldest first. Stops before a bad ID or a token that does not fit (R163, R164). -/
def detokLoop (v : Vocab) (specials replace : Bool) (cap : Nat) : List Nat → Bytes → Bytes → Nat → TokRes
  | [], hold, out, n => ⟨stOK, out, v.idWidth * n, n, hold⟩
  | t :: ts, hold, out, n =>
    match v.entries[t]? with
    | none => ⟨stTOK_ID, out, v.idWidth * n, n, hold⟩
    | some e =>
      let (w, hold') := writeUnits replace 300 (hold ++ detokBytes specials e) []
      if cap < out.length + w.length then ⟨stTOK_LIMIT, out, v.idWidth * n, n, hold⟩
      else detokLoop v specials replace cap ts hold' (out ++ w) (n + 1)

def holdOk (aux : Bytes) : Bool :=
  let n := fieldAt aux 0 1
  n = 0 || (decide (n ≤ 3) && utf8Partial (slice aux 1 n))

def tokenIds (idw : Nat) : Nat → Bytes → List Nat
  | 0, _ => []
  | n + 1, b => fieldAt b 0 idw :: tokenIds idw n (b.drop idw)

/-- DETOKENIZE: flags bit 0 SPECIALS, 1 REPLACE, 2 FINAL; the holdback state comes from `aux`. -/
def detokenize (v : Vocab) (flags : Nat) (input aux : Bytes) (cap : Nat) : TokRes :=
  let replace := bitOf flags 1
  let r := detokLoop v (bitOf flags 0) replace cap (tokenIds v.idWidth (input.length / v.idWidth) input)
    (slice aux 1 (fieldAt aux 0 1)) [] 0
  if r.status = stOK ∧ bitOf flags 2 then
    let w := r.hold.flatMap (fun b => if replace then [0xEF#8, 0xBF#8, 0xBD#8] else [b])
    if cap < r.out.length + w.length then { r with status := stTOK_LIMIT }
    else { r with out := r.out ++ w, hold := [] }
  else r

/-- The holdback state as the engine writes it (Table 6.6). -/
def holdState (hold : Bytes) : Bytes := byteOf hold.length :: (slice hold 0 3 ++ zeros 4)

end Sys2Proof.Machine
end

