-- ==== Sys2Proof/Machine/Zstd.lean ====
section
/-!
DEFINITION. CODEC 4: Zstandard frames (RFC 8878) as Table 4.2, R107, R108 and R109 bound them, and the
checkpoint chunks of R113 and R114. A backward bit stream is a list of bits in reading order.
-/
namespace Sys2Proof.Machine

/-- One cell of an FSE decoding table: symbol, bits to read, base of the next state. -/
structure FseCell where
  sym : Nat
  nb : Nat
  base : Nat
  deriving DecidableEq, Repr

structure FseTable where
  log : Nat
  cells : List FseCell
  deriving DecidableEq, Repr

def log2 (n : Nat) : Nat := Nat.log2 n

/-- Normalised counts of an FSE header: least-significant-first bits, remaining probability, counts so far (newest
first; −1 is a less-than-one probability). Ends with the counts and the bits left. -/
def fseCounts : Nat → List Bool → Nat → Nat → List Int → Option (List Int × List Bool)
  | 0, _, _, _, _ => none
  | fuel + 1, bits, remaining, maxSym, acc =>
    if remaining = 0 then some (acc.reverse, bits)
    else if maxSym < acc.length then none
    else
      let top := remaining + 1
      let k := log2 top + 1
      let small := 2 ^ k - 1 - top
      let lowMask := 2 ^ (k - 1)
      let t := bits.take (k - 1)
      if t.length < k - 1 then none
      else
        let low := bitsNat t
        let (v, used) :=
          if low < small then (low, k - 1)
          else
            let w := bitsNat (bits.take k)
            (if lowMask ≤ w then w - small else w, k)
        if bits.length < used then none
        else
          let bits := bits.drop used
          let p : Int := (v : Int) - 1
          let spent := if v = 0 then 1 else v - 1
          if remaining < spent then none
          else if v = 1 then
            -- a zero probability is followed by two-bit repeat flags
            let rec zerosRun (f : Nat) (bs : List Bool) (n : Nat) : Option (Nat × List Bool) :=
              match f with
              | 0 => none
              | f + 1 =>
                if bs.length < 2 then none
                else
                  let r := bitsNat (bs.take 2)
                  if r = 3 then zerosRun f (bs.drop 2) (n + 3) else some (n + r, bs.drop 2)
            match zerosRun 200 bits 0 with
            | none => none
            | some (n, bits) => fseCounts fuel bits remaining maxSym (List.replicate n 0 ++ (0 :: acc))
          else fseCounts fuel bits (remaining - spent) maxSym (p :: acc)

/-- Positions of an FSE table in spreading order, skipping the cells of less-than-one symbols. -/
def fsePositions (size high : Nat) : List Nat :=
  let step := size / 2 + size / 8 + 3
  ((List.range size).map (fun i => i * step % size)).filter (· < high)

/-- The decoding table of normalised counts (RFC 8878, FSE table construction). -/
def fseBuild (log : Nat) (counts : List Int) : FseTable :=
  let size := 2 ^ log
  let idx := List.zip counts (List.range counts.length)
  let lows := (idx.filter (fun p => p.1 = -1)).map (·.2)
  let high := size - lows.length
  let syms := idx.flatMap (fun p => if 0 < p.1 then List.replicate p.1.toNat p.2 else [])
  let placed := List.zip (fsePositions size high) syms
  let at' := placed.foldl (fun (a : Array Nat) p => a.setIfInBounds p.1 p.2) (Array.replicate size 0)
  let at' := (List.zip lows (List.range lows.length)).foldl
    (fun (a : Array Nat) p => a.setIfInBounds (size - 1 - p.2) p.1) at'
  let next := (counts.map (fun c => if c = -1 then 1 else c.toNat)).toArray
  let r := at'.toList.foldl (fun (p : Array Nat × List FseCell) s =>
    let n := p.1.getD s 1
    let nb := log - log2 n
    (p.1.setIfInBounds s (n + 1), ⟨s, nb, n * 2 ^ nb - size⟩ :: p.2)) (next, [])
  ⟨log, r.2.reverse⟩

/-- An FSE table description at the start of `data`: the table and the bytes after it. -/
def fseRead (data : Bytes) (maxLog maxSym : Nat) : Option (FseTable × Bytes) :=
  let bits := bitsOfBytes data
  if bits.length < 4 then none
  else
    let log := bitsNat (bits.take 4) + 5
    if maxLog < log then none
    else
      match fseCounts (2 * maxSym + 4) (bits.drop 4) (2 ^ log) maxSym [] with
      | none => none
      | some (c, rest) =>
        if maxSym + 1 < c.length then none
        else some (fseBuild log c, data.drop (data.length - rest.length / 8))

def fseRle (sym : Nat) : FseTable := ⟨0, [⟨sym, 0, 0⟩]⟩

def FseTable.cell (t : FseTable) (state : Nat) : FseCell := t.cells.getD state ⟨0, 0, 0⟩

/-- A backward bit stream: its bits in reading order, the end marker removed. -/
def backBits (data : Bytes) : Option (List Bool) :=
  match ((bitsOfBytes data).reverse.take 8).all (· == false), data with
  | true, _ => none
  | _, [] => none
  | false, _ => some (((bitsOfBytes data).reverse.dropWhile (· == false)).drop 1)

/-- k bits, most significant first; missing bits read 0. -/
def backTake (k : Nat) (bs : List Bool) : Nat × List Bool :=
  let t := bs.take k
  (bitsNat (List.replicate (k - t.length) false ++ t.reverse), bs.drop k)

/-! ## Huffman-coded literals -/

/-- A Huffman table: depth, and one (symbol, bits) pair per code of that depth. -/
structure ZHuff where
  depth : Nat
  cells : List (Nat × Nat)
  deriving DecidableEq, Repr

/-- Two interleaved FSE states give the weights until the stream ends. -/
def weightLoop (t : FseTable) : Nat → Nat → Nat → List Bool → List Nat → Option (List Nat)
  | 0, _, _, _, _ => none
  | fuel + 1, s1, s2, bs, acc =>
    let c := t.cell s1
    let acc := c.sym :: acc
    if bs.length < c.nb then some ((t.cell s2).sym :: acc).reverse
    else
      let (x, bs) := backTake c.nb bs
      weightLoop t fuel s2 (c.base + x) bs acc

/-- Weights of a Huffman description and the bytes after it. -/
def zWeights (data : Bytes) : Option (List Nat × Bytes) :=
  match data with
  | [] => none
  | hb :: rest =>
    let h := hb.toNat
    if 128 ≤ h then
      let n := h - 127
      let nbytes := (n + 1) / 2
      if rest.length < nbytes then none
      else
        let w := (rest.take nbytes).flatMap (fun b => [b.toNat / 16, b.toNat % 16])
        some (w.take n, rest.drop nbytes)
    else if rest.length < h then none
    else
      match fseRead (rest.take h) 6 255 with
      | none => none
      | some (t, stream) =>
        match backBits stream with
        | none => none
        | some bs =>
          let (s1, bs) := backTake t.log bs
          let (s2, bs) := backTake t.log bs
          match weightLoop t 256 s1 s2 bs [] with
          | none => none
          | some w => some (w, rest.drop h)

/-- The Huffman table of a list of weights; the last weight follows from the others (RFC 8878, 4.2.1). -/
def zHuffBuild (ws : List Nat) : Option ZHuff :=
  if ws.any (11 < ·) || 255 < ws.length then none
  else
    let sum := (ws.map (fun w => if w = 0 then 0 else 2 ^ (w - 1))).sum
    if sum = 0 then none
    else
      let depth := log2 sum + 1
      let left := 2 ^ depth - sum
      if 11 < depth || 2 ^ log2 left ≠ left then none
      else
        let all := ws ++ [log2 left + 1]
        let idx := List.zip all (List.range all.length)
        some ⟨depth, (List.range depth).flatMap (fun w =>
          idx.flatMap (fun p => if p.1 = w + 1 then List.replicate (2 ^ w) (p.2, depth - w) else []))⟩

/-- n symbols of one Huffman stream, which must end exactly (newest first into acc). -/
def zHuffStream (h : ZHuff) (tab : Array (Nat × Nat)) : Nat → List Bool → Bytes → Option Bytes
  | 0, bs, acc => if bs = [] then some acc else none
  | n + 1, bs, acc =>
    let (code, _) := backTake h.depth bs
    let (sym, nb) := tab.getD code (0, 0)
    if bs.length < nb then none else zHuffStream h tab n (bs.drop nb) (byteOf sym :: acc)

def zHuffOne (h : ZHuff) (data : Bytes) (n : Nat) : Option Bytes :=
  match backBits data with
  | none => none
  | some bs => (zHuffStream h h.cells.toArray n bs []).map List.reverse

def zHuffFour (h : ZHuff) (data : Bytes) (n : Nat) : Option Bytes := do
  if data.length < 6 then none
  let a := fieldAt data 0 2
  let b := fieldAt data 2 2
  let c := fieldAt data 4 2
  let d := data.drop 6
  if d.length < a + b + c + 1 then none
  let q := (n + 3) / 4
  if n < 3 * q then none
  let s1 ← zHuffOne h (d.take a) q
  let s2 ← zHuffOne h ((d.drop a).take b) q
  let s3 ← zHuffOne h ((d.drop (a + b)).take c) q
  let s4 ← zHuffOne h (d.drop (a + b + c)) (n - 3 * q)
  return s1 ++ s2 ++ s3 ++ s4

/-- Tables that carry over from block to block, and the three recent offsets. -/
structure ZTables where
  huff : Option ZHuff
  ll : Option FseTable
  off : Option FseTable
  ml : Option FseTable
  reps : List Nat
  deriving DecidableEq, Repr

/-- The literals section: literals, the bytes after it, the Huffman table in force. -/
def zLiterals (data : Bytes) (prev : Option ZHuff) : Option (Bytes × Bytes × Option ZHuff) := do
  if data = [] then none
  let b0 := fieldAt data 0 1
  let type := b0 % 4
  let sf := b0 / 4 % 4
  if type < 2 then
    let (hl, n) :=
      if sf % 2 = 0 then (1, b0 / 8)
      else if sf = 1 then (2, fieldAt data 0 2 / 16)
      else (3, fieldAt data 0 3 / 16)
    let body := data.drop hl
    if data.length < hl || 131072 < n then none
    if type = 0 then
      if body.length < n then none else some (body.take n, body.drop n, prev)
    else
      if body = [] then none else some (List.replicate n (body.headD 0#8), body.drop 1, prev)
  else
    let (hl, w) := if sf < 2 then (3, 10) else if sf = 2 then (4, 14) else (5, 18)
    if data.length < hl then none
    let v := fieldAt data 0 hl / 16
    let n := v % 2 ^ w
    let c := v / 2 ^ w
    let body := data.drop hl
    if body.length < c || 131072 < n then none
    let part := body.take c
    let (h, streams) ←
      (if type = 2 then do
        let (ws, rest) ← zWeights part
        let h ← zHuffBuild ws
        return (h, rest)
      else do
        let h ← prev
        return (h, part))
    let lits ← if sf = 0 then zHuffOne h streams n else zHuffFour h streams n
    some (lits, body.drop c, some h)

/-! ## Sequences -/

def llBase (c : Nat) : Nat :=
  if c < 16 then c
  else [16, 18, 20, 22, 24, 28, 32, 40, 48, 64, 128, 256, 512, 1024, 2048, 4096, 8192, 16384, 32768, 65536].getD (c - 16) 0
def llBits (c : Nat) : Nat :=
  if c < 16 then 0 else [1, 1, 1, 1, 2, 2, 3, 3, 4, 6, 7, 8, 9, 10, 11, 12, 13, 14, 15, 16].getD (c - 16) 0
def mlBase (c : Nat) : Nat :=
  if c < 32 then c + 3
  else [35, 37, 39, 41, 43, 47, 51, 59, 67, 83, 99, 131, 259, 515, 1027, 2051, 4099, 8195, 16387, 32771, 65539].getD (c - 32) 0
def mlBits (c : Nat) : Nat :=
  if c < 32 then 0 else [1, 1, 1, 1, 2, 2, 3, 3, 4, 4, 5, 7, 8, 9, 10, 11, 12, 13, 14, 15, 16].getD (c - 32) 0

def llDefault : List Int :=
  [4, 3, 2, 2, 2, 2, 2, 2, 2, 2, 2, 2, 2, 1, 1, 1, 2, 2, 2, 2, 2, 2, 2, 2, 2, 3, 2, 1, 1, 1, 1, 1, -1, -1, -1, -1]
def mlDefault : List Int :=
  [1, 4, 3, 2, 2, 2, 2, 2, 2, 1, 1, 1, 1, 1, 1, 1, 1, 1, 1, 1, 1, 1, 1, 1, 1, 1, 1, 1, 1, 1, 1, 1, 1, 1, 1, 1] ++
  [1, 1, 1, 1, 1, 1, 1, 1, 1, 1, -1, -1, -1, -1, -1, -1, -1]
def offDefault : List Int :=
  [1, 1, 1, 1, 1, 1, 2, 2, 2, 1, 1, 1, 1, 1, 1, 1, 1, 1, 1, 1, 1, 1, 1, 1, -1, -1, -1, -1, -1]

/-- A table by its mode: predefined, RLE, described, or the previous one. -/
def seqTable (mode maxLog maxSym : Nat) (default : FseTable) (prev : Option FseTable) (data : Bytes) :
    Option (FseTable × Bytes) :=
  if mode = 0 then some (default, data)
  else if mode = 1 then
    match data with
    | [] => none
    | b :: rest => if maxSym < b.toNat then none else some (fseRle b.toNat, rest)
  else if mode = 2 then fseRead data maxLog maxSym
  else prev.map (fun t => (t, data))

/-- The offset of a sequence and the recent offsets after it (RFC 8878, 3.1.1.5). -/
def zOffset (reps : List Nat) (v ll : Nat) : Option (Nat × List Nat) :=
  let r1 := reps.getD 0 1
  let r2 := reps.getD 1 4
  let r3 := reps.getD 2 8
  if 3 < v then some (v - 3, [v - 3, r1, r2])
  else
    let k := if ll = 0 then v + 1 else v
    if k = 1 then some (r1, [r1, r2, r3])
    else if k = 2 then some (r2, [r2, r1, r3])
    else if k = 3 then some (r3, [r3, r1, r2])
    else if r1 ≤ 1 then none else some (r1 - 1, [r1 - 1, r1, r2])

structure SeqState where
  ll : Nat
  off : Nat
  ml : Nat
  bs : List Bool
  lits : Bytes
  reps : List Nat
  z : Infl
  deriving DecidableEq, Repr

def zBad {α : Type} : Except Stop α := .error (.bad stDEC_MALFORMED)

/-- Decodes and carries out `n` sequences; `start` is the output length at the start of the frame. -/
def runSeqs (tl tf tm : FseTable) (start : Nat) : Nat → SeqState → Except Stop SeqState
  | 0, q => if q.bs = [] then .ok q else zBad
  | n + 1, q =>
    let cl := tl.cell q.ll
    let co := tf.cell q.off
    let cm := tm.cell q.ml
    let upd := if n = 0 then 0 else cl.nb + cm.nb + co.nb
    if 31 < co.sym || 35 < cl.sym || 52 < cm.sym then zBad
    else if q.bs.length < co.sym + mlBits cm.sym + llBits cl.sym + upd then zBad
    else
      let (ox, bs) := backTake co.sym q.bs
      let (mx, bs) := backTake (mlBits cm.sym) bs
      let (lx, bs) := backTake (llBits cl.sym) bs
      let llen := llBase cl.sym + lx
      let mlen := mlBase cm.sym + mx
      match zOffset q.reps (2 ^ co.sym + ox) llen with
      | none => zBad
      | some (d, reps) =>
        if q.lits.length < llen then zBad
        else
          match emitAll (q.lits.take llen) q.z with
          | .error e => .error e
          | .ok z =>
            if z.n - start < d || d = 0 then zBad
            else
              match copyBack mlen d z with
              | .error e => .error e
              | .ok z =>
                let (a, bs) := if n = 0 then (0, bs) else backTake cl.nb bs
                let (b, bs) := if n = 0 then (0, bs) else backTake cm.nb bs
                let (c, bs) := if n = 0 then (0, bs) else backTake co.nb bs
                runSeqs tl tf tm start n ⟨cl.base + a, co.base + c, cm.base + b, bs, q.lits.drop llen, reps, z⟩

def liftO {α : Type} : Option α → Except Stop α
  | some a => .ok a
  | none => .error (.bad stDEC_MALFORMED)

/-- One compressed block (RFC 8878, 3.1.1.3). -/
def zBlock (data : Bytes) (start : Nat) (tb : ZTables) (z : Infl) : Except Stop (ZTables × Infl) := do
  let (lits, rest, h) ← liftO (zLiterals data tb.huff)
  let tb := { tb with huff := h }
  if rest = [] then zBad else pure ()
  let b0 := fieldAt rest 0 1
  let (hl, n) :=
    if b0 < 128 then (1, b0)
    else if b0 < 255 then (2, (b0 - 128) * 256 + fieldAt rest 1 1)
    else (3, fieldAt rest 1 2 + 0x7F00)
  if rest.length < hl then zBad else pure ()
  let rest := rest.drop hl
  if n = 0 then
    if rest ≠ [] then zBad else pure ()
    let z ← emitAll lits z
    return (tb, z)
  else
    if rest = [] then zBad else pure ()
    let modes := fieldAt rest 0 1
    if modes % 4 ≠ 0 then zBad else pure ()
    let (tl, rest) ← liftO (seqTable (modes / 64) 9 35 (fseBuild 6 llDefault) tb.ll (rest.drop 1))
    let (tf, rest) ← liftO (seqTable (modes / 16 % 4) 8 31 (fseBuild 5 offDefault) tb.off rest)
    let (tm, rest) ← liftO (seqTable (modes / 4 % 4) 9 52 (fseBuild 6 mlDefault) tb.ml rest)
    let bs ← liftO (backBits rest)
    if bs.length < tl.log + tf.log + tm.log then zBad else pure ()
    let (sl, bs) := backTake tl.log bs
    let (so, bs) := backTake tf.log bs
    let (sm, bs) := backTake tm.log bs
    let q ← runSeqs tl tf tm start n ⟨sl, so, sm, bs, lits, tb.reps, z⟩
    let z ← emitAll q.lits q.z
    return ({ tb with ll := some tl, off := some tf, ml := some tm, reps := q.reps }, z)

/-- The blocks of a frame: the bytes after the last block, and the output. -/
def zBlocks (maxBlock start : Nat) : Nat → Bytes → ZTables → Infl → Except Stop (Bytes × Infl)
  | 0, _, _, _ => zBad
  | fuel + 1, data, tb, z => do
    if data.length < 3 then zBad else pure ()
    let h := fieldAt data 0 3
    let size := h / 8
    let kind := h / 2 % 4
    let body := data.drop 3
    if maxBlock < size then zBad else pure ()
    let used := if kind = 1 then 1 else size
    let before := z.n
    if body.length < used then zBad else pure ()
    let (tb, z) ←
      (if kind = 0 then do
        let z ← emitAll (body.take size) z
        return (tb, z)
      else if kind = 1 then do
        let z ← emitAll (List.replicate size (body.headD 0#8)) z
        return (tb, z)
      else if kind = 2 then zBlock (body.take size) start tb z
      else zBad)
    if maxBlock < z.n - before then zBad else pure ()
    if h % 2 = 1 then return (body.drop used, z) else zBlocks maxBlock start fuel (body.drop used) tb z

/-! ## XXH64, the content checksum -/

def xxP1 : Nat := 0x9E3779B185EBCA87
def xxP2 : Nat := 0xC2B2AE3D27D4EB4F
def xxP3 : Nat := 0x165667B19E3779F9
def xxP4 : Nat := 0x85EBCA77C2B2AE63
def xxP5 : Nat := 0x27D4EB2F165667C5

def xxRound (a v : Nat) : Nat := rotl64 ((a + v * xxP2) % 2 ^ 64) 31 * xxP1 % 2 ^ 64

def xxMerge (h v : Nat) : Nat := ((h ^^^ xxRound 0 v) * xxP1 + xxP4) % 2 ^ 64

def xxStripes : Nat → Bytes → List Nat → List Nat
  | 0, _, v => v
  | n + 1, d, v => xxStripes n (d.drop 32) (List.zipWith xxRound v (lanesOf 4 d))

def xxTail : Nat → Bytes → Nat → Nat
  | 0, _, h => h
  | fuel + 1, d, h =>
    if 8 ≤ d.length then
      xxTail fuel (d.drop 8) ((rotl64 (h ^^^ xxRound 0 (fieldAt d 0 8)) 27 * xxP1 + xxP4) % 2 ^ 64)
    else if 4 ≤ d.length then
      xxTail fuel (d.drop 4) ((rotl64 (h ^^^ (fieldAt d 0 4 * xxP1 % 2 ^ 64)) 23 * xxP2 + xxP3) % 2 ^ 64)
    else
      match d with
      | [] => h
      | b :: rest => xxTail fuel rest (rotl64 (h ^^^ (b.toNat * xxP5 % 2 ^ 64)) 11 * xxP1 % 2 ^ 64)

/-- XXH64 with seed 0. -/
def xxh64 (d : Bytes) : Nat :=
  let n := d.length / 32
  let h0 :=
    if n = 0 then xxP5
    else
      let v := xxStripes n d [(xxP1 + xxP2) % 2 ^ 64, xxP2, 0, 2 ^ 64 - xxP1]
      let mix := rotl64 (v.getD 0 0) 1 + rotl64 (v.getD 1 0) 7 + rotl64 (v.getD 2 0) 12 + rotl64 (v.getD 3 0) 18
      v.foldl xxMerge (mix % 2 ^ 64)
  let h := xxTail 40 (d.drop (32 * n)) ((h0 + d.length) % 2 ^ 64)
  let h := (h ^^^ (h / 2 ^ 33)) * xxP2 % 2 ^ 64
  let h := (h ^^^ (h / 2 ^ 29)) * xxP3 % 2 ^ 64
  h ^^^ (h / 2 ^ 32)

/-! ## Frames -/

/-- One frame after its magic number: the bytes after the frame, and the output. `hubWindow` is the window bound of
engine 0x14 (none on the slice, R108). -/
def zFrame (hubWindow : Option Nat) (data : Bytes) (z : Infl) : Except Stop (Bytes × Infl) := do
  if data = [] then zBad else pure ()
  let fhd := fieldAt data 0 1
  let single := bitOf fhd 5
  if bitOf fhd 3 then zBad else pure ()
  let wlen := if single then 0 else 1
  let dlen := [0, 1, 2, 4].getD (fhd % 4) 0
  let flen := if fhd / 64 = 0 then (if single then 1 else 0) else 2 ^ (fhd / 64)
  let hl := 1 + wlen + dlen + flen
  if data.length < hl then zBad else pure ()
  let dict := fieldAt data (1 + wlen) dlen
  if dict ≠ 0 then throw (.bad stDEC_UNSUPPORTED)
  let fcs := fieldAt data (1 + wlen + dlen) flen + (if flen = 2 then 256 else 0)
  let wd := fieldAt data 1 1
  let base := 2 ^ (10 + wd / 8)
  let window := if single then fcs else base + base / 8 * (wd % 8)
  match hubWindow with
  | some w => if w < window then throw (.bad stDEC_WINDOW)
  | none => pure ()
  let start := z.n
  let (rest, z) ← zBlocks (min window 131072) start (data.length + 1) (data.drop hl) ⟨none, none, none, none, [1, 4, 8]⟩ z
  if flen ≠ 0 ∧ z.n - start ≠ fcs then zBad else pure ()
  if bitOf fhd 2 then
    if rest.length < 4 then zBad else pure ()
    if fieldAt rest 0 4 ≠ xxh64 (z.out.take (z.n - start)).reverse % 2 ^ 32 then throw (.bad stDEC_CHECKSUM)
    return (rest.drop 4, z)
  else return (rest, z)

/-- Frames in order, skippable frames skipped (Table 4.2). -/
def zFrames (hubWindow : Option Nat) : Nat → Bytes → Infl → Except Stop Infl
  | 0, _, _ => zBad
  | fuel + 1, data, z =>
    if data = [] then .ok z
    else if data.length < 4 then zBad
    else
      let m := fieldAt data 0 4
      if m / 16 = 0x184D2A5 then
        if data.length < 8 || data.length < 8 + fieldAt data 4 4 then zBad
        else zFrames hubWindow fuel (data.drop (8 + fieldAt data 4 4)) z
      else if m = 0xFD2FB528 then
        match zFrame hubWindow (data.drop 4) z with
        | .error e => .error e
        | .ok (rest, z) => zFrames hubWindow fuel rest z
      else if 0xFD2FB522 ≤ m ∧ m < 0xFD2FB528 then .error (.bad stDEC_UNSUPPORTED)
      else zBad

def zstdDecode (hubWindow : Option Nat) (data : Bytes) (limit : Nat) : Except Stop Bytes :=
  if data = [] then .error (.bad stDEC_MALFORMED)
  else (zFrames hubWindow (data.length + 1) data ⟨[], [], 0, limit⟩).map (fun z => z.out.reverse)

/-- CODEC 1 to 4 of Table 4.2. -/
def decodeCodec (hubWindow : Option Nat) (codec : Nat) (data : Bytes) (expect : Nat) : EngRes :=
  decodeEnd expect
    (if codec = 1 then rawDeflate data expect
     else if codec = 2 then zlibDecode data expect
     else if codec = 3 then gzipDecode data expect
     else zstdDecode hubWindow data expect)

end Sys2Proof.Machine
end

