-- ==== Sys2Proof/Machine/Engines.lean ====
section
/-!
DEFINITION. The tile engines and the decoding services execute the head call of their queue (R80, R83): tile DMA, the
decompressors, the image decoder, geometry, tokens and the MXU (spec/03 to spec/07), and the video decode cluster.
-/
namespace Sys2Proof.Machine

/-- n free bytes. -/
def State.freeBytes (s : State) (n : Nat) : Bytes :=
  let w := (Config.freeValue (8 * n) s.freeCtr).toNat
  toLE n w

/-- Input and auxiliary bytes of a call. -/
def State.inBytes (s : State) (t : Nat) (c : Call) : Bytes := s.loadTile t (descIn c.desc).1 (descIn c.desc).2
def State.auxBytes (s : State) (t : Nat) (c : Call) : Bytes := s.loadTile t (descAux c.desc).1 (descAux c.desc).2

/-- A decoder's end: the output range is undefined after an error status (R126), unless the call had no output. -/
def State.finishDecode (s : State) (t : Nat) (c : Call) (range : Nat) (e : EngRes) : State :=
  if e.status = stOK ∨ e.status = stDEC_LIMIT ∨ e.status = stDEC_REGION then s.finishCall t c e
  else (s.storeTile t (descOut c.desc).1 (s.freeBytes range)).used.completeCall t c e.len e.status

/-! ## Tile DMA (R316, Table 3.4: the handle in bytes 32 to 39, the offset in bytes 40 to 47) -/

def execTileDmaLoad (tile : Fin 96) (s : State) : Step' :=
  act s (fun s => s.onCall tile 0x00 0x01 (fun c =>
    let off := fieldAt c.desc 40 8
    let n := (descOut c.desc).2
    match s.findChain (s.tileCtx tile) (fieldAt c.desc 32 8) none with
    | .error st => s.completeCall tile c 0 st
    | .ok (_, ch) =>
      if ch.size < off + n then s.completeCall tile c 0 stINK_ARGS
      else s.finishCall tile c ⟨stOK, n, Mem.read ch.bytes off n⟩))

/-- TILE_DMA_STORE (R316). The tile DMA copies tile-store bytes into a handle that the tile owns.
(DEDUCED, log entry 24.) (PRESUMED, log entry 33.) -/
def execTileDmaStore (tile : Fin 96) (s : State) : Step' :=
  act s (fun s => s.onCall tile 0x00 0x02 (fun c =>
    let off := fieldAt c.desc 40 8
    let n := (descIn c.desc).2
    match s.findChain (s.tileCtx tile) (fieldAt c.desc 32 8) (some (agTILE, tile.val)) with
    | .error st => s.completeCall tile c 0 st
    | .ok (num, ch) =>
      if ch.size < off + n then s.completeCall tile c 0 stINK_ARGS
      else (s.setChain (s.tileCtx tile) num { ch with bytes := Mem.write ch.bytes off (s.inBytes tile c) }).completeCall
        tile c n stOK))

/-! ## Decompression (R107 to R111) -/

def execDecompressDecode (tile : Fin 96) (s : State) : Step' :=
  act s (fun s => s.onCall tile 0x01 0x01 (fun c =>
    let expect := fieldAt c.desc 40 4
    if (descOut c.desc).2 < expect then s.completeCall tile c 0 stDEC_LIMIT
    else s.finishDecode tile c expect (decodeCodec none (fieldAt c.desc 32 1) (s.inBytes tile c) expect)))

/-- u64 handles of a list. -/
def handleList (b : Bytes) : List Nat := (List.range (b.length / 8)).map (fun i => fieldAt b (8 * i) 8)

/-- Writes bytes across handles of class L in list order, 2 MiB each (R111). -/
def State.writeAcross (s : State) (hs : List Nat) (d : Bytes) : State :=
  match hs with
  | [] => s
  | h :: r => if d.isEmpty then s else State.writeAcross (s.writeHandle h 0 (d.take 0x200000)) r (d.drop 0x200000)

/-- Whether every handle is the calling context's; the first failing status. -/
def State.handlesErr (s : State) (ctx : Nat) (hs : List Nat) : Option Status :=
  match hs with
  | [] => none
  | h :: r => match s.findChain ctx h none with
    | .error st => some (if st = stINK_ARGS ∨ st = stINK_ALREADY_FREE then st else stINK_NOT_OWNER)
    | .ok _ => State.handlesErr s ctx r

/-- HUB_DECOMPRESS_DECODE (R111). The hub decompressor decodes a large input into a list of class L handles.
(PRESUMED, log entry 33.) -/
def execHubDecompressDecode (tile : Fin 96) (s : State) : Step' :=
  act s (fun s => s.onCall tile 0x14 0x01 (fun c =>
    let hs := handleList (s.auxBytes tile c)
    let inH := fieldAt c.desc 32 8
    let expect := fieldAt c.desc 48 4
    if 512 < hs.length ∨ (descAux c.desc).2 % 8 ≠ 0 then s.completeCall tile c 0 stENG_DESC
    else match s.handlesErr (s.tileCtx tile) (inH :: hs) with
      | some st => s.completeCall tile c 0 st
      | none =>
        if 0x200000 * hs.length < expect then s.completeCall tile c 0 stDEC_LIMIT
        else
          let e := decodeCodec (some (2 ^ 27)) (fieldAt c.desc 52 1)
            (s.readHandle inH (fieldAt c.desc 40 4) (fieldAt c.desc 44 4)) expect
          let out := if e.status = stOK ∨ e.status = stDEC_WINDOW then e.out else s.freeBytes expect
          (s.used.writeAcross hs out).completeCall tile c e.len e.status))

/-! ## Image decode (R115 to R120) -/

/-- FLAGS byte of the image decoder's arguments: bit 0 KEEP16. -/
def keep16 (d : Bytes) : Bool := bitOf (fieldAt d 33 1) 0

/-- DECODE_FULL (R118). The image decoder decodes a whole JPEG or PNG into planes behind the decoded image
header. -/
def execDecodeFull (tile : Fin 96) (s : State) : Step' :=
  act s (fun s => s.onCall tile 0x02 0x01 (fun c =>
    let cap := (descOut c.desc).2
    s.finishDecode tile c cap (decodeFull (fieldAt c.desc 32 1) (keep16 c.desc) cap (s.inBytes tile c))))

/-- DECODE_REGION (R119). The image decoder decodes only the MCUs or rows that cover a region. -/
def execDecodeRegion (tile : Fin 96) (s : State) : Step' :=
  act s (fun s => s.onCall tile 0x02 0x02 (fun c =>
    let cap := (descOut c.desc).2
    let arg := fun o => fieldAt c.desc o 2
    s.finishDecode tile c cap (decodeRegion (fieldAt c.desc 32 1) (keep16 c.desc) cap (s.inBytes tile c)
      (s.auxBytes tile c) (arg 40) (arg 42) (arg 44) (arg 46))))

/-- IMAGE_INFO (R118). The image decoder writes only the header, parsing up to the first scan or IDAT. -/
def execImageInfo (tile : Fin 96) (s : State) : Step' :=
  act s (fun s => s.onCall tile 0x02 0x03 (fun c =>
    let cap := (descOut c.desc).2
    s.finishDecode tile c cap (decodeInfo (fieldAt c.desc 32 1) (keep16 c.desc) cap (s.inBytes tile c))))

/-! ## Geometry (R128 to R143) -/

/-- The clock profile in effect (R24). -/
def State.clockProfile (s : State) : Nat := s.fld fCLK_STATUS_PROFILE

def selfOverlap (d : Bytes) : Bool := overlap (descOut d) (descIn d) || overlap (descOut d) (descAux d)

/-- TRANSFORM (R130). The geometry engine crops, rotates, resizes, flips, turns, converts colour and
normalises into an NHWC tensor. After GEO_COVERAGE the output range is undefined (R136). -/
def execTransform (tile : Fin 96) (s : State) : Step' :=
  act s (fun s => s.onCall tile 0x03 0x01 (fun c =>
    let e := geoTransform s.clockProfile (selfOverlap c.desc) (s.inBytes tile c) (s.auxBytes tile c) (descOut c.desc).2
    if e.status = stGEO_COVERAGE then s.finishDecode tile c (descOut c.desc).2 e else s.finishCall tile c e))

/-- NORMALISE (R142). The geometry engine normalises interleaved samples into the output format. -/
def execNormalise (tile : Fin 96) (s : State) : Step' :=
  act s (fun s => s.onCall tile 0x03 0x02 (fun c =>
    s.finishCall tile c (geoNormalise (selfOverlap c.desc) (s.inBytes tile c) (s.auxBytes tile c) (descOut c.desc).2)))

/-! ## Tokens (R152 to R167) -/

/-- The state code of a vocabulary bank (Table 6.3), numbered slot × 2 + bank, in VOC_SLOT. -/
def State.bankState (s : State) (k : Nat) : Nat :=
  if k % 2 = 0 then s.fld (fVOC_SLOTn_B0_STATE (k / 2)) else s.fld (fVOC_SLOTn_B1_STATE (k / 2))

def State.setBankState (s : State) (k v : Nat) : State :=
  s.setFld (if k % 2 = 0 then fVOC_SLOTn_B0_STATE (k / 2) else fVOC_SLOTn_B1_STATE (k / 2)) v

/-- Banks bound to the logical vocabularies of the image a tile holds (R153). -/
def State.boundBanks (s : State) (t : Nat) : List Nat :=
  match (s.tile t).image with
  | some i => Map.getD (s.ctxData (s.tileCtx t)).binds i []
  | none => []

/-- Writes a token call's end: output, CONSUMED and COUNT in the descriptor (R154), then the completion. -/
def State.finishTokens (s : State) (t : Nat) (c : Call) (r : TokRes) : State :=
  ((s.storeTile t (descOut c.desc).1 r.out).storeTile t (c.descAddr + 56) (toLE 4 r.consumed ++ toLE 4 r.count)).completeCall
    t c r.out.length r.status

/-- Runs a token call: VOCAB, flags and lengths, then the bank, then the tokens. -/
def State.tokenCall (s : State) (t : Nat) (c : Call) (flagMask auxLen : Nat) (body : Vocab → State) : State :=
  let v := fieldAt c.desc 32 1
  let flags := fieldAt c.desc 33 1
  match (s.boundBanks t)[v]? with
  | none => s.completeCall t c 0 stTOK_ARGS
  | some k =>
    match parseVocab ((Map.find s.vocs k).map (·.image) |>.getD []) with
    | none => s.completeCall t c 0 stTOK_ARGS
    | some voc =>
      if flags / flagMask ≠ 0 ∨ (descAux c.desc).2 ≠ auxLen
          ∨ (c.op = 2 ∧ ((descIn c.desc).2 % voc.idWidth ≠ 0 ∨ !holdOk (s.auxBytes t c))) then
        s.completeCall t c 0 stTOK_ARGS
      else if s.bankState k = 3 then s.completeCall t c 0 stVOC_FAILED
      else (body voc).mapTile t (fun r => { r with vcache := (k :: r.vcache).eraseDups })

/-- TOKENIZE (R158). The token engine splits text into pieces and matches them greedily into token IDs. -/
def execTokenize (tile : Fin 96) (s : State) : Step' :=
  act s (fun s => s.onCall tile 0x04 0x01 (fun c => s.tokenCall tile c 16 0 (fun voc =>
    s.finishTokens tile c (tokenize voc (fieldAt c.desc 33 1) (s.inBytes tile c) (descOut c.desc).2))))

/-- DETOKENIZE (R163). The token engine turns token IDs into bytes, keeping a holdback of partial UTF-8. -/
def execDetokenize (tile : Fin 96) (s : State) : Step' :=
  act s (fun s => s.onCall tile 0x04 0x02 (fun c => s.tokenCall tile c 8 8 (fun voc =>
    let r := detokenize voc (fieldAt c.desc 33 1) (s.inBytes tile c) (s.auxBytes tile c) (descOut c.desc).2
    (s.storeTile tile (descAux c.desc).1 (holdState r.hold)).finishTokens tile c r)))

/-! ## MXU (R168 to R191) -/

/-- R191: the second execution's outcome. A call that agrees completes; one that disagrees again fences the tile. -/
def State.withResidue (s : State) (t : Nat) (residue : Residue) (done : State → State) : State :=
  match residue with
  | .agrees => done s
  | .agreesAgain =>
    (((done s).bump (fTILE_MXU_CHECK_COUNT t) 1).flag (fTILE_MXU_CHECK_RETRIED t)).raise (srcTILE t) stMXU_RESIDUE 5 (s.tileCtx t) .f1
  | .disagrees =>
    let s := (s.bump (fTILE_MXU_CHECK_COUNT t) 1).flag (fTILE_MXU_CHECK_FAILED t)
    (s.tileFault t stMXU_RESIDUE).fenceTile t stMXU_RESIDUE 5

/-- MATMUL (R177). The MXU computes a matrix product with exact long accumulation, or the fixed BF16 order,
and converts to OUT_FMT. -/
def execMatmul (tile : Fin 96) (residue : Residue) (s : State) : Step' :=
  act s (fun s => s.onCall tile 0x05 0x01 (fun c =>
    s.withResidue tile residue (fun s =>
      s.finishCall tile c (matmul (slice c.desc 32 32) (s.inBytes tile c) (s.auxBytes tile c) (descOut c.desc).2))))

/-- The item of the work slot a call names in ENGINE_ARGS bytes 40 to 43, if its lane holds that slot (R185). -/
def State.callItem (s : State) (t : Nat) (c : Call) : Option WorkItem :=
  (s.heldSlot t c.lane (fieldAt c.desc 40 4)).map (fun q => q.2.item)

/-- Entry `e` of the decision table in effect for a step (R186). -/
def CtxData.decision (d : CtxData) (step e : Nat) : Decision :=
  match (d.tables.filter (fun x => x.entry == e && x.step ≤ step)).foldl
      (fun best x => match best with
        | none => some x
        | some y => if y.step ≤ x.step then some x else some y) none with
  | some x => x.value
  | none => { threshold := 0, mode := 0 }

/-- WEIGHT[d] in effect for a step (R189). -/
def CtxData.weight (d : CtxData) (step dataset : Nat) : Nat :=
  let ms := d.mixes.filter (fun m => m.step ≤ step && m.entries.any (fun e => e.1 == dataset))
  match ms.foldl (fun best m => match best with
      | none => some m
      | some y => if y.seq ≤ m.seq then some m else some y) none with
  | some m => ((m.entries.filter (fun e => e.1 == dataset)).getLast?.map (·.2)).getD (2 ^ 32)
  | none => 2 ^ 32

/-- The power profile of a context's run (R181). -/
def CtxData.power (d : CtxData) : Nat := (d.run.map (fun r => r.cfg.power)).getD 0

/-- FILTER (R185). The MXU runs a filter model's layers and writes scores and a VERDICT from the decision
table. (DEDUCED, log entry 23.) -/
def execFilter (tile : Fin 96) (residue : Residue) (s : State) : Step' :=
  act s (fun s => s.onCall tile 0x05 0x10 (fun c =>
    s.withResidue tile residue (fun s =>
      let d := s.ctxData (s.tileCtx tile)
      let models := match s.tileImage tile with | some i => parseModels i.models | none => []
      let m := fieldAt c.desc 32 1
      let w := s.callItem tile c
      let step := (w.map (·.step)).getD 0
      let table := (List.range 16).map (fun k => d.decision step (16 * m + k))
      if (descAux c.desc).2 ≠ 0 then s.completeCall tile c 0 stMXU_ARGS
      else s.finishCall tile c (filterCall models m (d.power == 1) w.isSome table (s.inBytes tile c) (descOut c.desc).2))))

/-- MIX (R187). The MXU compares the item's hidden mix word with the dataset's mixing weight and writes a
VERDICT. (DEDUCED, log entry 23.) -/
def execMix (tile : Fin 96) (s : State) : Step' :=
  act s (fun s => s.onCall tile 0x05 0x11 (fun c =>
    let d := s.ctxData (s.tileCtx tile)
    match s.callItem tile c with
    | none => s.completeCall tile c 0 stMXU_ARGS
    | some w => s.finishCall tile c (mixCall ((descAux c.desc).2 == 0) (descIn c.desc).2 w.mixWord (d.weight w.step w.dataset) (descOut c.desc).2)))

/-! ## Video (R121 to R123) -/

/-- One plane of a crop, as bytes or little-endian u16. -/
def cropPlane (plane : List Nat) (pw x0 y0 w h size : Nat) : Bytes :=
  ((List.range h).map (fun y => ((plane.drop ((y0 + y) * pw + x0)).take w).map (toLE size))).flatten.flatten

/-- The crop of a presentation frame: Y, then U and V at half size for 4:2:0 (R121).
(DESIGN CHOICE, log entry 6.) -/
def cropFrame (stream : Bytes) (f : Nat) (r : Nat × Nat × Nat × Nat) : Bytes :=
  let size := if Config.videoDepth stream ≤ 8 then 1 else 2
  let w := Config.videoWidth stream
  let half := if Config.video420 stream then 2 else 1
  let plane := fun k d => cropPlane (Config.videoPlane stream f k) ((w + d - 1) / d) (r.1 / d) (r.2.1 / d) (r.2.2.1 / d)
    (r.2.2.2 / d) size
  plane 0 1 ++ plane 1 half ++ plane 2 half

/-- Crop rectangles X0, Y0, W, H at the front of AUX. -/
def cropRects (aux : Bytes) (n : Nat) : List (Nat × Nat × Nat × Nat) :=
  (List.range n).map (fun i => (fieldAt aux (8 * i) 2, fieldAt aux (8 * i + 2) 2, fieldAt aux (8 * i + 4) 2,
    fieldAt aux (8 * i + 6) 2))

def rectBad (stream : Bytes) (r : Nat × Nat × Nat × Nat) : Bool :=
  r.2.2.1 == 0 || r.2.2.2 == 0 || Config.videoWidth stream < r.1 + r.2.2.1 || Config.videoHeight stream < r.2.1 + r.2.2.2
    || (Config.video420 stream && !(r.1 % 2 == 0 && r.2.1 % 2 == 0 && r.2.2.1 % 2 == 0 && r.2.2.2 % 2 == 0))

/-- VDC_DECODE (R122). The VDC decodes frames from the last key frame, reconstructing only the live region and
writing crops to handles. (DESIGN CHOICE, log entry 6.) (PRESUMED, log entry 33.) -/
def execVdcDecode (tile : Fin 96) (handle start count stride margin : Nat) (s : State) : Step' :=
  act s (fun s => s.onCall tile 0x15 0x01 (fun c =>
    let aux := s.auxBytes tile c
    let rects := cropRects aux count
    let hs := handleList (aux.drop (8 * count))
    if !(1 ≤ count && count ≤ 4096 && 1 ≤ stride && stride ≤ 255 && margin % 16 == 0) || aux.length < 8 * count then
      s.completeCall tile c 0 stENG_DESC
    else match s.handlesErr (s.tileCtx tile) (handle :: hs) with
      | some st => s.completeCall tile c 0 st
      | none =>
        let stream := s.readHandle handle 0 (s.handleSize handle)
        let st := BitVec.ofNat 16 (Config.videoStatus stream)
        if st = stDEC_UNSUPPORTED then s.completeCall tile c 0 st
        else if rects.any (rectBad stream) then s.completeCall tile c 0 stDEC_REGION
        else
          let out := ((List.range count).map (fun i =>
            cropFrame stream (start + i * stride) (rects.getD i (0, 0, 0, 0)))).flatten
          if 0x200000 * hs.length < out.length then s.completeCall tile c 0 stDEC_LIMIT
          else if st = stOK then (s.writeAcross hs out).completeCall tile c out.length stOK
          else (s.used.writeAcross hs (s.freeBytes out.length)).completeCall tile c 0 st))

end Sys2Proof.Machine
end

