-- ==== Sys2Proof/Machine/Seating.lean ====
section
/-!
DEFINITION. Work items and seating (R92, R99 to R105, Table 3.9), shadow pairs (R390, R391), Rounds (R96, R392, R393) and
errors of tiles and of the hub's decoding units (R90, R127).
-/
namespace Sys2Proof.Machine

/-! ## Images in effect -/

/-- The lead of a context's run; 1 without a run. -/
def CtxData.lead (d : CtxData) : Nat := (d.run.map (fun r => r.cfg.pack.lead)).getD 1

/-- The image in effect for a step (R99): the latest change at or before it. -/
def CtxData.imageFor (d : CtxData) (step : Nat) : Option Nat :=
  ((d.images.filter (fun e => e.1 ≤ step)).foldl (fun best e => match best with
    | none => some e
    | some b => if b.1 ≤ e.1 then some e else some b) none).map (·.2)

/-- The latest accepted or extrapolated step. -/
def State.lastStep (s : State) : Nat := s.reg aSTEP_LAST

/-- The image tiles of a context are to hold: the one in effect at the latest changeover (R99). -/
def State.targetImage (s : State) (c : Nat) : Option Nat :=
  let d := s.ctxData c
  d.imageFor (s.lastStep + d.lead)

/-! ## Seating transitions (Table 3.9) -/

def execTileImageLoad (tile : Fin 96) (s : State) : Step' :=
  act s (fun s =>
    if s.tileState tile ≠ tsSEATED then s
    else match s.targetImage (s.tileCtx tile) with
      | none => s
      | some i => (s.mapTile tile (fun r => { r with bars := [], vcache := [], nextImage := some i })).setTileState tile tsLOADING)

/-- Lanes named by the kernel table start at their entry addresses; every other lane is idle.
(DESIGN CHOICE, log entry 9.) -/
def startLanes (i : ImageRec) : Map Lane :=
  (List.range 288).filterMap (fun l => match i.kernelOf l with
    | some k => some (l, { Lane.off with run := .running, pc := k.entry })
    | none => none)

/-- The image's bytes stand at the bottom of the store, and its lanes start. -/
def State.loadImage (s : State) (tile n : Nat) (i : ImageRec) : State :=
  s.mapTile tile (fun r => { r with
    image := some n
    nextImage := none
    slots := []
    bars := []
    calls := []
    lanes := startLanes i
    store := Mem.write r.store 0 (i.code ++ i.const) })

/-- TILE_LOAD_COMPLETE (R100). When an image load completes, the tile opens its work slots and becomes READY.
-/
def execTileLoadComplete (tile : Fin 96) (s : State) : Step' :=
  act s (fun s =>
    if s.tileState tile ≠ tsLOADING then s
    else match (s.tile tile).nextImage with
      | none => s
      | some n => match s.imageRec n with
        | none => s
        | some i =>
          let s := s.loadImage tile n i
          ((s.setTileState tile tsREADY).flag (fTILE_STATE_IMAGE tile)).joinBars (s.tileCtx tile) tile)

/-- The image a READY tile should change to, if any (R99): an older image that queued items need and no tile holds, for
the first tile without items; otherwise the target image, once no queued item could go to the tile. -/
def State.changeTo (s : State) (t : Nat) : Option Nat :=
  let c := s.tileCtx t
  let mine := (s.tile t).image
  let holds := fun i => (s.tilesOf c).any (fun u => (s.tile u).image == some i || (s.tile u).nextImage == some i)
  let orphan := s.work.queued.find? (fun w => w.ctx == c && !holds w.image)
  let idle := (s.readyTiles c).find? (fun u => (s.tile u).items.isEmpty)
  match orphan, idle == some t with
  | some w, true => if some w.image = mine then none else some w.image
  | _, _ => match s.targetImage c with
    | none => none
    | some i => if some i = mine ∨ (s.nextItem t).isSome then none else some i

/-- TILE_DRAIN_START (R99). A READY tile enters DRAINING for an image change once the changeover has passed
and no earlier item is queued for it. -/
def execTileDrainStart (tile : Fin 96) (s : State) : Step' :=
  act s (fun s =>
    if s.tileState tile ≠ tsREADY then s
    else match s.changeTo tile with
      | none => s
      | some i => (s.mapTile tile (fun r => { r with nextImage := some i, drainAt := s.dtime, drainFor := .image })).setTileState
        tile tsDRAINING)

/-- The end of a drain: unfinished items go back, the tile loads its next image or is scrubbed. -/
def State.endDrain (s : State) (t : Nat) : State :=
  let s := (s.dropTile t).unflag (fTILE_STATE_IMAGE t)
  let s := s.mapTile t (fun r => { r with image := none })
  match (s.tile t).drainFor with
  | .image => (s.mapTile t (fun r => { r with bars := [], vcache := [] })).setTileState t tsLOADING
  | _ => s.setTileState t tsSCRUB

/-- TILE_DRAIN_COMPLETE (R100). When all its items have returned, a draining tile moves to LOADING or SCRUB.
-/
def execTileDrainComplete (tile : Fin 96) (s : State) : Step' :=
  act s (fun s => if s.tileState tile = tsDRAINING ∧ (s.tile tile).items.isEmpty then s.endDrain tile else s)

/-- TILE_DRAIN_TIMEOUT (R100). After 1 ms of draining, the tile returns its unfinished items for redispatch
and moves on. -/
def execTileDrainTimeout (tile : Fin 96) (s : State) : Step' :=
  act s (fun s =>
    if s.tileState tile = tsDRAINING ∧ (s.tile tile).drainAt + 1000000 ≤ s.dtime then s.endDrain tile else s)

/-- TILE_SCRUB_COMPLETE (R100). When zeroisation ends, the tile becomes UNSEATED or, after a context reset,
SEATED. -/
def execTileScrubComplete (tile : Fin 96) (s : State) : Step' :=
  act s (fun s =>
    if s.tileState tile ≠ tsSCRUB then s
    else
      let toSeated := (s.tile tile).drainFor == .reset
      let s := (s.setTile tile { TileRec.off with duty := (s.tile tile).duty }).unflag (fTILE_STATE_IMAGE tile)
      if toSeated then s.setTileState tile tsSEATED
      else ((s.setTileState tile tsUNSEATED).unflag (fTILE_STATE_SEATED tile)).setFld (fTILE_STATE_CONTEXT tile) 0)

/-- A context reset of a seated tile (Table 3.9): lanes and engines stop at once, items go back, SCRUB towards SEATED
unless the tile is on its way to UNSEATED. -/
def State.resetTile (s : State) (t : Nat) : State :=
  if s.tileState t = tsFENCED ∨ s.tileState t = tsUNSEATED then s
  else
    let leaving := (s.tileState t == tsDRAINING || s.tileState t == tsSCRUB) && (s.tile t).drainFor == .unseat
    let s := (s.dropTile t).unflag (fTILE_STATE_IMAGE t)
    let dest := if leaving then DrainFor.unseat else DrainFor.reset
    (s.mapTile t (fun r => { r with image := none, nextImage := none, drainFor := dest })).setTileState t tsSCRUB

/-! ## Errors and fences -/

def execTileUncorrectedError (tile : Fin 96) (unit : Fin 256) (s : State) : Step' :=
  act s (fun s =>
    if !s.tilePresent tile then s
    else ((s.tileFault tile stTILE_UNCORRECTED).flag (fTILE_FAULT_UNCORRECTED tile)).fenceTile tile stTILE_UNCORRECTED unit)

/-- A request to fence a tile; a bit once set stays set. -/
def State.fenceReq (s : State) (tile : Nat) : State :=
  if !s.tilePresent tile ∨ s.fld (fTILE_CTRL_FENCE_REQ tile) = 1 then s
  else ((s.flag (fTILE_CTRL_FENCE_REQ tile)).tileFault tile stTILE_FENCE_REQUESTED).fenceTile tile stTILE_FENCE_REQUESTED 0xFF

/-- FENCE_REQ is W1S, writable only from PF0 (Table 3.15). -/
def execTileFenceReq (fn : Fin 64) (tile : Fin 96) (s : State) : Step' :=
  act s (fun s => if fn ≠ 0 ∨ !s.reaches fn ∨ s.mod.recovery then s else s.fenceReq tile)

/-- The VDC or the hub decompressor lost: it is fenced, the items of its calls go to other dispatches, and a context whose
image calls it faults. -/
def State.hubUnitLost (s : State) (vdc : Bool) : State :=
  let e := if vdc then 0x15 else 0x14
  let src := if vdc then 0x0012 else 0x000C
  let s := if vdc then (s.flag fVDC_STATUS_FENCED).flag fVDC_STATUS_UNCORRECTED
    else (s.flag fMED_DCMP_STATUS_FENCED).flag fMED_DCMP_STATUS_UNCORRECTED
  let s := s.used.raise src (BitVec.ofNat 16 (s.free 16)) 0 noCtx .f3
  let s := (List.range 96).foldl (fun s t =>
    let r := s.tile t
    let lanes := (r.calls.filter (fun c => c.engine == e)).map (·.lane)
    let ns := (r.slots.filter (fun q => lanes.any (fun l => bitOf q.2.taken l)))
    let ws := (ns.map (fun q => q.2.item)).filter (fun w => w.copy == 0)
    let s := s.mapTile t (fun r => (ns.map (·.1)).foldl TileRec.dropSlot
      { r with calls := r.calls.filter (fun c => c.engine != e) })
    { s with work := { s.work with queued := ws ++ s.work.queued } }) s
  (List.range 64).foldl (fun s c => match s.targetImage c with
    | none => s
    | some n => match s.imageRec n with
      | none => s
      | some i => if callsEngine i e then s.raise src stUNIT_ABSENT 0 c .f2 else s) s

/-- R127: the unit is fenced with F3, its calls do not complete and their items go back, and each context whose image
uses the unit takes F2 with UNIT_ABSENT. The spec names no status for the F3. -/
def execHubUnitUncorrected (vdc : Bool) (s : State) : Step' :=
  act s (fun s => if vdc && !s.hw.variant.hasVdc then s else s.hubUnitLost vdc)

/-! ## Dispatch and the load split (R92, R103 to R105) -/

/-- Tile clock in units of 100 MHz (R104). -/
def tileClock (profile : Nat) : Nat := if profile = 0 then 18 else if profile = 1 then 15 else 12

/-- COMPRESSED_ONLY of the slot's FLAGS. -/
def WorkItem.compressedOnly (w : WorkItem) : Bool := bitOf w.flags 1

def State.costOf (s : State) (w : WorkItem) : Nat :=
  match s.imageRec w.image with
  | some i => i.itemCost w.mediaType w.storedLen
  | none => 0

/-- Cycles of items dispatched to a context's tiles and not started. -/
def State.queuedCycles (s : State) (c : Nat) : Nat :=
  ((s.tilesOf c).map (fun t => (((s.tile t).slots.vals.filter (fun q => q.taken == 0 && !q.item.compressedOnly)).map
    (fun q => s.costOf q.item)).foldl (· + ·) 0)).foldl (· + ·) 0

def State.splitRec (s : State) (c : Nat) : SplitRec := Map.getD s.work.split c SplitRec.off

def State.setSplit (s : State) (c : Nat) (r : SplitRec) : State := { s with work := { s.work with split := Map.put s.work.split c r } }

/-- The decision of R104. -/
def State.splits (s : State) (w : WorkItem) : Bool :=
  let sp := s.splitRec w.ctx
  match (s.ctxData w.ctx).run, s.imageRec w.image with
  | some r, some i =>
    if w.compressedOnly || w.noSplit || !sp.enabled || r.cfg.splitMax ≤ sp.sent.length then false
    else if (i.split.getD w.mediaType 0) % 2 = 0 then false
    else
      let ready := (s.readyTiles w.ctx).length
      if ready = 0 then true
      else
        let f := tileClock s.clockProfile
        let backlog := s.queuedCycles w.ctx * 10 / (ready * f)
        let own := s.costOf w * 10 / f
        decide ((w.needBy : Int) - r.cfg.splitMargin < s.dtime + backlog + own)
  | _, _ => false

/-- Hands an item to the load split. -/
def State.sendSplit (s : State) (w : WorkItem) : State :=
  let sp := s.splitRec w.ctx
  ((s.unqueue w).setSplit w.ctx { sp with sent := sp.sent ++ [(w, s.dtime)] }).emit (.split w.ctx w.id w.storedLen)

/-- A chain that holds `len` bytes, of the smallest class whose one buffer holds them, or of class L.
(DESIGN CHOICE, log entry 29.) -/
def State.allocBytes (s : State) (ctx len agent : Nat) : Except Status (Nat × State) :=
  let cls := if len ≤ 0x1000 then 0 else if len ≤ 0x10000 then 1 else 2
  s.alloc ctx cls (max 1 (ceilDiv len (bufSize cls))) agent 0

/-- An item that an endpoint has finished. (DEDUCED, log entry 26.) -/
def State.splitReturned (s : State) (d : DoneItem) : State :=
  { s with work := { s.work with returned := s.work.returned ++ [d] } }

/-- SPLIT_RESULT (R105). A split result arrives and is accepted, or discarded and counted when late or failing
authentication. (DEDUCED, log entry 26.) -/
def execSplitResult (ctx : Fin 64) (item : Nat) (authentic : Bool) (out : Bytes) (verdict : Bool) (s : State) : Step' :=
  act s (fun s =>
    let sp := s.splitRec ctx
    match sp.sent.find? (fun e => e.1.id == item) with
    | none => s.setSplit ctx { sp with late := sp.late + 1 }
    | some (w, sentAt) =>
      let sp' := { sp with sent := sp.sent.filter (fun e => e.1.id != item) }
      if !authentic then
        let s := s.setSplit ctx { sp' with badAuth := sp'.badAuth + 1 }
        let s := { s with work := { s.work with queued := { w with noSplit := true } :: s.work.queued } }
        s.raise 0x0003 stSEC_BLOB_AUTH 0 ctx .f1
      else match s.allocBytes ctx out.length agHOST with
        | .error _ => s
        | .ok (h, s) =>
          let s := (s.writeHandle h 0 out).setSplit ctx sp'
          s.splitReturned { item := w, tile := 96, outHandle := h, outLen := out.length, verdict := if verdict then 1 else 0,
                            at_ := sentAt })

/-- SPLIT_TIMEOUT (R105). A split item without a result after SPLIT_TIMEOUT is dispatched to a tile.
(DEDUCED, log entry 26.) -/
def execSplitTimeout (ctx : Fin 64) (item : Nat) (s : State) : Step' :=
  act s (fun s =>
    let sp := s.splitRec ctx
    match sp.sent.find? (fun e => e.1.id == item), (s.ctxData ctx).run with
    | some (w, sentAt), some r =>
      if s.dtime < sentAt + r.cfg.splitTimeout then s
      else
        let s := s.setSplit ctx { sp with sent := sp.sent.filter (fun e => e.1.id != item) }
        { s with work := { s.work with queued := { w with noSplit := true } :: s.work.queued } }
    | _, _ => s)

/-! ## Shadow pairs -/

def execShadowPairStart (tile : Fin 96) (s : State) : Step' := act s (fun s => s.startPair tile)

/-- SHADOW_COMPARE (R390). When both copies of a shadow pair complete, the hub compares CRC-64, OUT_LEN and
VERDICT, and clears the tiles or starts a third copy. -/
def execShadowCompare (tile : Fin 96) (s : State) : Step' :=
  act s (fun s => match s.work.pairs.find? (fun p => p.tile == tile.val) with
    | some p => s.comparePair p
    | none => s)

/-- SHADOW_THIRD_COMPARE (R390). When the third copy completes, the hub votes and fences the outvoted tile,
raises SHADOW_TRANSIENT or raises SHADOW_DIVERGE. -/
def execShadowThirdCompare (tile : Fin 96) (s : State) : Step' :=
  act s (fun s => match s.work.pairs.find? (fun p => p.tile == tile.val) with
    | some p => s.compareThird p
    | none => s)

end Sys2Proof.Machine
end

