-- ==== Sys2Proof/Machine/PlanOps.lean ====
section
/-!
DEFINITION. Work plans (R62, R193): what is in effect at a step, epochs, the Dice jobs of a step, what a device keeps of
each position, and the work items it makes.
-/
namespace Sys2Proof.Machine

/-- The latest of (step, value) pairs at or before a step; of equal steps the later entry. -/
def inEffect {α : Type} (xs : List (Nat × α)) (step : Nat) : Option α :=
  ((xs.filter (fun e => e.1 ≤ step)).foldl (fun best e => match best with
    | none => some e
    | some b => if b.1 ≤ e.1 then some e else some b) none).map (·.2)

def CtxData.manifestAt (d : CtxData) (step : Nat) : Option ManifestRec := inEffect d.manifests step

/-- Epoch e + 1 after epoch e (R62). -/
def CtxData.nextEpoch (d : CtxData) (r : RunRec) (e : Epoch) : Option Epoch :=
  let u := e.start + e.steps r.cfg.pack.batch
  (d.manifestAt (r.cfg.firstStep + u)).map (fun m => { num := e.num + 1, start := u, count := m.total, k := throwExp m.total })

/-- Epochs up to run-relative step u. -/
def CtxData.epochsTo (d : CtxData) (r : RunRec) (u : Nat) : Nat → List Epoch → List Epoch
  | 0, es => es
  | fuel + 1, es => match es.getLast? with
    | none => match d.manifestAt r.cfg.firstStep with
      | none => []
      | some m => CtxData.epochsTo d r u fuel [{ num := 0, start := 0, count := m.total, k := throwExp m.total }]
    | some e =>
      if u < e.start + e.steps r.cfg.pack.batch ∨ e.steps r.cfg.pack.batch = 0 then es
      else match d.nextEpoch r e with
        | none => es
        | some e' => CtxData.epochsTo d r u fuel (es ++ [e'])

/-- Dice units that may take a new evaluation: neither fenced nor asked to be. -/
def State.diceUnits (s : State) : List Nat :=
  (List.range 4).filter (fun n => !bitOf (s.fld fDICE_STATUS_FENCED) n && !bitOf (s.fld fDICE_CTRL_FENCE_REQ) n)

/-- Gives an evaluation to a unit that the device picks. -/
def State.addJob (s : State) (j : DiceJob) : State :=
  match s.choose s.diceUnits with
  | some u => { s.used with dice := s.dice ++ [{ j with unit := u }] }
  | none => { s with dice := s.dice ++ [{ j with unit := 4 }] }

/-- The groups this device owns of a step, with their ordinals at each rank it carries (R194).
(UNVERIFIED, log entry 54.) -/
def RunRec.ownedGroups (r : RunRec) (t : Nat) : List GroupRec :=
  let u := t - r.cfg.firstStep
  (r.carries.map (fun rank =>
    (numbered (r.cfg.ownedPairs rank u)).map (fun e =>
      ({ step := t, consumer := e.2.1, grp := e.2.2, ordinal := e.1, indices := [], localIn := [], items := [],
         packed := false, failed := false, handles := [] } : GroupRec)))).flatten

/-- The work plan of a target step: its groups, and an evaluation for every position (R193, R68). -/
def State.planStep (s : State) (c t : Nat) : State :=
  let d := s.ctxData c
  match d.run with
  | none => s
  | some r =>
    let u := t - r.cfg.firstStep
    let es := d.epochsTo r u (u + 2) r.epochs
    let s := s.mapRun c (fun r => { r with epochs := es, groups := r.groups ++ r.ownedGroups t, nextPlan := t + 1 })
    match epochOf es u with
    | none => s
    | some e =>
      let b := r.cfg.pack.batch
      (List.range b).foldl (fun s i => s.addJob
        { ctx := c, step := t, place := i, epoch := e.num, k := e.k, count := e.count, x := (u - e.start) * b + i, unit := 0 }) s

/-! ## What a device keeps of a position (R193) -/

def PackCfg.grpOf (p : PackCfg) (i : Nat) : Nat := p.rowOf i / p.group
def PackCfg.gposOf (p : PackCfg) (i : Nat) : Nat := p.rowOf i % p.group * p.q + i % p.q

/-- The row owner of position i of a step. -/
def RunCfg.ownerOf (r : RunCfg) (t i : Nat) : Nat := r.owner (r.pack.consumerOf i) (t - r.firstStep) (r.pack.grpOf i)

/-- Throw has given position i of step t the global index g. -/
def State.indexKnown (s : State) (c t i g : Nat) : State :=
  let d := s.ctxData c
  match d.run, d.manifestAt t with
  | some r, some m =>
    let p := r.cfg.pack
    let held := r.carries.contains (m.sampleHolder g)
    let mine := fun (x : GroupRec) => x.step == t && x.consumer == p.consumerOf i && x.grp == p.grpOf i
    s.mapRun c (fun r => { r with
      fetches := if held then r.fetches ++ [{ step := t, place := i, index := g }] else r.fetches
      groups := r.groups.map (fun x => if mine x then { x with indices := Map.put x.indices (p.gposOf i) g } else x) })
  | _, _ => s

/-! ## Work items -/

/-- The epoch number of a step. -/
def RunRec.epochAt (r : RunRec) (t : Nat) : Nat := ((epochOf r.epochs (t - r.cfg.firstStep)).map (·.num)).getD 0

/-- A work item for a record of global index g whose payload and seek table stand in a chain (Table 3.6, R187, R203). -/
def State.itemFor (s : State) (c t i g h : Nat) (header : Bytes) (ownerSite compressed : Bool) : Option WorkItem :=
  let d := s.ctxData c
  match d.run, d.seed, d.imageFor t, d.manifestAt t with
  | some r, some seed, some img, some m =>
    let key := augKey seed (r.epochAt t)
    let n := ((s.imageRec img).map (·.paramCount)).getD 0
    let so := fieldAt header 20 4
    some {
      id := s.work.nextItem, ctx := c, step := t, place := i, index := g, image := img, inHandle := h,
      storedLen := fieldAt header 8 4, plainLen := fieldAt header 12 4, codec := fieldAt header 16 1,
      mediaType := fieldAt header 17 1, dataset := ((m.datasetOf g).map (·.id)).getD 0,
      flags := (if bitOf (fieldAt header 18 2) 0 then 1 else 0) + (if compressed then 2 else 0),
      seekOffset := so - 32, params := (List.range n).map (augWord key g), mixWord := augWord key g 0x10000,
      needBy := (s.startOf t).getD 0 - r.cfg.pack.reserve, copy := 0, noSplit := false, header := header,
      ownerSite := ownerSite }
  | _, _, _, _ => none

/-- Queues a work item. -/
def State.queueItem (s : State) (w : WorkItem) : State :=
  { s with work := { s.work with queued := s.work.queued ++ [w], nextItem := s.work.nextItem + 1 } }

/-- The prepare-site of the image in effect at a step (R196). -/
def State.ownerSite (s : State) (c t : Nat) : Bool :=
  match (s.ctxData c).imageFor t with
  | some i => ((s.imageRec i).map (·.ownerSite)).getD false
  | none => false

end Sys2Proof.Machine
end

