-- ==== Sys2Proof/Machine/LogOps.lean ====
section
/-!
DEFINITION. Derived keys (Table 16.2) and the Logbook (R340 to R346): records, frames, space, the set of a step, and when a
step's work may be planned.
-/
namespace Sys2Proof.Machine

/-! ## Keys (Table 16.2) -/

def State.rootKey (s : State) (c : Nat) : Option Bytes := Map.find s.sec.roots c

def kDataset (trk : Bytes) (dataset gen : Nat) : Bytes :=
  kmac256 trk (toLE 1 dataset ++ toLE 4 gen) 512 (ascii "Onafold Dataset v1")
def kObject (trk : Bytes) (space object : Nat) : Bytes :=
  kmac256 trk (toLE 1 space ++ toLE 8 object) 512 (ascii "Onafold Object v1")
def kLog (trk : Bytes) : Bytes := kmac256 trk [] 256 (ascii "Onafold Logbook Key v1")
def kBlob (trk : Bytes) (serial : Nat) : Bytes := kmac256 trk (toLE 8 serial) 256 (ascii "Onafold Blob v1")
def kReport (trk : Bytes) (serial : Nat) : Bytes := kmac256 trk (toLE 8 serial) 256 (ascii "Onafold Report v1")
def kRun (trk : Bytes) (runId : Nat) : Bytes := kmac256 (kLog trk) (toLE 8 runId) 256 (ascii "Onafold Logbook v1")

/-! ## Records and frames (Tables 14.3 and 14.5) -/

/-- Header and body of a record. -/
def recordBytes (seq runId : Nat) (prev : Bytes) (r : LogRec) : Bytes :=
  toLE 4 0x424C464F ++ toLE 2 1 ++ toLE 1 r.kind ++ zeros 1 ++ toLE 8 seq ++ toLE 8 r.eff ++ toLE 8 r.key ++ toLE 8 runId
    ++ toLE 4 r.body.length ++ zeros 4 ++ prev ++ zeros 32 ++ r.body

/-- The stored frame of a record (R343). -/
def logFrame (key : Bytes) (runId seq : Nat) (rec : Bytes) : Bytes :=
  let h := toLE 4 0x464C464F ++ toLE 2 1 ++ zeros 2 ++ toLE 8 runId ++ toLE 8 seq ++ toLE 4 rec.length ++ zeros 4
  let (ct, tag) := gcmSeal key (toLE 8 seq ++ zeros 4) h rec
  h ++ ct ++ tag

def Logbook.new (runId : Nat) : Logbook := { runId := runId, frames := [], lastDigest := zeros 48 }

def Logbook.used (l : Logbook) : Nat := (l.frames.map List.length).foldl (· + ·) 0

/-- Bytes of a frame of a body. -/
def frameSize (body : Nat) : Nat := 32 + 128 + body + 16

/-- Space of a run's region (R344): 64 MiB. -/
def logRegion : Nat := 64 * 2 ^ 20

/-- Appends a record to the Logbook of a context's seated run. -/
def State.writeRec (s : State) (c : Nat) (rec : LogRec) : State :=
  let d := s.ctxData c
  match d.run, s.rootKey c with
  | some r, some trk =>
    let l := Map.getD d.logs r.cfg.runId (Logbook.new r.cfg.runId)
    let seq := l.frames.length
    let b := recordBytes seq r.cfg.runId l.lastDigest rec
    let l := { l with frames := l.frames ++ [logFrame (kRun trk r.cfg.runId) r.cfg.runId seq b], lastDigest := sha384 b }
    s.setData c { d with logs := Map.put d.logs r.cfg.runId l }
  | _, _ => s

/-- Whether the run's Logbook has room for the records waiting and one more body (R342); true without a run. -/
def CtxData.logRoom (d : CtxData) (body : Nat) : Bool :=
  match d.run with
  | none => true
  | some r =>
    let l := Map.getD d.logs r.cfg.runId (Logbook.new r.cfg.runId)
    let waiting := (d.logSet.map (fun x => frameSize x.body.length)).foldl (· + ·) 0
    l.used + waiting + frameSize body ≤ logRegion

/-! ## Bodies (Tables 14.2 and 14.4) -/

def manifestBody (m : ManifestRec) : Bytes := toLE 4 m.version ++ zeros 4 ++ toLE 8 m.total ++ m.digest

/-- U_e as a run-relative step (Table 14.2 says U_e). (DEDUCED, log entry 57.) -/
def epochRecord (firstStep : Nat) (e : Epoch) : LogRec :=
  { kind := 7, eff := firstStep + e.start, key := e.num,
    body := toLE 8 e.num ++ toLE 8 e.start ++ toLE 8 e.count ++ toLE 1 e.k ++ zeros 7 }

/-- Pack settings bytes 0 to 31 with bytes 12, 22 and 23 set to 0 (item 6). -/
def packContent (raw : Bytes) : Bytes := putAt (putAt (raw.take 32) 12 [0#8]) 22 [0#8, 0#8]

/-- RUN_START body (Table 14.4). -/
def runStartBody (cfg : RunCfg) (replayOf : Nat) (image manifest : Bytes) (manVersion level clock : Nat) (seed : Bytes) :
    Bytes :=
  toLE 8 cfg.firstStep ++ toLE 8 replayOf ++ toLE 8 cfg.replayFrom ++ image ++ manifest ++ toLE 4 manVersion ++ toLE 2 level
    ++ toLE 1 clock ++ toLE 1 cfg.power ++ seedCheck seed ++ toLE 2 cfg.ranks.length ++ zeros 6
    ++ sha384 ((cfg.ranks.map (toLE 2)).flatten) ++ packContent cfg.pack.raw ++ zeros 24

/-! ## The set of a step (R341) -/

/-- Ascending (KIND, KEY). -/
def recBefore (a b : LogRec) : Bool := a.kind < b.kind || (a.kind == b.kind && a.key ≤ b.key)

def insertRec (r : LogRec) : List LogRec → List LogRec
  | [] => [r]
  | x :: xs => if recBefore r x then r :: x :: xs else x :: insertRec r xs

def sortRecs (xs : List LogRec) : List LogRec := xs.foldr insertRec []

/-- The records of the set for E: accepted inputs and, at an epoch's first step, its EPOCH record. Inputs for steps before
the run's first stand in the set of that step. (DEDUCED, log entry 57.) -/
def CtxData.setFor (d : CtxData) (r : RunRec) (e : Nat) : List LogRec :=
  let first := r.cfg.firstStep
  let inputs := d.logSet.filter (fun x => x.eff == e || (e == first && x.eff < e))
  let u := e - first
  let ep := match epochOf (d.epochsTo r u (u + 2) r.epochs) u with
    | some x => if x.start = u then [epochRecord first x] else []
    | none => []
  sortRecs (inputs.map (fun x => { x with eff := e }) ++ ep)

/-- The set for E is complete: its cutoff has passed and no mixing record for it waits for its fixed outcome.
(DEDUCED, log entry 57.) -/
def State.setComplete (s : State) (d : CtxData) (r : RunRec) (e : Nat) : Bool :=
  e ≤ s.fld fSTEP_LAST_STEP + r.cfg.pack.lead + 1
    && !(d.mixing.any (fun m => m.step == e && m.record.isSome))

/-- Writes the set for the run's next step, when it is complete. -/
def State.writeSet (s : State) (c : Nat) : State :=
  let d := s.ctxData c
  match d.run with
  | none => s
  | some r =>
    let e := r.nextSet
    if !s.setComplete d r e then s
    else
      let recs := d.setFor r e
      let s := s.setData c { d with logSet := d.logSet.filter (fun x => e < x.eff) }
      (recs.foldl (fun s x => s.writeRec c x) s).mapRun c (fun r => { r with nextSet := e + 1 })

/-! ## Planning (R341, R401, TXN_APPLY) -/

/-- Whether a transaction of a context still has content items to apply at or before a step. -/
def State.contentDue (s : State) (c e : Nat) : Bool :=
  (Map.getD s.host.txns c []).any (fun t => t.state == .fixed && t.eff ≤ e && t.eff != 0 && t.items.any (fun i => match i with
    | .placed _ => true | .table _ => true | _ => false))

/-- Plans every step whose changeover has passed, whose set is written and whose content is applied. A set without records
needs no write. -/
def State.planReady (s : State) (c : Nat) : Nat → State
  | 0 => s
  | fuel + 1 =>
    let d := s.ctxData c
    match d.run with
    | none => s
    | some r =>
      let t := r.nextPlan
      if r.aborted.isSome || s.fld fSTEP_LAST_STEP + r.cfg.pack.lead < t || !s.predicts then s
      else
        let s := if r.nextSet = t ∧ s.setComplete d r t ∧ (d.setFor r t).isEmpty then s.writeSet c else s
        let written := match s.runOf c with | some r => t < r.nextSet | none => false
        if !written || s.contentDue c t then s else State.planReady (s.planStep c t) c fuel

/-- LOGBOOK_SET_WRITE (R341). When the set for E is complete, the device writes its records sorted by KIND and
KEY, durable before work for E is planned. -/
def execLogbookSetWrite (ctx : Fin 64) (s : State) : Step' :=
  act s (fun s => (s.writeSet ctx).planReady ctx 16)

end Sys2Proof.Machine
end

