-- ==== Sys2Proof/Machine/HostOps.lean ====
section
/-!
DEFINITION. Operations of the host interface (spec/19): requests and completions (R431 to R433), interrupts (R355, R356),
context events (R434), and what the device seals for a tenant (R379); states of a context (Table 15.1).
-/
namespace Sys2Proof.Machine

/-! ## Context states (Table 15.1) -/

def csFREE : Nat := 0
def csDEFINED : Nat := 1
def csACTIVE : Nat := 2
def csSTOPPED : Nat := 3
def csRESETTING : Nat := 4
def csFENCED : Nat := 5
def csDETACHED : Nat := 6
def csTEARDOWN : Nat := 7

def State.ctxState (s : State) (c : Nat) : Nat := s.fld (fCTX_INFO_STATE c)
def State.setCtxState (s : State) (c v : Nat) : State := s.setFld (fCTX_INFO_STATE c) v

/-- The context holds a root key. -/
def State.keysHeld (s : State) (c : Nat) : Bool := (s.rootKey c).isSome

/-! ## Interrupts (R355, R356) -/

/-- Masked at start, as PCIe resets a vector's mask (log entry 61). (PRESUMED, log entry 61.) -/
def Msix.reset : Msix := { masked := 2 ^ 32 - 1, pendingBits := 0, held := 0 }

def State.msixOf (s : State) (c : Nat) : Msix := Map.getD s.host.msix c Msix.reset
def State.setMsix (s : State) (c : Nat) (m : Msix) : State := { s with host := { s.host with msix := Map.put s.host.msix c m } }

/-- An interrupt source of a context signals a vector; at or above the share's VECTORS it goes to vector 0. -/
def State.signal (s : State) (c v : Nat) : State :=
  let v := if v < s.shareVectors c then v else 0
  let m := s.msixOf c
  if s.shareVectors c = 0 then s
  else if bitOf m.masked v then s.setMsix c { m with pendingBits := m.pendingBits ||| 2 ^ v }
  else if c = 0 then s.emit (.msix 0 v)
  else s.setMsix c { m with held := m.held ||| 2 ^ v }

/-- An instant at which a context's completions and messages may leave: any time for CTX0, else a multiple of its quantum. -/
def State.atQuantum (s : State) (c : Nat) : Bool := c == 0 || s.dtime % (s.quantum c * 1000) == 0

/-- Posts a context event (R434) and signals vector 0 (R355). -/
def State.ctxEvent (s : State) (c : Nat) (st : Status) (event ring : Nat) : State :=
  (s.postEvent c 3 (toLE 2 st.toNat ++ toLE 1 event ++ toLE 1 ring ++ zeros 4 ++ toLE 8 (s.reg aSTEP_LAST) ++ zeros 16)).signal c 0

/-! ## Requests -/

def State.finish (s : State) (r : HostReq) (st : Status) (r0 r1 : Nat) : State :=
  let e : Completion := {
    ctx := r.ctx, cq := s.fld (fRING_CFG_CQ r.ctx r.sq), tag := r.tag, status := st, sq := r.sq, sqHead := r.sqHead,
    result0 := r0, result1 := r1 }
  { s with host := { s.host with done := s.host.done ++ [e] } }

/-- Completes a request whose chapter states no result: the two results are free (log entry 4). -/
def State.answer (s : State) (r : HostReq) (st : Status) : State := s.used.finish r st (s.free 64) (s.free 32)

/-- The next examined request of an SQ (they start in order, R431), when it is of this opcode.
(DESIGN CHOICE, log entry 3.) (DEDUCED, log entry 17.) -/
def State.onReq (s : State) (c sq op : Nat) (body : State → HostReq → State) : State :=
  match s.host.started.find? (fun r => r.ctx == c && r.sq == sq) with
  | some r => if r.opcode = op then body { s with host := { s.host with started := s.host.started.erase r } } r else s
  | none => s

/-- A request whose effect either is refused with a status or gives a state and its two results. -/
def State.settle (s : State) (r : HostReq) (x : Except Status (Nat × Nat × State)) : State :=
  match x with
  | .error st => s.answer r st
  | .ok (a, b, t) => t.finish r stOK a b

def State.await (s : State) (r : HostReq) (w : WaitFor) : State :=
  { s with host := { s.host with waiting := s.host.waiting ++ [(w, r)] } }

/-- Completes the requests that wait for something. -/
def State.wake (s : State) (w : WaitFor) (st : Status) : State :=
  let rs := s.host.waiting.filter (fun e => e.1 == w)
  let s := { s with host := { s.host with waiting := s.host.waiting.filter (fun e => e.1 != w) } }
  rs.foldl (fun s e => s.answer e.2 st) s

/-- Ends every submission of a context with CTX_RESET (Table 15.1). -/
def State.endRequests (s : State) (c : Nat) : State :=
  let rs := s.host.started.filter (fun r => r.ctx == c) ++ (s.host.waiting.filter (fun e => e.2.ctx == c)).map (·.2)
  let s := { s with host := { s.host with
    started := s.host.started.filter (fun r => r.ctx != c)
    waiting := s.host.waiting.filter (fun e => e.2.ctx != c) } }
  rs.foldl (fun s r => s.answer r stCTX_RESET) s

/-- Writes bytes to a request's buffer. -/
def State.writeBuf (s : State) (r : HostReq) (d : Bytes) : State := s.emit (.hostWrite r.ctx r.addr d)

/-! ## Sealed output (R379) -/

/-- Seals bytes for a context's tenant: counter, ciphertext, tag. -/
def State.sealOut (s : State) (c : Nat) (plain : Bytes) : Option (Nat × Bytes × Bytes × State) :=
  (s.rootKey c).map (fun k =>
    let n := Map.getD s.sec.outCtr c 0
    let (ct, tag) := gcmSeal (kReport k s.hw.serial) (toLE 8 n ++ toLE 4 0x80000000) [] plain
    (n, ct, tag, { s with sec := { s.sec with outCtr := Map.put s.sec.outCtr c (n + 1) } }))

/-- The sealed form of a buffer: counter, ciphertext, tag (log entry 62).
(DEDUCED, log entry 62.) -/
def sealedBytes (n : Nat) (ct tag : Bytes) : Bytes := toLE 8 n ++ ct ++ tag

/-! ## Registers of CTX0's transactions -/

def State.txnsOf (s : State) (c : Nat) : List Txn := Map.getD s.host.txns c []

/-- Shows CTX0's transactions in CFG_STATUS. -/
def State.showTxns (s : State) : State :=
  let ts := s.txnsOf 0
  let isOpen := ts.find? (fun t => t.state == .open_)
  ((s.setFld fCFG_STATUS_OPEN (if isOpen.isSome then 1 else 0)).setFld fCFG_STATUS_MARKED
    (if (isOpen.map (·.marked)).getD false then 1 else 0)).setFld fCFG_STATUS_PENDING
    (ts.filter (fun t => t.state != .open_)).length

def State.setTxns (s : State) (c : Nat) (ts : List Txn) : State :=
  let s := { s with host := { s.host with txns := Map.put s.host.txns c ts } }
  if c = 0 then s.showTxns else s

end Sys2Proof.Machine
end

