-- ==== Sys2Proof/Machine/LanternOps.lean ====
section
/-!
DEFINITION. Operations of Lantern (R399 to R419): sending control messages, roles, leg aborts, and the journal.
-/
namespace Sys2Proof.Machine

/-! Message kinds of Table 18.2. -/
def lkHEARTBEAT : Nat := 1
def lkLOSS_REPORT : Nat := 2
def lkVIEW_PROPOSE : Nat := 3
def lkVIEW_ACK : Nat := 4
def lkVIEW_COMMIT : Nat := 5
def lkLEG_ABORT : Nat := 6
def lkABORT_DONE : Nat := 7
def lkSTEP_REPORT : Nat := 8
def lkSTEP_COMMIT : Nat := 9
def lkRESTART : Nat := 10
def lkMIX_DIST : Nat := 11
def lkMIX_ACK : Nat := 12
def lkSEAL : Nat := 13
def lkJOURNAL_COPY : Nat := 14
def lkJOURNAL_ACK : Nat := 15
def lkDEVICE_LOST : Nat := 16
def lkACK : Nat := 17
def lkMIX_OUTCOME : Nat := 18

def State.setLan (s : State) (l : LanternState) : State := { s with lan := l }

/-- This device's name in messages: NET_LAN_STATUS.POSITION. (DEDUCED, log entry 95.) -/
def State.self (s : State) : Nat := s.fld fNET_LAN_STATUS_POSITION
def podOf (p : Nat) : Nat := p / 32
def State.ownPod (s : State) : Nat := podOf s.self

/-! ## Roles (R405) -/

def View.active (v : View) (pod : Nat) : Option Nat := (Map.find v.keepers pod).map (·.1)
def View.standby (v : View) (pod : Nat) : Option Nat := (Map.find v.keepers pod).map (·.2)
def View.isKeeper (v : View) (p : Nat) : Bool := v.active (podOf p) == some p || v.standby (podOf p) == some p

/-- The active keeper of the lowest-numbered pod. -/
def View.coordinator (v : View) : Option Nat := v.keepers.head?.map (·.2.1)

/-- Live positions of a pod. -/
def View.members (v : View) (pod : Nat) : List Nat := v.live.filter (fun p => podOf p == pod)

def State.isActive (s : State) : Bool := s.lan.view.active s.ownPod == some s.self
def State.isStandby (s : State) : Bool := s.lan.view.standby s.ownPod == some s.self
def State.isCoord (s : State) : Bool := s.fld fNET_LAN_STATUS_COORDINATOR == 1

/-- Shows roles and view in NET_LAN_STATUS. -/
def State.showRole (s : State) : State :=
  let s := s.setFld fNET_LAN_STATUS_VIEW s.lan.view.num
  let s := s.setFld fNET_LAN_STATUS_ROLE (if s.isActive then 2 else if s.isStandby then 1 else 0)
  s.setFld fNET_LAN_STATUS_COORDINATOR (if s.lan.view.coordinator = some s.self then 1 else 0)

/-! ## Sending -/

/-- A control message with this device's header fields. -/
def State.message (s : State) (kind ctx a0 a1 a2 : Nat) (body : Bytes) : LanMsg :=
  { kind := kind, ctx := ctx, sender := s.self, nonce := s.lan.nonce, view := s.lan.view.num, seq := s.lan.seq, arg0 := a0,
    arg1 := a1, arg2 := a2, body := body }

/-- A TC0 frame on a port that the device picks. -/
def State.sendTc0 (s : State) (bytes : Nat) (body : Pkt) : State :=
  let f : EgFrame := { port := s.free 64 % s.hw.variant.ports, sub := 0, cls := 0, ctx := 0, qp := none,
                       bytes := wireBytes bytes, at_ := s.dtime, body := body }
  s.used.enqueue [f]

def State.transmit (s : State) (dest : Nat) (m : LanMsg) : State := s.sendTc0 (64 + m.body.length) (.lantern dest m)

def State.nextSeq (s : State) : State := s.setLan { s.lan with seq := s.lan.seq + 1 }

def State.sendLan (s : State) (dest kind ctx a0 a1 a2 : Nat) (body : Bytes) : State :=
  (s.transmit dest (s.message kind ctx a0 a1 a2 body)).nextSeq

/-- Sends the same message to several positions other than this one. -/
def State.sendAll (s : State) (dests : List Nat) (kind ctx a0 a1 a2 : Nat) (body : Bytes) : State :=
  (dests.filter (· != s.self)).foldl (fun s d => s.sendLan d kind ctx a0 a1 a2 body) s

def State.resolve (s : State) (d : LanDest) : Option Nat :=
  match d with
  | .pos p => some p
  | .keeper => s.lan.view.active s.ownPod

/-- Sends a message that is resent until its ACK (R418). -/
def State.sendReliable (s : State) (d : LanDest) (kind ctx a0 a1 a2 : Nat) (body : Bytes) : State :=
  let m := s.message kind ctx a0 a1 a2 body
  let s := s.setLan { s.lan with outbox := s.lan.outbox ++ [{ dest := d, msg := m, sentAt := s.dtime }] }
  (match s.resolve d with
    | some p => s.transmit p m
    | none => s).nextSeq

/-- Both keepers of this device's pod. -/
def State.ownKeepers (s : State) : List Nat :=
  match Map.find s.lan.view.keepers s.ownPod with
  | some (a, b) => [a, b]
  | none => []

def State.entry (s : State) (c : Nat) : Option JEntry := Map.find s.lan.journal c

def State.setEntry (s : State) (c : Nat) (f : JEntry → JEntry) : State :=
  s.setLan { s.lan with journal := Map.adjust s.lan.journal c f, dirty := true }

/-- What a message changes in the journal. -/
def JEntry.take (e : JEntry) (m : LanMsg) : JEntry :=
  let b := 2 ^ (m.sender % 32)
  if m.kind = lkABORT_DONE then { e with abortMask := e.abortMask ||| b }
  else if m.kind = lkSTEP_REPORT then
    { e with reported := Map.put e.reported (m.arg1 % 9) (Map.getD e.reported (m.arg1 % 9) 0 ||| b) }
  else if m.kind = lkSTEP_COMMIT then
    { e with committed := max e.committed m.arg1, reported := Map.put e.reported (m.arg1 % 9) 0 }
  else if m.kind = lkSEAL then { e with sealedGen := m.arg0 }
  else e

/-- A message the journal already holds. -/
def JEntry.holds (e : JEntry) (m : LanMsg) : Bool :=
  if m.kind = lkABORT_DONE then bitOf e.abortMask (m.sender % 32)
  else if m.kind = lkSTEP_REPORT then m.arg1 ≤ e.committed || bitOf (Map.getD e.reported (m.arg1 % 9) 0) (m.sender % 32)
  else if m.kind = lkSTEP_COMMIT then m.arg1 ≤ e.committed
  else if m.kind = lkSEAL then e.sealedGen == m.arg0
  else false

/-- Holds a message to this device's own active keeper role (R418), or sends it to the active keeper. -/
def State.toKeeper (s : State) (kind ctx a0 a1 a2 : Nat) : State :=
  if s.isActive then
    let m := s.message kind ctx a0 a1 a2 []
    let s := s.setEntry ctx (fun e => e.take m)
    (s.setLan { s.lan with held := s.lan.held ++ [{ msg := m, image := none }], dirty := true }).nextSeq
  else s.sendReliable .keeper kind ctx a0 a1 a2 []

/-! ## Runs of a context -/

/-- The device that carries a rank (R414), and the devices of a run. -/
def RunRec.carrier (r : RunRec) (rank : Nat) : Nat := Map.getD r.carriers rank rank
def RunRec.devices (r : RunRec) : List Nat := (r.cfg.ranks.map r.carrier).eraseDups

def State.runWithId (s : State) (c id : Nat) : Option RunRec :=
  match s.runOf c with
  | some r => if r.cfg.runId = id then some r else none
  | none => none

/-! ## Leg abort (R409, R410) -/

/-- Discards a run's uncommitted work on this device (R410, items 2 to 4). -/
def State.discardLeg (s : State) (c : Nat) : State :=
  let s := { s with dice := s.dice.filter (fun j => j.ctx != c) }
  let s := { s with work := { s.work with
    queued := s.work.queued.filter (fun w => w.ctx != c)
    returned := s.work.returned.filter (fun d => d.item.ctx != c)
    pairs := s.work.pairs.filter (fun p => p.ctx != c)
    split := Map.adjust s.work.split c (fun p => { p with sent := [] }) } }
  let s := (s.tilesOf c).foldl (fun s t => s.mapTile t (fun r => { r with
    slots := []
    uncleared := []
    latest := none
    held := r.held.filter (fun h => match h with | .item .. => false | .done .. => true) })) s
  let s := { s with net := { s.net with egress := s.net.egress.filter (fun f => f.ctx != c || (f.cls != 1 && f.cls != 2)) } }
  let mine := (s.net.qps.filter (fun e => e.2.ctx == c && e.2.kind != .client)).map (·.1)
  let s := mine.foldl (fun s i => s.qpError i stNET_FLUSHED true) s
  let s := { s with net := { s.net with finished := s.net.finished.filter (fun e => match e.1 with
    | .exchange x .. => x != c | .rowPart x .. => x != c | .credit x _ => x != c | .fragment x .. => x != c | _ => true) } }
  let s := s.freeWhere c (fun ch => ch.owner != agTILE && ch.owner != agHOST && ch.owner != agLEDGER)
  match s.runOf c with
  | none => s
  | some r =>
    let pegs := (List.range ((r.cfg.pack.lead + 1) * r.cfg.gMax)).map (r.cfg.pegBase + ·)
    let s := pegs.foldl (fun s v => s.setPeg c v 0) s
    s.mapRun c (fun r => { r with
      fetches := []
      groups := []
      rows := []
      credits := []
      landing := [] })

/-- Acts on a leg abort once for each RESTARTS value; a later abort of the same value may lower the aborted step. -/
def State.doAbort (s : State) (c step : Nat) : State :=
  match s.runOf c with
  | none => s
  | some r => match r.aborted with
    | some a => if step < a then s.mapRun c (fun r => { r with aborted := some step }) else s
    | none =>
      let s := (s.mapRun c (fun r => { r with aborted := some step, abortAt := s.dtime })).discardLeg c
      let s := (s.bump fNET_LAN_LOST_COUNT_ABORTS 1).raise srcROCE stLEG_ABORTED 0 c .f0
      let s := s.setLan { s.lan with journal := Map.adjust s.lan.journal c (fun j => { j with state := .aborting }), dirty := true }
      s.toKeeper lkABORT_DONE c r.cfg.runId r.restarts 0

/-- The device where a trigger arises: LEG_ABORT to every device of the run and to its own keepers.
(DESIGN CHOICE, log entry 48.) -/
def State.legAbort (s : State) (c : Nat) (st : Status) : State :=
  match s.runOf c with
  | none => s
  | some r =>
    if r.aborted.isSome then s
    else
      let dests := (r.devices ++ s.ownKeepers).eraseDups
      (s.sendAll dests lkLEG_ABORT c r.cfg.runId r.nextCommit st.toNat []).doAbort c r.nextCommit

/-! ## The journal (Table 18.4) -/

def JState.code : JState → Nat
  | .running => 1 | .aborting => 2 | .restarting => 3

def JEntry.bytes (e : JEntry) (ctx : Nat) : Bytes :=
  toLE 1 ctx ++ toLE 1 e.state.code ++ zeros 2 ++ toLE 4 e.restarts ++ toLE 8 e.runId ++ toLE 8 e.committed
    ++ toLE 8 e.restartStep ++ toLE 4 e.sealedGen ++ toLE 4 e.abortMask
    ++ ((List.range 9).map (fun i => toLE 4 (Map.getD e.reported i 0))).flatten ++ toLE 8 e.mixSeq
    ++ toLE 2 e.mixStatus.toNat ++ zeros 42

/-- The journal image of an active keeper. -/
def State.journalImage (s : State) (seq : Nat) : Bytes :=
  let j := s.lan.journal
  let es := (j.map (fun e => e.2.bytes e.1)).flatten
  let h := toLE 4 0x4A4B464F ++ toLE 2 1 ++ toLE 1 s.ownPod ++ toLE 1 j.length ++ toLE 8 seq ++ toLE 4 s.lan.view.num ++ zeros 28
  h ++ toLE 8 (crc64 (h ++ es)) ++ zeros 8 ++ es

/-- The entries of an image. -/
def readJournal (b : Bytes) : Map JEntry :=
  (List.range (fieldAt b 7 1)).foldl (fun m i =>
    let e := slice b (64 + 128 * i) 128
    Map.put m (fieldAt e 0 1) {
      state := if fieldAt e 1 1 = 2 then .aborting else if fieldAt e 1 1 = 3 then .restarting else .running
      restarts := fieldAt e 4 4
      runId := fieldAt e 8 8
      committed := fieldAt e 16 8
      restartStep := fieldAt e 24 8
      sealedGen := fieldAt e 32 4
      abortMask := fieldAt e 36 4
      reported := (List.range 9).map (fun k => (k, fieldAt e (40 + 4 * k) 4))
      mixSeq := fieldAt e 76 8
      mixStatus := BitVec.ofNat 16 (fieldAt e 84 2) }) []

/-- MAGIC, JOURNAL_SEQ and IMAGE_CRC of an image (R417). -/
def journalOk (b : Bytes) (seq : Nat) : Bool :=
  let n := fieldAt b 7 1
  fieldAt b 0 4 == 0x4A4B464F && fieldAt b 8 8 == seq && fieldAt b 48 8 == crc64 (b.take 48 ++ slice b 64 (128 * n))

def JEntry.new (runId first restarts : Nat) : JEntry :=
  { state := .running, restarts := restarts, runId := runId, committed := first - 1, restartStep := first, sealedGen := 0,
    abortMask := 0, reported := [], mixSeq := 0, mixStatus := stOK }

end Sys2Proof.Machine
end

