-- ==== Sys2Proof/Machine/MediaOps.lean ====
section
/-!
DEFINITION. Operations of the media controller (R283 to R310): geometry, the SLC region, superblocks, lost data, deferred
errors, the write buffer, flushes, resume records, and the erasure code of R54.
-/
namespace Sys2Proof.Machine

/-- Source IDs (Table 17.1). -/
def srcLEDGER : Nat := 0x000A
def srcMEDIA : Nat := 0x000B

/-! States of MED_STATUS.STATE (Table 12.10). -/
def msOFF : Nat := 0
def msSTARTING : Nat := 1
def msREADY : Nat := 2
def msDEGRADED : Nat := 3
def msREAD_ONLY : Nat := 4
def msFENCED : Nat := 5

def State.setMedia (s : State) (m : MediaState) : State := { s with media := m }

def State.mediaSt (s : State) : Nat := s.fld fMED_STATUS_STATE

/-- Media serve reads (READY, DEGRADED, READ_ONLY), and writes (READY, DEGRADED). -/
def State.mediaServes (s : State) : Bool := s.mediaSt == msREADY || s.mediaSt == msDEGRADED || s.mediaSt == msREAD_ONLY
def State.mediaWrites (s : State) : Bool := s.mediaSt == msREADY || s.mediaSt == msDEGRADED

/-- Media power state (Table 11.7); a media operation runs in MPS0. -/
def State.mps (s : State) : Nat := s.fld fLDG_STATUS_MPS
def State.mediaUp (s : State) : Bool := s.mps == 0

def State.touchMedia (s : State) : State := s.setMedia { s.media with lastOp := s.dtime }

def State.fenceMedia (s : State) : State := s.setFld fMED_STATUS_STATE msFENCED

/-! ## Geometry (R280, R283, R285) -/

def State.diesPerChannel (s : State) : Nat := s.fld fMED_CAP_DIES_PER_CHANNEL

/-- The die group of a die. -/
def State.groupOf (s : State) (ch die : Nat) : Nat :=
  let n := if s.hw.variant.channels = 48 then 6 else 12
  die * n + ch % n

def State.groups (s : State) : Nat := s.diesPerChannel * s.hw.variant.channels / 8

def State.diePresent (s : State) (ch die : Nat) : Bool :=
  ch < s.hw.variant.channels && die < s.diesPerChannel && !s.media.retired.contains (ch, die)

/-- U in GB for a number of dies. -/
def userGB (dies : Nat) : Nat := 250 * dies * 77 / 96 - 8000

def gigabyte : Nat := 10 ^ 9

/-! ## The SLC region (R289, R290, R305) -/

/-- S in bytes. -/
def State.slcSize (s : State) : Nat :=
  2000 * gigabyte + (s.fld fMED_CAPACITY_USER_GB * gigabyte - s.media.qlcValid) / 4

/-- The flush reserve: 4.7 GiB. -/
def flushReserve : Nat := 47 * 2 ^ 30 / 10

def State.slcFree (s : State) : Nat := s.slcSize - s.media.slcUsed - flushReserve

/-- MED_CAPACITY.SLC_GB follows S; since when S stands at the floor. -/
def State.refreshSlc (s : State) : State :=
  let g := s.slcSize / gigabyte
  let s := s.setFld fMED_CAPACITY_SLC_GB g
  let since := if g ≤ 2000 then some (s.media.floorSince.getD s.dtime) else none
  s.setMedia { s.media with floorSince := since }

/-! ## Superblocks (R284, R286, R288) -/

/-- A group for a stream that the controller picks; the two copies of metadata lie in different groups (R287). -/
def State.groupFor (s : State) (st : Stream) : Nat :=
  let all := List.range (max 1 s.groups)
  let ok := all.filter (fun g => !s.media.blocks.any (fun b => b.group == g && b.units.any (fun u => st.twin == some u.1)))
  (s.choose (if ok.isEmpty then all else ok)).getD 0

/-- Adds a stream to a superblock of its class: an open one, or a new one of a group the controller picks.
(DESIGN CHOICE, log entry 37.) -/
def State.addStream (s : State) (st : Stream) (bytes : Nat) (slc : Bool) : State :=
  let m := s.media
  let open' := m.blocks.filter (fun b => b.cls == st.cls && b.slc == slc)
  let m := if slc then { m with slcUsed := m.slcUsed + bytes } else { m with qlcValid := m.qlcValid + bytes }
  let g := s.groupFor st
  let fresh : Superblock := { num := m.nextBlock, group := g, cls := st.cls, slc := slc, units := [(st, bytes)], reads := 0,
                              scanned := s.dtime }
  let s' := match open'.getLast? with
    | some b =>
      if b.group = g then { s with media := { m with blocks := m.blocks.map (fun (x : Superblock) =>
        if x.num = b.num then { x with units := x.units ++ [(st, bytes)] } else x) } }
      else { s with media := { m with blocks := m.blocks ++ [fresh], nextBlock := m.nextBlock + 1 } }
    | none => { s with media := { m with blocks := m.blocks ++ [fresh], nextBlock := m.nextBlock + 1 } }
  s'.used.refreshSlc

def Superblock.bytes (b : Superblock) : Nat := (b.units.map (·.2)).foldl (· + ·) 0

/-- The two copies of a run's Logbook region (R344). -/
def State.openLog (s : State) (c run : Nat) : State :=
  if s.hw.variant.hasMedia then
    (s.addStream (.log c run 0) (64 * 2 ^ 20) false).addStream (.log c run 1) (64 * 2 ^ 20) false
  else s

/-- Forgets every copy of the streams that the test picks. -/
def State.dropStreams (s : State) (p : Stream → Bool) : State :=
  let m := s.media
  let gone := fun (slc : Bool) => ((m.blocks.filter (fun b => b.slc == slc)).map (fun b =>
    ((b.units.filter (fun u => p u.1)).map (·.2)).foldl (· + ·) 0)).foldl (· + ·) 0
  (s.setMedia { m with
    blocks := (m.blocks.map (fun b => { b with units := b.units.filter (fun u => !p u.1) }))
    wb := m.wb.filter (fun w => !p w.stream)
    slcUsed := m.slcUsed - gone true
    qlcValid := m.qlcValid - gone false }).refreshSlc

/-- Moves a superblock's data elsewhere; the old block waits for its erase. -/
def State.relocate (s : State) (b : Superblock) : State :=
  let m := s.media
  let m := { m with blocks := m.blocks.filter (fun x => x.num != b.num), stale := m.stale ++ [b] }
  let m := if b.slc then { m with slcUsed := m.slcUsed - b.bytes } else { m with qlcValid := m.qlcValid - b.bytes }
  b.units.foldl (fun s u => s.addStream u.1 u.2 b.slc) (s.setMedia m)

/-! ## Lost data (R273, R299) -/

/-- A deferred error on the queue that wrote the data; the seventeenth pending one replaces the oldest by a mark.
(DEDUCED, log entry 35.) -/
def State.deferError (s : State) (queue tag : Nat) : State :=
  let s := s.flag fLDG_ERR_DEFERRED
  { s with ledger := Map.adjust s.ledger queue (fun q =>
      { q with
        deferredSince := true
        deferred := if q.deferred.length < 16 then q.deferred ++ [(tag, stLDG_DAMAGED)]
          else (0xFFFFFFFF, stLDG_DAMAGED) :: q.deferred.drop 1 }) }

/-- A copy of metadata is lost: the other one is used; without it media are fenced (R299).
(DEDUCED, log entry 98.) -/
def State.loseMetadata (s : State) (st : Stream) : State :=
  let lost := if s.media.metaLost.contains st then s.media.metaLost else s.media.metaLost ++ [st]
  let both := lost.any (fun x => st.twin == some x)
  let s := s.setMedia { s.media with metaLost := lost }
  if both then (s.fenceMedia.flag fMED_ERR_METADATA_LOST).raise srcMEDIA stMED_METADATA_LOST 0 noCtx .f3 else s

/-- What a lost stream leads to: damage and a deferred error, pod-level recovery, or the other metadata copy. -/
def State.loseStream (s : State) (st : Stream) : State :=
  match st with
  | .obj c i =>
    let hit := fun (o : Obj) => o.ctx == c && o.id == i
    let s' := s.setMedia { s.media with objects := s.media.objects.map (fun o => if hit o then { o with damaged := true } else o) }
    (s.media.objects.filter hit).foldl (fun s o => s.deferError o.queue o.tag) s'
  | .chunk c g i x =>
    let hit := fun (k : Chunk) => k.id == i && k.idx == x
    let mine := fun (e : Gen) => e.ctx == c && e.num == g
    let s' := s.setMedia { s.media with gens := s.media.gens.map (fun e =>
      if mine e then { e with damaged := true, chunks := e.chunks.map (fun k => if hit k then { k with damaged := true } else k) }
      else e) }
    (((s.media.gens.filter mine).map (fun e => e.chunks.filter hit)).flatten).foldl (fun s k => s.deferError k.queue k.tag) s'
  | .frag t p n =>
    let hit := fun (f : Frag) => f.tag == t && f.stripe == p && f.num == n
    s.setMedia { s.media with
      frags := s.media.frags.map (fun f => if hit f then { f with lost := [(0, f.data.length)] } else f)
      lostQueue := s.media.lostQueue ++ (s.media.frags.filter hit).map (fun f => (t, p, n, 0, f.data.length)) }
  | .ftl _ => s.loseMetadata st
  | .log .. => (s.flag fLOG_ERR_COPY_LOST).loseMetadata st

/-- Rows that a stream's bytes take: 7 data pages of 64 KiB each. -/
def rowsOf (bytes : Nat) : Nat := max 1 (ceilDiv bytes (7 * 65536))

/-- A lost row raises F0 (R299). -/
def State.loseRows (s : State) : Nat → State
  | 0 => s
  | n + 1 => State.loseRows ((s.flag fMED_ERR_STRIPE_LOST).raise srcMEDIA stMED_STRIPE_LOST 0 noCtx .f0) n

/-- Every stream of a superblock is lost. -/
def State.loseBlock (s : State) (b : Superblock) : State :=
  b.units.foldl (fun s u => (s.loseRows (rowsOf u.2)).loseStream u.1) s

/-! ## Storage of a context -/

/-- Bytes of media a context uses: objects, generations, fragments and its runs' Logbook regions (R344). -/
def State.mediaUse (s : State) (c : Nat) : Nat :=
  let sum := fun (xs : List Nat) => xs.foldl (· + ·) 0
  sum ((s.media.objects.filter (fun o => o.ctx == c)).map (fun o => o.data.length))
    + sum ((s.media.gens.filter (fun g => g.ctx == c)).map (fun g => sum (g.chunks.map (·.stored))))
    + sum ((s.media.frags.filter (fun f => f.ctx == c)).map (fun f => f.data.length)) + (s.ctxData c).logs.length * (64 * 2 ^ 20)

def State.mediaShare (s : State) (c : Nat) : Nat := s.fld (fCTX_SHARE3_MEDIA_GB c) * gigabyte

/-- A write of n bytes fits the context's share and media accept writes (R267, R304). -/
def State.mediaFits (s : State) (c n : Nat) : Bool := s.mediaWrites && s.mediaUse c + n ≤ s.mediaShare c

/-! ## The write buffer (R290, R291) -/

def wbSize : Nat := 4 * 2 ^ 30

def State.wbUsed (s : State) : Nat := (s.media.wb.map (·.bytes)).foldl (· + ·) 0

/-- LDG_WB_USED and LDG_STATUS.WB_EMPTY follow the buffer. -/
def State.refreshWb (s : State) : State :=
  (s.setFld fLDG_WB_USED_MIB (ceilDiv s.wbUsed (2 ^ 20))).setFld fLDG_STATUS_WB_EMPTY (if s.media.wb.isEmpty then 1 else 0)

def State.pushWb (s : State) (w : WbItem) : State := (s.setMedia { s.media with wb := s.media.wb ++ [w] }).refreshWb

/-- The buffer is power-protected while HOLDUP_OK is high. -/
def State.writeThrough (s : State) : Bool := s.fld fMED_STATUS_WRITE_THROUGH == 1

/-- Programs the oldest buffer entry into SLC, or directly into QLC. -/
def State.program (s : State) (w : WbItem) : State :=
  let s := (s.setMedia { s.media with wb := s.media.wb.drop 1 }).refreshWb
  s.addStream w.stream w.bytes (w.bytes ≤ s.slcFree)

/-! ## Resume records (R308 to R310) -/

/-- The newest valid record of a cell. -/
def ResumeCell.newest (c : ResumeCell) : Option ResumeRec := (c.filterMap id).getLast?

/-- The valid record with the larger SEQUENCE. (DEDUCED, log entry 45.) -/
def MediaState.resume (m : MediaState) : Option ResumeRec :=
  match m.cell0.newest, m.cell1.newest with
  | some a, some b => if a.seq < b.seq then some b else some a
  | some a, none => some a
  | none, b => b

/-- Appends a record to its cell; `bad`: the read-back differed, and the record stands in the following page. -/
def MediaState.writeResume (m : MediaState) (r : ResumeRec) (bad : Bool) : MediaState :=
  let pages := if bad then [none, some r] else [some r]
  if r.cell = 0 then { m with cell0 := m.cell0 ++ pages } else { m with cell1 := m.cell1 ++ pages }

/-- The next record. -/
def MediaState.nextResume (m : MediaState) (state : Nat) : ResumeRec :=
  let n := ((m.resume).map (·.seq + 1)).getD 0
  { cell := n % 2, state := state, seq := n, mapAt := m.mapAt, journalAt := m.journalAt, flushSeq := m.flushSeq,
    retiredVersion := m.retiredVersion }

/-! ## Flushes (R306, R307) -/

def State.startFlush (s : State) : State :=
  if !s.hw.variant.hasMedia ∨ s.media.flushing.isSome then s
  else s.setMedia { s.media with flushing := some s.dtime }

/-- The whole buffer stands in the reserve with its end marker, and the resume record says FLUSHED. -/
def State.endFlush (s : State) (bad : Bool) : State :=
  let m := s.media
  let m := { m with reserve := m.wb, reserveSeq := m.flushSeq, endMark := true, wb := [], flushing := none }
  (s.setMedia (m.writeResume (m.nextResume 2) bad)).refreshWb

/-! ## The erasure code of R54 -/

/-- Multiplication in GF(2^8) with polynomial 0x11D. -/
def gf11dMul : Nat → Nat → Nat → Nat
  | 0, _, _ => 0
  | n + 1, a, b => (if b % 2 = 1 then a else 0) ^^^ gf11dMul n (gf11dDouble a) (b / 2)

def gfPow2 (n : Nat) : Nat := (List.range n).foldl (fun x _ => gf11dDouble x) 1

/-- a⁻¹ = a^254. -/
def gf11dInv (a : Nat) : Nat := (List.range 253).foldl (fun x _ => gf11dMul 8 x a) a

def scaleBytes (k : Nat) (b : Bytes) : Bytes := b.map (fun x => byteOf (gf11dMul 8 x.toNat k))

def xorAll (n : Nat) (bs : List Bytes) : Bytes := bs.foldl xorBytes (zeros n)

/-- Σ 2^i d_i over the data fragments that are known. -/
def weighted (n : Nat) (ds : List (Nat × Bytes)) : Bytes := xorAll n (ds.map (fun e => scaleBytes (gfPow2 e.1) e.2))

/-- The data fragments of a stripe of n-byte fragments from those that are known (0 to 9 data, 10 P, 11 Q); none: too few. -/
def solveData (n : Nat) (known : Nat → Option Bytes) : Option (List Bytes) :=
  let ds := (List.range 10).filterMap (fun i => (known i).map (fun b => (i, b)))
  let missing := (List.range 10).filter (fun i => (known i).isNone)
  let sum := xorAll n (ds.map (·.2))
  let put := fun (found : List (Nat × Bytes)) => some ((List.range 10).map (fun i =>
    ((known i).orElse (fun _ => (found.find? (fun e => e.1 == i)).map (·.2))).getD []))
  match missing, known 10, known 11 with
  | [], _, _ => put []
  | [a], some p, _ => put [(a, xorBytes p sum)]
  | [a], none, some q => put [(a, scaleBytes (gf11dInv (gfPow2 a)) (xorBytes q (weighted n ds)))]
  | [a, b], some p, some q =>
    let x := xorBytes p sum
    let y := xorBytes q (weighted n ds)
    let db := scaleBytes (gf11dInv (gfPow2 a ^^^ gfPow2 b)) (xorBytes y (scaleBytes (gfPow2 a) x))
    put [(a, xorBytes x db), (b, db)]
  | _, _, _ => none

/-- Fragment f of a stripe from the others. -/
def recoverFragment (n f : Nat) (known : Nat → Option Bytes) : Option Bytes :=
  (solveData n known).map (fun ds =>
    if f < 10 then ds.getD f [] else if f = 10 then parityP ds else parityQ ds)

end Sys2Proof.Machine
end

