-- ==== Sys2Proof/Machine/LedgerOps.lean ====
section
/-!
DEFINITION. Operations of the Ledger (R264 to R278): queues, slots, the checks of R268, order (R269), data movement,
completions and resets; and the reading of stored samples that fetches and SAMPLE_READ share (R72).
-/
namespace Sys2Proof.Machine

def State.queue (s : State) (n : Nat) : Option LedgerQueue := Map.find s.ledger n

def State.setQueue (s : State) (n : Nat) (q : LedgerQueue) : State := { s with ledger := Map.put s.ledger n q }

def LedgerQueue.cmdAt (q : LedgerQueue) (slot : Nat) : Option LedgerCmd := q.cmds.find? (fun c => c.slot == slot)

def LedgerQueue.setCmd (q : LedgerQueue) (c : LedgerCmd) : LedgerQueue :=
  { q with cmds := q.cmds.map (fun d => if d.order = c.order then c else d) }

/-- Ends a command: its slot is FREE, then its completion waits to be written. -/
def LedgerQueue.finish (q : LedgerQueue) (c : LedgerCmd) (st : Status) (result : Nat) : LedgerQueue :=
  { q with cmds := q.cmds.filter (fun d => d.order != c.order),
           cpls := q.cpls ++ [{ tag := c.task.tag, status := st, slot := c.slot, seq := c.task.seq, result := result }] }

def State.finishCmd (s : State) (n : Nat) (q : LedgerQueue) (c : LedgerCmd) (st : Status) (result : Nat) : State :=
  s.setQueue n (q.finish c st result)

/-- Runs an operation on an ACTIVE command of an opcode. -/
def State.onCmd (s : State) (n slot op : Nat) (body : LedgerQueue → LedgerCmd → State) : State :=
  match s.queue n with
  | none => s
  | some q => match q.cmdAt slot with
    | none => s
    | some c => if c.active ∧ c.task.opcode = op then body q c else s

/-! ## The task record (Table 11.4) -/

def readTask (b : Bytes) : TaskRec :=
  { opcode := fieldAt b 0 1, flags := fieldAt b 1 1, tag := fieldAt b 4 4, seq := fieldAt b 8 8, object := fieldAt b 16 8,
    offset := fieldAt b 24 8, length := fieldAt b 32 8, addr := fieldAt b 40 8, key := fieldAt b 48 4, gen := fieldAt b 52 4,
    timeout := fieldAt b 56 4, elem := fieldAt b 60 1 }

/-! Opcodes of Table 11.5 and R302. -/
def ldSAMPLE_READ : Nat := 1
def ldOBJECT_READ : Nat := 2
def ldOBJECT_WRITE : Nat := 3
def ldCKPT_ABSORB : Nat := 4
def ldCKPT_RESTORE : Nat := 5
def ldFLUSH : Nat := 6
def ldTRIM : Nat := 7
def ldFRAGMENT_READ : Nat := 8
def ldQUEUE_RESET : Nat := 0x7F

def TaskRec.ordered (t : TaskRec) : Bool := bitOf t.flags 0
def TaskRec.compress (t : TaskRec) : Bool := bitOf t.flags 1
def TaskRec.seals (t : TaskRec) : Bool := bitOf t.flags 2

/-- Commands that move LENGTH bytes. -/
def TaskRec.moves (t : TaskRec) : Bool := 1 ≤ t.opcode && t.opcode ≤ 5 || t.opcode == ldFRAGMENT_READ

/-- R268: whether a record completes with LDG_ARGS. (DEDUCED, log entries 35, 36.) -/
def taskBad (q : LedgerQueue) (slot : Nat) (b : Bytes) : Bool :=
  let t := readTask b
  let control := slot == 0
  let known := (1 ≤ t.opcode && t.opcode ≤ 7) || t.opcode == ldQUEUE_RESET || (t.opcode == ldFRAGMENT_READ && q.recovery)
  let timeOk := (t.timeout == 0 && q.mode != 2) || (1000 ≤ t.timeout && t.timeout ≤ 60000000)
  !known || (t.opcode == ldQUEUE_RESET) != control || 8 ≤ t.flags || fieldAt b 2 2 != 0 || !allZero (slice b 61 51)
    || !allZero (slice b 120 8) || fieldAt b 112 8 != crc64 (b.take 112) || (t.opcode == ldSAMPLE_READ && 2 ^ 56 ≤ t.object)
    || (t.moves && t.length == 0) || (!control && !timeOk)
    || (t.opcode == ldOBJECT_WRITE && 2 ^ 36 < t.length)
    || (t.opcode == ldCKPT_ABSORB && (t.offset % 2 ^ 20 != 0 || 2 ^ 30 < t.length
        || (t.compress && (t.elem != 1 && t.elem != 2 && t.elem != 4 || t.length % t.elem != 0))))
    || (t.opcode == ldFRAGMENT_READ && (11 < t.elem || 2 ^ 31 < t.offset % 2 ^ 32 + t.length))

/-! ## Order (R269) -/

def rangesMeet (a b : TaskRec) : Bool := a.offset < b.offset + b.length && b.offset < a.offset + a.length

def TaskRec.isObj (t : TaskRec) : Bool :=
  t.opcode == ldOBJECT_READ || t.opcode == ldOBJECT_WRITE || (t.opcode == ldTRIM && !t.seals)
def TaskRec.isCkpt (t : TaskRec) : Bool := t.opcode == ldCKPT_ABSORB || t.opcode == ldCKPT_RESTORE
def TaskRec.trimsGen (t : TaskRec) : Bool := t.opcode == ldTRIM && t.seals
def TaskRec.writes (t : TaskRec) : Bool := t.opcode == ldOBJECT_WRITE || t.opcode == ldCKPT_ABSORB || t.opcode == ldTRIM

/-- Two commands conflict. (DEDUCED, log entry 36.) -/
def TaskRec.conflicts (a b : TaskRec) : Bool :=
  (a.writes || b.writes) &&
    ((a.isObj && b.isObj && a.object == b.object)
      || (a.isCkpt && b.isCkpt && a.object == b.object && a.gen == b.gen && rangesMeet a b)
      || (((a.trimsGen && (b.isCkpt || b.trimsGen)) || (b.trimsGen && a.isCkpt)) && a.gen == b.gen))

/-- A POSTED command may start. -/
def LedgerQueue.mayStart (q : LedgerQueue) (c : LedgerCmd) : Bool :=
  let earlier := q.cmds.filter (fun d => d.order < c.order)
  !c.active && earlier.all (fun d => !d.task.conflicts c.task && !d.task.ordered) && (!c.task.ordered || earlier.isEmpty)

/-! ## Data movement -/

def partSize : Nat := 2 ^ 30

/-- Bytes of one RDMA READ of a write: a chunk of 1 MiB for CKPT_ABSORB, which commits chunk by chunk (R270). -/
def TaskRec.readSize (t : TaskRec) : Nat := if t.opcode = ldCKPT_ABSORB then 2 ^ 20 else partSize

/-- Posts the RDMA READs of a write's LENGTH bytes. -/
def State.postReads (s : State) (n : Nat) (q : LedgerQueue) (c : LedgerCmd) : State :=
  let partSize := c.task.readSize
  let k := ceilDiv c.task.length partSize
  let s := s.setQueue n (q.setCmd { c with active := true, parts := k })
  (List.range k).foldl (fun s i =>
    s.post q.qp (.read (c.task.addr + i * partSize) c.task.key (min partSize (c.task.length - i * partSize)))
      (.ledger q.ctx n c.order i)) s

/-- Posts the RDMA WRITEs of a read's data. -/
def State.postWrites (s : State) (n : Nat) (q : LedgerQueue) (c : LedgerCmd) (d : Bytes) : State :=
  let k := max 1 (ceilDiv d.length partSize)
  let s := s.setQueue n (q.setCmd { c with parts := k, verdict := some (stOK, d.length) })
  (List.range k).foldl (fun s i =>
    s.post q.qp (.write (c.task.addr + i * partSize) c.task.key none ((d.drop (i * partSize)).take partSize))
      (.ledger q.ctx n c.order i)) s

/-- Takes in the completions of a command's data parts. -/
def State.collect (s : State) (n : Nat) (c : LedgerCmd) : LedgerCmd × State :=
  let mine := fun (e : WrFor × Status × Bytes) => match e.1 with
    | .ledger _ m o _ => m == n && o == c.order
    | _ => false
  let got := s.net.finished.filter mine
  let c := got.foldl (fun c e => match e.1 with
    | .ledger _ _ _ i =>
      if e.2.1 = stOK then { c with finished := Map.put c.finished i e.2.2 }
      else { c with failed := some (c.failed.getD e.2.1) }
    | _ => c) c
  (c, { s with net := { s.net with finished := s.net.finished.filter (fun e => !mine e) } })

/-- The bytes of a command whose parts have all come. -/
def LedgerCmd.bytes (c : LedgerCmd) : Bytes := (c.finished.vals).flatten

/-- A command whose data has all moved: fails with the first failure, or goes on. -/
def State.whenMoved (s : State) (n : Nat) (q : LedgerQueue) (c : LedgerCmd) (body : State → LedgerQueue → LedgerCmd → State) :
    State :=
  let (c, s) := s.collect n c
  let q := q.setCmd c
  match c.failed with
  | some st => s.finishCmd n q c st 0
  | none => if c.finished.length = c.parts then body (s.setQueue n q) q c else s.setQueue n q

/-- A read: its verdict at the start; then its data; then its completion. -/
def State.runRead (s : State) (n : Nat) (q : LedgerQueue) (c : LedgerCmd) (find : State → Except (Status × Nat) Bytes) :
    State :=
  match c.verdict with
  | none => match find s with
    | .error (st, r) => s.finishCmd n q c st r
    | .ok d => s.postWrites n q c d
  | some (st, r) => s.whenMoved n q c (fun s q c => s.finishCmd n q c st r)

/-! ## Resets (R276) -/

/-- Ends every command of a queue with LDG_ABORTED (one that had committed has completed); SEQ restarts. -/
def LedgerQueue.abortAll (q : LedgerQueue) : LedgerQueue :=
  let cpl := fun (c : LedgerCmd) => ({
    tag := c.task.tag, status := stLDG_ABORTED, slot := c.slot, seq := c.task.seq, result := 0 } : LedgerCpl)
  { q with cmds := [], cpls := q.cpls ++ q.cmds.map cpl, expected := 0, reset := none }

/-- Forgets buffered writes of commands that had not committed. -/
def State.dropUncommitted (s : State) (n : Nat) : State :=
  (s.setMedia { s.media with wb := s.media.wb.filter (fun w => match w.cmd with
    | some (m, _) => m != n
    | none => true) }).refreshWb

/-- Forgets buffered data of one command that had not committed. -/
def State.dropPending (s : State) (n order : Nat) : State :=
  (s.setMedia { s.media with wb := s.media.wb.filter (fun w => w.cmd != some (n, order)) }).refreshWb

def State.abortQueue (s : State) (n : Nat) : State :=
  match s.queue n with
  | none => s
  | some q => (s.setQueue n q.abortAll).dropUncommitted n

/-- The queues of a context, recovery queues apart. -/
def State.queuesOf (s : State) (c : Nat) : List Nat := (s.ledger.filter (fun e => e.2.ctx == c && !e.2.recovery)).map (·.1)

/-! ## Completions (Table 11.6) -/

def cplBytes (c : LedgerCpl) (deferred : Option (Nat × Status)) (phase : Bool) : Bytes :=
  let (dt, ds, fl) := match deferred with
    | some (t, st) => (t, st.toNat, 1)
    | none => (0, 0, 0)
  toLE 4 c.tag ++ toLE 2 c.status.toNat ++ toLE 2 c.slot ++ toLE 8 c.seq ++ toLE 8 c.result ++ toLE 4 dt ++ toLE 2 ds
    ++ toLE 1 fl ++ toLE 1 (if phase then 1 else 0)

/-! ## Stored samples (R48, R59, R72) -/

/-- The stored fragment of a stripe of a dataset generation. -/
def State.fragAt (s : State) (ctx dataset gen stripe num : Nat) : Option Frag :=
  s.media.frags.find? (fun f => f.ctx == ctx && f.dataset == dataset && f.gen == gen && f.stripe == stripe && f.num == num)

/-- A record of a held sample as read from media: the plaintext record, when the extent header, the record's index and
codes, its seal and its table CRC pass (R72). `damage` is what the read errors did to the stored bytes. -/
def checkSample (key : Bytes) (m : DatasetEnt) (g : Nat) (stored damage : Bytes) : Option Bytes :=
  let loc := g - m.base
  let e := m.extentOf loc
  let b := decryptExtent key m.gen e (xorBytes stored damage)
  let first := ((m.extents[e]?).map (·.first)).getD 0
  let r := extentRecord b (loc - first)
  if extentHeaderOk (b.take 64) m.id e m.gen ∧ recordOk r loc then some r else none

/-- What R72 finds: a record that passed at once, after a re-read, or after a rebuild from the other fragments; or none. -/
inductive Fetched where
  | clean (r : Bytes)
  | repaired (r : Bytes)
  | lost
  deriving DecidableEq, Repr

/-- Reads sample g of a dataset that this device holds. `damage1` and `damage2` are what the first read and the re-read did
to the stored bytes, `rebuilt` the fragment that pod-level recovery gave, if it did.
(DEDUCED, log entry 53.) -/
def State.fetchSample (s : State) (ctx : Nat) (m : DatasetEnt) (g : Nat) (damage1 damage2 : Bytes) (rebuilt : Option Bytes) :
    Fetched :=
  match s.rootKey ctx with
  | none => .lost
  | some trk =>
    let key := kDataset trk m.id m.gen
    let e := m.extentOf (g - m.base)
    let stored := ((s.fragAt ctx m.id m.gen (e / 10) (e % 10)).map (·.data))
    let reread := match stored with
      | some b => match checkSample key m g b damage1 with
        | some r => some (Fetched.clean r)
        | none => (checkSample key m g b damage2).map Fetched.repaired
      | none => none
    match reread with
    | some x => x
    | none => match rebuilt with
      | some b => match checkSample key m g b [] with
        | some r => .repaired r
        | none => .lost
      | none => .lost

end Sys2Proof.Machine
end

