-- ==== Sys2Proof/Machine/Rdma.lean ====
section
/-!
DEFINITION. The responder and requester of the RoCEv2 engine as packets arrive (R249 to R263): windows and placement, first
touch of landing pages (R198, R199), immediates (R250), READs (R257), acknowledgements and timers (R255, R256), flush (R258).
-/
namespace Sys2Proof.Machine

/-! ## Intake: generation, state, seal (R251, R253, R375) -/

/-- Whether a SEAL_SEQ is new: above the window of the 65,536 values below the highest, and not accepted before. -/
def Qp.sealFresh (q : Qp) (n : Nat) : Bool :=
  match q.sealHigh with
  | none => true
  | some h => h < n || (h ≤ n + 65536 && !q.sealSeen.contains n && n != h)

def Qp.sealAccept (q : Qp) (n : Nat) : Qp :=
  let h := match q.sealHigh with | some h => max h n | none => n
  { q with sealHigh := some h, sealSeen := (q.sealSeen ++ [n]).filter (fun m => h ≤ m + 65536) }

/-- A failed tag (R375): the queue pair enters ERR with SEC_SEAL_FAIL. -/
def State.sealFail (s : State) (i : Nat) : State :=
  ((s.flag fSEC_ERR_SEAL_FAIL).bump fSEC_AUTH_FAIL_COUNT_SEAL 1).qpError i stSEC_SEAL_FAIL false

def Pkt.isWrite : Pkt → Bool
  | .write .. => true
  | _ => false

def Pkt.isReadReq : Pkt → Bool
  | .readReq .. => true
  | _ => false

def Pkt.isReadResp : Pkt → Bool
  | .readResp .. => true
  | _ => false

def Pkt.isAck : Pkt → Bool
  | .ack .. => true
  | _ => false

/-- Handles one packet of a subport: its queue pair must be open, past INIT and not in ERR, and a sealed packet must
verify; otherwise it has no effect but its count. -/
def State.onPacket (s : State) (port sub : Nat) (p : Pkt → Bool) (body : State → Nat → Qp → Pkt → State) : State :=
  match s.takeRx port sub (RxBody.carries p) with
  | none => s
  | some (f, s) => match f.body with
    | .rdma _ x =>
      match s.findQpn x.qpn with
      | none => s.dropStale port
      | some (i, q) =>
        if q.state = .init ∨ q.state = .err then s.dropStale port
        else if !q.sealed then body s i q x
        else match f.tag with
          | none => s.sealFail i
          | some (n, ok) =>
            if !q.sealFresh n then s.dropStale port
            else if !ok then s.sealFail i
            else
              let q := q.sealAccept n
              body (s.setQp i q) i q x
    | _ => s

/-! ## Windows and placement (R261, Table 10.6) -/

/-- Fields of a landing address (R198). -/
def landSlot (a : Nat) : Nat := a / 2 ^ 60
def landOrdinal (a : Nat) : Nat := bitsOf a 47 13
def landPos (a : Nat) : Nat := bitsOf a 31 16
def landOff (a : Nat) : Nat := a % 2 ^ 31

/-- The address check of a window's kind. -/
def State.addrOk (s : State) (w : Window) (a n : Nat) : Bool :=
  match w.kind with
  | .landing => match s.runOf w.ctx with
    | some r => landSlot a ≤ r.cfg.pack.lead && landOrdinal a < r.cfg.gMax && landPos a < r.cfg.pack.group * r.cfg.pack.q
        && landOff a + n ≤ 2 ^ 31
    | none => false
  | .beacon => a + n ≤ 2048
  | .mailbox => a + n ≤ 131072
  | .ledger => a + n ≤ w.len
  | .handle h => a + n ≤ w.len && a + n ≤ s.handleSize h

/-- The check of R261. -/
def State.accessOk (s : State) (q : Qp) (key addr n : Nat) (read : Bool) : Option Window :=
  match s.windowAt key with
  | none => none
  | some w =>
    if w.ctx = q.ctx ∧ w.pd = q.pd ∧ (if read then w.canRead else w.canWrite) = true ∧ s.addrOk w addr n = true then some w
    else none

/-- The landing page of an offset: class and page number (R199). Pages count on across the classes. -/
def pageOf (off : Nat) : Nat × Nat :=
  if off < 0x10000 then (0, off / 0x1000)
  else if off < 0x200000 then (1, 16 + off / 0x10000 - 1)
  else (2, 47 + off / 0x200000 - 1)

/-- Pages that n bytes at an offset touch. -/
def pagesOf (off n : Nat) : List (Nat × Nat) :=
  ((List.range (ceilDiv n 0x1000 + 1)).map (fun i => pageOf (min (off + i * 0x1000) (off + n - 1)))).eraseDups

/-- Maps the pages a landing write touches first; none: the context has reached its cap. -/
def State.mapPages (s : State) (ctx key : Nat) : List (Nat × Nat) → Option State
  | [] => some s
  | (cls, page) :: rest =>
    match s.runOf ctx with
    | none => none
    | some r => match Map.find r.landing key with
      | none => match s.alloc ctx cls 1 agNETWORK 0 with
        | .error _ => none
        | .ok (h, s) =>
          State.mapPages (s.mapRun ctx (fun r => { r with landing := Map.put r.landing key ⟨h, [page]⟩ })) ctx key rest
      | some l =>
        if l.pages.contains page then State.mapPages s ctx key rest
        else match s.findChain ctx l.handle none with
          | .error _ => none
          | .ok (num, ch) => match s.extend ctx num ch cls 1 with
            | .error _ => none
            | .ok s => State.mapPages (s.mapRun ctx (fun r =>
                { r with landing := Map.put r.landing key ⟨l.handle, l.pages ++ [page]⟩ })) ctx key rest

def winMemKey (kind ctx : Nat) : Nat := if kind = 0 then 0 else ctx * 4 + kind

def State.winBytes (s : State) (kind ctx a n : Nat) : Bytes := Mem.read (Map.getD s.net.winMem (winMemKey kind ctx) []) a n

def State.writeWin (s : State) (kind ctx a : Nat) (d : Bytes) : State :=
  let k := winMemKey kind ctx
  { s with net := { s.net with winMem := Map.put s.net.winMem k (Mem.write (Map.getD s.net.winMem k []) a d) } }

/-- Places data through a window; none: the packet is discarded without acknowledgement (R199). -/
def State.place (s : State) (w : Window) (a : Nat) (d : Bytes) : Option State :=
  match w.kind with
  | .landing =>
    if d.isEmpty then some s
    else match s.mapPages w.ctx (a / 2 ^ 31) (pagesOf (landOff a) d.length) with
      | none => none
      | some s => match s.runOf w.ctx with
        | none => none
        | some r => match Map.find r.landing (a / 2 ^ 31) with
          | none => none
          | some l => some (s.writeHandle l.handle (landOff a) d)
  | .beacon => some (s.writeWin 0 0 a d)
  | .mailbox => some (s.writeWin 1 w.ctx a d)
  | .ledger => some (s.writeWin 2 w.ctx a d)
  | .handle h => some (s.writeHandle h a d)

/-- A complete message into a window whose content the device examines. -/
def State.messageDone (s : State) (w : Window) (start port i : Nat) : State :=
  let note := fun k => { s with net := { s.net with messages := s.net.messages ++
    [{ kind := k, ctx := w.ctx, addr := start, port := port, qp := i }] } }
  match w.kind with
  | .beacon => note 0
  | .mailbox => note 1
  | .ledger => note 2
  | _ => s

/-! ## The responder -/

/-- Order of a packet against E_PSN (R255): in order, ahead, or a duplicate. -/
inductive PsnOrder where
  | inOrder | ahead | duplicate
  deriving DecidableEq, Repr

def psnOrder (ePsn psn : Nat) : PsnOrder :=
  let d := psnDiff psn ePsn
  if d = 0 then .inOrder else if d < 2 ^ 23 then .ahead else .duplicate

/-- The first packet of a gap draws one NAK. -/
def State.gap (s : State) (i : Nat) (q : Qp) : State :=
  if q.gapNak then s else (s.setQp i { q with gapNak := true }).reply i q.ePsn .nakSequence

/-- Acknowledges a placed packet at once or within 2 µs. -/
def State.ackPlaced (s : State) (i psn : Nat) (now : Bool) : State :=
  match s.qp i with
  | none => s
  | some q =>
    if now then (s.setQp i { q with coalesce := none }).reply i psn .ack
    else s.setQp i { q with coalesce := some (q.coalesce.getD s.dtime) }

/-- A failed access check (R261). -/
def State.denied (s : State) (i psn : Nat) : State := (s.reply i psn .nakAccess).qpError i stNET_REMOTE_ACCESS false
def State.invalidReq (s : State) (i psn : Nat) : State := (s.reply i psn .nakInvalid).qpError i stNET_REMOTE_INVALID false

/-- An immediate (R250): reserved bits 0, an increment of 1 to 255, a PEER queue pair, a mapped peg. -/
def State.immOk (s : State) (q : Qp) (imm : Nat) : Bool :=
  q.kind == .peer && imm < 2 ^ 22 && 1 ≤ bitsOf imm 14 8 && (s.peg q.ctx (imm % 2 ^ 14)).isSome

/-- An in-order WRITE packet. -/
def State.writeInOrder (s : State) (i : Nat) (q : Qp) (psn : Nat) (last ar : Bool) (reth : Option (Nat × Nat × Nat))
    (imm : Option Nat) (d : Bytes) : State :=
  let msg := match reth, q.rx with
    | some (addr, key, len), _ => some { key := key, start := addr, addr := addr, left := len : RxMsg }
    | none, m => m
  match msg with
  | none => s.invalidReq i psn
  | some m =>
    if m.left < d.length then s.invalidReq i psn
    else match s.accessOk q m.key m.addr d.length false with
      | none => s.denied i psn
      | some w =>
        if (imm.map (fun v => !s.immOk q v)).getD false then s.invalidReq i psn
        else match s.place w m.addr d with
          | none => s
          | some s =>
            let m := { m with addr := m.addr + d.length, left := m.left - d.length }
            let q := (s.qp i).getD q
            let s := s.setQp i { q with ePsn := psnAdd psn 1, gapNak := false, rx := if last then none else some m }
            let s := match imm with | some v => (s.addPeg q.ctx (v % 2 ^ 14) (bitsOf v 14 8)).2 | none => s
            let s := if last then s.messageDone w m.start q.port i else s
            s.ackPlaced i psn ar

/-- RDMA_WRITE_RECEIVE (R261). An RDMA WRITE packet is checked against its window and placed, with first-touch
landing pages and any immediate peg increment. -/
def execRdmaWriteReceive (port : Fin 32) (sub : Fin 4) (s : State) : Step' :=
  act s (fun s => s.onPacket port sub Pkt.isWrite (fun s i q p =>
    match p with
    | .write _ psn last ar reth imm d =>
      match psnOrder q.ePsn psn with
      | .ahead => s.gap i q
      | .duplicate => s.ackPlaced i psn true
      | .inOrder => s.writeInOrder i q psn last ar reth imm d
    | _ => s))

/-- Responses to a READ: path-MTU pieces of the handle's bytes. -/
def readFrames (q : Qp) (i now psn : Nat) (d : Bytes) : List EgFrame :=
  let n := max 1 (ceilDiv d.length q.pmtu)
  (List.range n).map (fun k =>
    let piece := (d.drop (k * q.pmtu)).take q.pmtu
    frameOf q i piece.length now (.readResp q.peerQpn (psnAdd psn k) (k + 1 == n) piece))

/-- Inbound READs a queue pair holds: those whose last response has not started. -/
def State.heldReads (s : State) (i : Nat) : Nat :=
  (s.net.egress.filter (fun f => f.qp == some i && (match f.body with | .readResp _ _ l _ => l | _ => false))).length

/-- An inbound READ request (R257); a duplicate is executed again (R255). -/
def execRdmaReadRequestReceive (port : Fin 32) (sub : Fin 4) (s : State) : Step' :=
  act s (fun s => s.onPacket port sub Pkt.isReadReq (fun s i q p =>
    match p with
    | .readReq _ psn addr key len =>
      match psnOrder q.ePsn psn with
      | .ahead => s.gap i q
      | o =>
        if q.respDepth ≤ s.heldReads i then s.invalidReq i psn
        else match s.accessOk q key addr len true with
          | none => s.denied i psn
          | some w =>
            let d := match w.kind with | .handle h => s.readHandle h addr len | _ => []
            let q := if o = .inOrder then { q with ePsn := psnAdd psn (max 1 (ceilDiv len q.pmtu)), gapNak := false } else q
            (s.setQp i q).enqueue (readFrames q i s.dtime psn d)
    | _ => s))

/-! ## The requester -/

/-- The issued READ whose next response has a PSN. -/
def WorkReq.awaits (r : WorkReq) (psn pmtu : Nat) : Bool :=
  r.issued && r.what.isRead && psnAdd r.psn (r.got.length / pmtu) == psn && (match r.what with
    | .read _ _ len => r.got.length < len || len == 0
    | .write .. => false)

/-- A READ response acknowledges every earlier packet too. -/
def execRdmaReadResponseReceive (port : Fin 32) (sub : Fin 4) (s : State) : Step' :=
  act s (fun s => s.onPacket port sub Pkt.isReadResp (fun s i q p =>
    match p with
    | .readResp _ psn _ d =>
      match q.sends.findIdx? (fun r => r.awaits psn q.pmtu) with
      | none => s
      | some k =>
        (s.setQp i { q with sends := q.sends.modify k (fun r => { r with got := r.got ++ d }) }).ackUpTo i psn
    | _ => s))

/-- ACK_RECEIVE (R256). An acknowledgement or NAK updates the requester's timer, its rate control and its
retransmission. -/
def execAckReceive (port : Fin 32) (sub : Fin 4) (s : State) : Step' :=
  act s (fun s => s.onPacket port sub Pkt.isAck (fun s i q p =>
    match p with
    | .ack _ psn k => match k with
      | .ack => s.ackUpTo i psn
      | .nakAccess => s.qpError i stNET_REMOTE_ACCESS false
      | .nakInvalid => s.qpError i stNET_REMOTE_INVALID false
      | .nakSequence =>
        let s := if psn = q.unacked then s else s.ackUpTo i (psnAdd psn (2 ^ 24 - 1))
        match s.qp i with
        | none => s
        | some q =>
          if q.retryCnt ≤ q.retries then s.qpError i stNET_RETRY_EXCEEDED false
          else (s.setQp i { q with retries := q.retries + 1 }).goBack i
    | _ => s))

/-- ACK_COALESCE_TIMER (R255). Within 2 µs the responder acknowledges packets without AckReq with the newest
placed PSN. -/
def execAckCoalesceTimer (qp : Fin 16384) (s : State) : Step' :=
  act s (fun s => match s.qp qp with
    | some q => match q.coalesce with
      | some _ => if q.state = .err then s else s.ackPlaced qp (psnAdd q.ePsn (2 ^ 24 - 1)) true
      | none => s
    | none => s)

/-- The acknowledgement timer: 4.096 µs × 2^TIMEOUT. -/
def Qp.timeoutNs (q : Qp) : Nat := 4096 * 2 ^ q.timeout

/-- ACK_TIMER_EXPIRY (R256). The acknowledgement timer expires, the requester resends from the oldest
unacknowledged PSN and halves its rate, or enters ERR. -/
def execAckTimerExpiry (qp : Fin 16384) (s : State) : Step' :=
  act s (fun s => match s.qp qp with
    | some q => match q.timer with
      | some t =>
        if s.dtime < t + q.timeoutNs then s
        else if q.retryCnt ≤ q.retries then s.qpError qp stNET_RETRY_EXCEEDED false
        else
          let q := { q with retries := q.retries + 1 }
          let q := if q.paced then q.onExpiry s.dtime (s.fld fNET_RC_CFG1_MIN_MBPS) else q
          (s.setQp qp q).goBack qp
      | none => s
    | none => s)

/-- The flush is complete (R258): FLUSHED; a run's queue pairs are then destroyed (R254). -/
def execQpFlushComplete (qp : Fin 16384) (s : State) : Step' :=
  act s (fun s => match s.qp qp with
    | some q =>
      if q.state ≠ .err ∨ q.flushed then s
      else
        let s := { s with net := { s.net with egress := s.net.egress.filter (fun f => f.qp != some qp.val) } }
        let s := s.setQp qp { q with flushed := true }
        if q.kind = .client then s else s.destroyQp qp
    | none => s)

end Sys2Proof.Machine
end

