-- ==== Sys2Proof/Machine/Steps.lean ====
section
/-!
DEFINITION. Step beacons and the timeline (R218 to R227, Table 9.2), changeovers (R223, R239 to R241) and deadlines (R238).
-/
namespace Sys2Proof.Machine

/-! ## Changeovers -/

/-- Contexts with a seated run. -/
def State.runCtxs (s : State) : List Nat := s.data.keys.filter (fun c => (s.runOf c).isSome)

/-- The lead of a context: its run's, for CTX0 the largest of all runs, else 1 (R438). -/
def State.leadOf (s : State) (c : Nat) : Nat :=
  if c = 0 then (s.runCtxs.map (fun d => (s.ctxData d).lead)).foldl max 1 else (s.ctxData c).lead

/-- Transactions whose cutoff has passed are FIXED (Table 19.16). -/
def State.fixTxns (s : State) (c x : Nat) : State :=
  let lead := s.leadOf c
  { s with host := { s.host with txns := Map.adjust s.host.txns c (fun ts => ts.map (fun t =>
      if t.state = .pending ∧ t.eff ≤ x + lead + 1 then { t with state := .fixed } else t)) } }

/-- R239: every group of step t is packed before step t + 1 is accepted or extrapolated. -/
def State.unpackedCheck (s : State) (c t : Nat) : State :=
  match s.runOf c with
  | none => s
  | some r =>
    if r.exempt < t ∧ r.groups.any (fun g => g.step == t && !g.packed) ∧ !r.missed.contains t then
      (s.mapRun c (fun r => { r with missed := r.missed ++ [t] })).raise srcGATE stSTEP_DEADLINE 0 c .f2
    else s

/-- R347: at the cutoff of step e, manifests and images that the imported Logbook names for e must have been submitted. -/
def State.replayCheck (s : State) (c e : Nat) : State :=
  let d := s.ctxData c
  match d.run with
  | none => s
  | some r =>
    let named := r.imported.filter (fun x => x.eff == e && (x.kind == 2 || x.kind == 3))
    if named.all (fun x => d.logSet.any (fun y => y.kind == x.kind && y.eff == e && y.body == x.body)) then s
    else s.raise 0x000F stREPRO_MISMATCH 0 c .f2

/-- Load-split settings take effect at a step boundary (R103). -/
def State.applySplit (s : State) : State :=
  { s with work := { s.work with split := Map.mapVals s.work.split (fun _ r => match r.pendingOn with
      | some on => { r with enabled := on, pendingOn := none }
      | none => r) } }

/-- The acceptance or extrapolation of step x, when work starts (R223). -/
def State.changeover (s : State) (x : Nat) : State :=
  -- the device returns media to MPS0 at each changeover (R279)
  let s := ((((s.putReg aSTEP_LAST x).setFld fLDG_STATUS_MPS 0).touchMedia).gateArrive).applySplit
  let s := s.runCtxs.foldl (fun s c => s.unpackedCheck c (x - 1)) s
  let s := (s.host.txns.keys).foldl (fun s c => s.fixTxns c x) s
  s.runCtxs.foldl (fun s c => (s.replayCheck c (x + s.leadOf c + 1)).planReady c 16) s

/-! ## Beacons (Table 9.1) -/

structure Beacon where
  step : Nat
  start : Nat
  computeLen : Nat
  pause : Bool
  deriving DecidableEq, Repr

def readBeacon (b : Bytes) : Beacon :=
  { step := fieldAt b 8 8, start := fieldAt b 16 8, computeLen := fieldAt b 24 8, pause := bitOf (fieldAt b 6 2) 0 }

/-- R219; `region` is the source whose region was written. -/
def State.beaconFormatOk (s : State) (b : Bytes) (region : Nat) : Bool :=
  let k := readBeacon b
  fieldAt b 0 4 == 0x4253464F && fieldAt b 4 2 == 1 && fieldAt b 6 2 ≤ 1 && fieldAt b 32 2 == region
    && allZero (slice b 34 14) && allZero (slice b 56 8) && fieldAt b 48 8 == crc64 (b.take 48)
    && 1000000 ≤ k.computeLen && (!s.predicts || k.computeLen ≤ s.period) && k.start ≤ s.dtime + 60 * 10 ^ 9

/-- A refused beacon (R219). -/
def State.refuseBeacon (s : State) (st : Status) : State :=
  (s.flag fSTEP_ERR_BEACON_REFUSED).raise srcGATE st 0 noCtx .f0

def State.setHistory (s : State) (h : List (Nat × Nat)) (computeLen : Nat) : State :=
  let s := { s with clk := { s.clk with history := h.drop (h.length - 9), computeLen := computeLen } }
  s.putReg aSTEP_ANCHOR ((s.newest.map (·.2)).getD 0)

/-- A beacon that starts the history afresh (Table 9.2: NONE, ACQUIRING, HOLD). -/
def State.acquire (s : State) (k : Beacon) : State :=
  let s := ((s.setHistory [(k.step, k.start)] k.computeLen).putReg aSTEP_LAST k.step).setFld fSTEP_STATUS_EXTRAP 0
  (s.putReg aSTEP_PERIOD 0).setTimeline tlACQUIRING

def periodRange (p : Nat) : Bool := 5000000 ≤ p && p ≤ 60 * 10 ^ 9

/-- R222 against the newest history entry: the interval per step. -/
def State.intervalOk (s : State) (k : Beacon) : Bool :=
  match s.newest with
  | some n => n.2 < k.start && n.1 < k.step && periodRange ((k.start - n.2) / (k.step - n.1))
  | none => true

/-- ACQUIRING, beacon of last + 1. -/
def State.acquireNext (s : State) (k : Beacon) : State :=
  let h := s.clk.history ++ [(k.step, k.start)]
  let h := h.drop (h.length - 9)
  match periodOf h with
  | none => s
  | some p =>
    if !s.intervalOk k || !periodRange p then s.refuseBeacon stSTEP_PERIOD
    else
      let s := (s.setHistory h k.computeLen).putReg aSTEP_LAST k.step
      if s.fld fSTEP_CFG_ACQ_BEACONS ≤ h.length then (s.putReg aSTEP_PERIOD p).setTimeline tlLOCKED else s

/-- LOCKED and EXTRAPOLATING: the beacon of last + 1, or of a step extrapolated after the newest history entry (R225). -/
def State.acceptBeacon (s : State) (k : Beacon) : State :=
  let last := s.fld fSTEP_LAST_STEP
  match s.startOf k.step with
  | none => s
  | some t =>
    let jump := s.beaconTol < absDiff k.start t
    let h := s.clk.history ++ [(k.step, k.start)]
    let h := h.drop (h.length - 9)
    let p := (periodOf h).getD s.period
    if !s.intervalOk k || (!jump && !periodRange p) then s.refuseBeacon stSTEP_PERIOD
    else
      let s := if jump then
          let s := (s.setHistory [(k.step, k.start)] k.computeLen).setGates []
          (s.flag fSTEP_ERR_JUMP).raise srcGATE stSTEP_JUMP 0 noCtx .f0
        else (s.setHistory h k.computeLen).putReg aSTEP_PERIOD p
      let newLast := max last k.step
      let s := s.setFld fSTEP_STATUS_EXTRAP (newLast - k.step)
      let s := s.setTimeline (if k.pause ∧ k.step = last + 1 then tlPAUSED
        else if newLast = k.step then tlLOCKED else tlEXTRAPOLATING)
      if k.step = last + 1 then s.changeover k.step else s

/-- PAUSED: the beacon of last + 1 resumes the timeline, P kept. -/
def State.resumeBeacon (s : State) (k : Beacon) : State :=
  let s := (s.setHistory [(k.step, k.start)] k.computeLen).setTimeline tlLOCKED
  s.changeover k.step

/-- A well-formed beacon (R220, Table 9.2). (DEDUCED, log entry 52.) -/
def State.onBeacon (s : State) (k : Beacon) : State :=
  let last := s.fld fSTEP_LAST_STEP
  let tl := s.timeline
  match s.clk.history.find? (fun e => e.1 == k.step) with
  | some first =>
    if absDiff k.start first.2 ≤ s.beaconTol then { s with clk := { s.clk with duplicates := s.clk.duplicates + 1 } }
    else (s.flag fSTEP_ERR_SOURCE_CONFLICT).raise srcGATE stSTEP_SOURCE_CONFLICT 0 noCtx .f0
  | none =>
    if tl = tlNONE ∨ tl = tlHOLD then s.acquire k
    else if tl = tlACQUIRING then (if k.step = last + 1 then s.acquireNext k else s.acquire k)
    else if tl = tlPAUSED then (if k.step = last + 1 then s.resumeBeacon k else s.refuseBeacon stSTEP_SEQUENCE)
    else
      let afterNewest : Bool := match s.newest with | some n => decide (n.1 < k.step) | none => true
      if afterNewest ∧ k.step ≤ last + 1 then s.acceptBeacon k else s.refuseBeacon stSTEP_SEQUENCE

/-- Takes the first complete message of a kind of window. -/
def State.takeMessage (s : State) (kind : Nat) (c : Option Nat) : Option (RxDone × State) :=
  match s.net.messages.find? (fun m => m.kind == kind && (c.map (· == m.ctx)).getD true) with
  | some m => some (m, { s with net := { s.net with messages := s.net.messages.erase m } })
  | none => none

/-- BEACON_EXAMINE (R218). The device examines a step beacon when its message is complete, refusing it or
accepting it into the timeline. -/
def execBeaconExamine (s : State) : Step' :=
  act s (fun s => match s.takeMessage 0 none with
    | none => s
    | some (m, s) =>
      let b := s.winBytes 0 0 (m.addr / 64 * 64) 64
      if !s.beaconFormatOk b (m.addr / 512) then s.refuseBeacon stSTEP_BEACON_FORMAT else s.onBeacon (readBeacon b))

/-! ## Extrapolation (R221, R223) -/

/-- A step begins without its beacon, k in a row. -/
def State.extrapolated (s : State) (k : Nat) : State :=
  ((s.setTimeline tlEXTRAPOLATING).setFld fSTEP_STATUS_EXTRAP k).bump fSTEP_MISSED_COUNT_COUNT 1

/-- Too many steps without a beacon: step time holds, and every run faults. -/
def State.holdTime (s : State) : State :=
  let s := (((s.setTimeline tlHOLD).flag fSTEP_ERR_HOLD).putReg aSTEP_PERIOD 0).enterUngated
  s.runCtxs.foldl (fun s c => s.raise srcGATE stSTEP_HOLD 0 c .f2) s

/-- STEP_EXTRAPOLATE (R221). When T(last + 1) + GRACE passes without a beacon, the device extrapolates the
step or enters HOLD. -/
def execStepExtrapolate (s : State) : Step' :=
  act s (fun s =>
    let last := s.fld fSTEP_LAST_STEP
    let live := s.timeline = tlLOCKED ∨ s.timeline = tlEXTRAPOLATING
    match s.startOf (last + 1), s.newest with
    | some t, some n =>
      if !live ∨ s.dtime < t + s.grace then s
      else
        let k := last - n.1
        if k < s.fld fSTEP_CFG_EXTRAP_MAX then (s.extrapolated (k + 1)).changeover (last + 1) else s.holdTime
    | _, _ => s)

/-! ## Deadlines (R238) -/

/-- A row of an owned group of step t is not stamped. -/
def RunRec.unstamped (r : RunRec) (t : Nat) : Bool :=
  r.groups.any (fun g => g.step == t && !g.packed) || r.rows.any (fun w => w.step == t && w.phase != .stamped)

def State.passed (s : State) (t : Nat) : Bool :=
  match s.deadlineOf t with
  | some d => d ≤ s.dtime
  | none => false

/-- STEP_DEADLINE_CHECK (R238). At the close of the last TC2 gate before T(t), an unstamped row of step t
raises STEP_LATE, or STEP_DEADLINE after LATE_LIMIT steps. -/
def execStepDeadlineCheck (ctx : Fin 64) (step : Nat) (s : State) : Step' :=
  act s (fun s => match s.runOf ctx with
    | none => s
    | some r =>
      let limit := s.fld fSTEP_CFG_LATE_LIMIT
      if s.timeline = tlPAUSED ∨ step ≤ r.exempt ∨ !r.unstamped step ∨ !s.passed step then s
      else
        let due := s.passed (step + limit)
        let s := if limit = 0 ∨ r.late.contains step then s
          else (s.mapRun ctx (fun r => { r with late := r.late ++ [step] })).raise srcGATE stSTEP_LATE 0 ctx .f0
        if due ∧ !r.missed.contains step then
          (s.mapRun ctx (fun r => { r with missed := r.missed ++ [step] })).raise srcGATE stSTEP_DEADLINE 0 ctx .f2
        else s)

end Sys2Proof.Machine
end

