-- ==== Sys2Proof/Machine/Leg.lean ====
section
/-!
DEFINITION. The legs of a step: sample fetches (R72), dispatch of work items (R92, R196), the exchange (R196 to R202), the
packer (R204 to R209), and delivery to consumers (R210 to R216).
-/
namespace Sys2Proof.Machine

/-- Source ID of the packer (Table 17.1). (PRESUMED, log entry 44.) -/
def srcPACK : Nat := 0x000D

/-! ## Fetches (R72) -/

def execSampleFetchComplete (ctx : Fin 64) (step place : Nat) (damage1 damage2 : Bytes) (rebuilt : Option Bytes) (s : State) :
    Step' :=
  act s (fun s =>
    let d := s.ctxData ctx
    match d.run, d.manifestAt step with
    | some r, some m => match r.fetches.find? (fun f => f.step == step && f.place == place), s.mediaServes with
      | some f, true => match m.datasetOf f.index with
        | none => s
        | some ds =>
          let done := fun (s : State) => s.mapRun ctx (fun r => { r with fetches := r.fetches.filter (fun x => x != f) })
          let good := fun (s : State) (raw : Bytes) =>
            let body := raw.drop 32
            match s.allocBytes ctx body.length agFETCH with
            | .error _ => s
            | .ok (h, s) =>
              match s.itemFor ctx step place f.index h (raw.take 32) false (s.ownerSite ctx step) with
              | some w => (done ((s.writeHandle h 0 body).giveTo h agDISPATCH)).queueItem w
              | none => s
          match s.fetchSample ctx ds f.index damage1 damage2 rebuilt with
          | .clean x => good s x
          | .repaired x => good (s.raise srcMEDIA stSEAL_REPAIRED 0 ctx .f1) x
          | .lost => (done s).raise srcMEDIA stSEAL_UNRECOVERABLE 0 ctx .f2
      | _, _ => s
    | _, _ => s)

/-! ## Positions -/

/-- Position i of a step, as its exchange names it: consumer, group, row, place, group position. -/
structure PosRef where
  step : Nat
  consumer : Nat
  grp : Nat
  row : Nat
  place : Nat
  gpos : Nat
  deriving DecidableEq, Repr

def PackCfg.posRef (p : PackCfg) (t i : Nat) : PosRef :=
  { step := t, consumer := p.consumerOf i, grp := p.grpOf i, row := p.rowOf i, place := p.placeOf i, gpos := p.gposOf i }

/-- A group position of a group. -/
def PackCfg.groupPos (p : PackCfg) (g : GroupRec) (gpos : Nat) : PosRef :=
  { step := g.step, consumer := g.consumer, grp := g.grp, row := g.grp * p.group + gpos / p.q, place := gpos % p.q, gpos := gpos }

/-- Position i of a step from a group position. -/
def PackCfg.index (p : PackCfg) (x : PosRef) : Nat := (x.consumer * p.rows + x.row) * p.q + x.place

/-- The owner's ordinal of a group (R194). (UNVERIFIED, log entry 54.) -/
def RunCfg.ordinalOf (r : RunCfg) (rank u consumer grp : Nat) : Nat :=
  ((r.ownedPairs rank u).findIdx? (fun e => e == (consumer, grp))).getD 0

def GroupRec.is (g : GroupRec) (x : PosRef) : Bool := g.step == x.step && g.consumer == x.consumer && g.grp == x.grp

def RunRec.mapGroup (r : RunRec) (x : PosRef) (f : GroupRec → GroupRec) : RunRec :=
  { r with groups := r.groups.map (fun g => if g.is x then f g else g) }

/-! ## The exchange (R196 to R201) -/

/-- Bytes of a stored record beyond its header: the payload, and the seek table if there is one.
(DEDUCED, log entry 47.) -/
def State.recordSpan (s : State) (w : WorkItem) : Nat :=
  if bitOf w.flags 0 then
    w.seekOffset + 16 + 16 * leNat (s.readHandle w.inHandle (w.seekOffset + 4) 4)
  else w.storedLen

/-- KIND, the header bytes a stored record adds, the handle and the length of what an item sends. -/
def State.exchangeOf (s : State) (d : DoneItem) : LocalExch :=
  if d.item.compressedOnly then { kind := 1, handle := d.item.inHandle, len := s.recordSpan d.item, header := d.item.header }
  else if d.verdict = 1 then { kind := 2, handle := 0, len := 0, header := [] }
  else { kind := 0, handle := d.outHandle, len := d.outLen, header := [] }

def State.exchBytes (s : State) (x : LocalExch) : Bytes := x.header ++ s.readHandle x.handle 0 x.len

/-- The buffers of an item that its exchange does not use go back. -/
def State.freeOthers (s : State) (d : DoneItem) (used : Nat) : State :=
  let s := if d.item.inHandle = used then s else s.freeHandle d.item.inHandle
  if d.outHandle = used then s else s.freeHandle d.outHandle

/-- Sends an exchange: body first, header last with the peg increment; to this device itself without a transfer.
(DEDUCED, log entry 46.) -/
def State.sendExchange (s : State) (r : RunRec) (d : DoneItem) : State :=
  let c := d.item.ctx
  let p := r.cfg.pack
  let x := p.posRef d.item.step d.item.place
  let u := x.step - r.cfg.firstStep
  let rank := r.cfg.owner x.consumer u x.grp
  let ord := r.cfg.ordinalOf rank u x.consumer x.grp
  let peg := r.cfg.groupPeg u ord
  let e := s.exchangeOf d
  let gone := fun (s : State) => { s with work := { s.work with returned := s.work.returned.filter (fun y => y != d) } }
  if r.carries.contains rank then
    let s := (gone s).freeOthers d e.handle
    let s := s.giveTo e.handle agPACKER
    (s.mapRun c (fun r => r.mapGroup x (fun g => { g with localIn := Map.put g.localIn x.gpos e })) |>.addPeg c peg 1).2
  else match Map.find r.peers rank, Map.find r.peerKeys rank with
    | some qp, some key =>
      let body := s.exchBytes e
      let land := landingAddr (p.slotOf u) ord x.gpos
      let s := (gone s).freeOthers d e.handle
      let s := (List.range (ceilDiv body.length partSize)).foldl (fun s i =>
        s.post qp (.write (land (64 + i * partSize)) key none ((body.drop (i * partSize)).take partSize)) .plain) s
      s.post qp (.write (land 0) key (some (2 ^ 14 + peg)) (exchHeader e.kind x.step x.consumer x.row x.place body))
        (.exchange c x.step x.consumer x.grp x.gpos e.handle)
    | _, _ => s

/-- EXCHANGE_SEND (R200). The exchange service writes a prepared sample, stored record or drop notice to its
row owner, body before header, with the peg increment last.
(PRESUMED, log entry 33.) (DEDUCED, log entry 46.) -/
def execExchangeSend (what : ExchWhat) (s : State) : Step' :=
  act s (fun s => match what with
    | .call tile handle => s.onCall tile 0x13 1 (fun c =>
        match s.findChain (s.tileCtx tile) handle (some (agTILE, tile)) with
        | .error st => s.completeCall tile c 0 st
        | .ok _ => (s.giveTo handle agEXCHANGE).completeCall tile c 0 stOK)
    | .item ctx id =>
      match s.work.returned.find? (fun d => d.item.ctx == ctx.val && d.item.id == id && !d.item.ownerSite), s.runOf ctx with
      | some d, some r => s.sendExchange r d
      | _, _ => s)

/-! ## Records dispatched at the owner (R196) -/

/-- The landing key of a group position. -/
def RunCfg.landKey (r : RunCfg) (g : GroupRec) (gpos : Nat) : Nat :=
  landingAddr (r.pack.slotOf (g.step - r.firstStep)) g.ordinal gpos 0 / 2 ^ 31

/-- The landed exchange of a group position: its header and chain. -/
def State.landed (s : State) (r : RunRec) (g : GroupRec) (gpos : Nat) : Option (Bytes × LandChain) :=
  (Map.find r.landing (r.cfg.landKey g gpos)).map (fun l => (s.readHandle l.handle 0 64, l))

/-- R202 for a landed exchange. -/
def State.landedOk (s : State) (h : Bytes) (l : LandChain) (x : PosRef) : Bool :=
  exchOk h x.step x.consumer x.row x.place (s.handleSize l.handle - 64) (s.readHandle l.handle 64)

/-- Dispatches the stored record of one group position, once it has arrived and Throw has given its index.
(DEDUCED, log entry 47.) -/
def State.queueRecord (s : State) (c : Nat) (g : GroupRec) (gpos : Nat) : State :=
  match s.runOf c with
  | none => s
  | some r =>
    let x := r.cfg.pack.groupPos g gpos
    let queue := fun (s : State) (h index : Nat) (header : Bytes) =>
      match s.itemFor c g.step (r.cfg.pack.index x) index h header true false with
      | none => s
      | some w => (s.mapRun c (fun r => r.mapGroup x (fun g => { g with items := Map.put g.items gpos w.id }))).queueItem w
    if Map.has g.items gpos then s
    else match Map.find g.indices gpos, Map.find g.localIn gpos with
      | none, _ => s
      | some index, some e => if e.kind = 1 then queue (s.giveTo e.handle agDISPATCH) e.handle index e.header else s
      | some index, none => match s.landed r g gpos with
        | none => s
        | some (h, l) =>
          if fieldAt h 4 1 ≠ 1 ∨ !s.landedOk h l x then s
          else
            let raw := s.readHandle l.handle 64 (fieldAt h 24 8)
            match s.allocBytes c (raw.length - 32) agDISPATCH with
            | .error _ => s
            | .ok (k, s) => queue (s.writeHandle k 0 (raw.drop 32)) k index (raw.take 32)

/-- Dispatches the stored records that have arrived for a context's groups. -/
def State.queueArrived (s : State) (c : Nat) : State :=
  match s.runOf c with
  | none => s
  | some r => (r.groups.filter (fun g => !g.packed && s.ownerSite c g.step)).foldl (fun s g =>
      (List.range (r.cfg.pack.group * r.cfg.pack.q)).foldl (fun s i => s.queueRecord c g i) s) s

/-- WORK_ITEM_DISPATCH (R92). The hub writes a work item into a free slot of a READY tile holding the right
image, or hands it to the load split. (DESIGN CHOICE, log entry 65.) -/
def execWorkItemDispatch (ctx : Fin 64) (tile : Fin 96) (slot : Fin 64) (s : State) : Step' :=
  act s (fun s =>
    let s := s.queueArrived ctx
    let fits := s.seatedTo ctx tile && s.tileState tile == tsREADY && (s.openSlots tile).contains slot
      && !s.flt.withheld.contains tile.val && s.quarterRuns (quarterOf tile) && s.hasCredit (quarterOf tile) false 2
    let w := if fits then s.nextItem tile else s.work.queued.find? (fun w => w.ctx == ctx.val)
    match w with
    | none => s
    | some w =>
      if s.splits w then s.sendSplit w
      else if fits then ((s.unqueue w).putItem tile slot w).cross (quarterOf tile) false 2 else s)

/-! ## The packer (R202, R204 to R209) -/

/-- What the check of a position finds: its prepared bytes, an item that has not returned, a missing exchange, or one that
breaks R202. -/
inductive PosCheck where
  | ready (d : Prepared) (handles : List Nat)
  | waits
  | missing
  | broken
  deriving DecidableEq, Repr

/-- What a position gives the row, and the chains it leaves to release. -/
def PosCheck.row : PosCheck → Prepared
  | .ready d _ => d
  | _ => none

def PosCheck.handles : PosCheck → List Nat
  | .ready _ h => h
  | _ => []

/-- The result of a stored record's item at the owner. -/
def State.ownerResult (s : State) (c : Nat) (g : GroupRec) (gpos : Nat) : PosCheck :=
  match Map.find g.items gpos with
  | none => .waits
  | some id => match s.work.returned.find? (fun d => d.item.ctx == c && d.item.id == id && d.item.ownerSite) with
    | none => .waits
    | some d => .ready (if d.verdict = 1 then none else some (s.readHandle d.outHandle 0 d.outLen)) [d.outHandle, d.item.inHandle]

def State.checkPos (s : State) (c : Nat) (r : RunRec) (g : GroupRec) (gpos : Nat) : PosCheck :=
  match Map.find g.localIn gpos with
  | some e =>
    if e.kind = 1 then s.ownerResult c g gpos
    else .ready (if e.kind = 2 then none else some (s.exchBytes e)) [e.handle]
  | none => match s.landed r g gpos with
    | none => .missing
    | some (h, l) =>
      if !s.landedOk h l (r.cfg.pack.groupPos g gpos) then .broken
      else if fieldAt h 4 1 = 2 then .ready none [l.handle]
      else if fieldAt h 4 1 = 0 then .ready (some (s.readHandle l.handle 64 (fieldAt h 24 8))) [l.handle]
      else match s.ownerResult c g gpos with
        | .ready d hs => .ready d (l.handle :: hs)
        | w => w

/-- Token ID width of a step's run: that of the vocabularies bound to the image in effect (R153). -/
def State.idWidth (s : State) (c t : Nat) : Nat :=
  match (s.ctxData c).imageFor t with
  | none => 0
  | some i => match (Map.getD (s.ctxData c).binds i []).head? with
    | none => 0
    | some k => ((Map.find s.vocs k).map (fun b => fieldAt b.image 6 1)).getD 0

def State.failGroup (s : State) (c : Nat) (x : PosRef) : State :=
  s.mapRun c (fun r => r.mapGroup x (fun g => { g with failed := true }))

/-- Buffers of class L for each row; none: the context's cap leaves no room now.
(DESIGN CHOICE, log entry 29.) -/
def State.rowBuffers (s : State) (c : Nat) : List (Bytes × Bytes) → Option (List Nat × State)
  | [] => some ([], s)
  | x :: xs => match s.alloc c 2 (ceilDiv (64 + x.2.length) (bufSize 2)) agPACKER 0 with
    | .error _ => none
    | .ok (h, s) => (State.rowBuffers s c xs).map (fun e => (h :: e.1, e.2))

/-- The rows of a checked group, its peg back at 0. (DEDUCED, log entry 47.) -/
def State.packRows (s : State) (c : Nat) (r : RunRec) (g : GroupRec) (ds : List Prepared) (hs : List Nat) : State :=
  let p := r.cfg.pack
  let u := g.step - r.cfg.firstStep
  let x := p.groupPos g 0
  let rows := packGroup p (s.idWidth c g.step) g.step u g.consumer (g.grp * p.group) ds
  match s.rowBuffers c rows with
  | none => s
  | some (bufs, s) =>
    let recs : List RowRec := ((List.range rows.length).zip (rows.zip bufs)).map (fun e =>
      { step := g.step, consumer := g.consumer, row := g.grp * p.group + e.1, seq := u * p.rows + g.grp * p.group + e.1,
        header := e.2.1.1, payload := e.2.1.2, phase := .packed, pend := 0, handle := e.2.2 })
    let ids := g.items.vals
    let s := { s with work := { s.work with returned := s.work.returned.filter (fun d =>
      !(d.item.ctx == c && d.item.ownerSite && ids.contains d.item.id)) } }
    let keys := (List.range (p.group * p.q)).map (r.cfg.landKey g)
    let s := s.mapRun c (fun r => { (r.mapGroup x (fun g => { g with packed := true, localIn := [], items := [], handles := hs }))
      with rows := r.rows ++ recs, landing := keys.foldl Map.del r.landing })
    s.setPeg c (r.cfg.groupPeg u g.ordinal) 0

/-- A second exchange for a packed position (R202). -/
def State.repeated (s : State) (r : RunRec) (g : GroupRec) : Bool :=
  (List.range (r.cfg.pack.group * r.cfg.pack.q)).any (fun i => match s.landed r g i with
    | some (h, _) => fieldAt h 0 4 == 0x4858464F && fieldAt h 8 8 == g.step
    | none => false)

/-- PACKER_START (R204). The packer checks a group's headers and packs its rows once its peg reaches the
expected count and its owner items have returned. (DEDUCED, log entry 47.) -/
def execPackerStart (ctx : Fin 64) (step consumer grp : Nat) (shadow : Residue) (s : State) : Step' :=
  act s (fun s =>
    let s := s.queueArrived ctx
    let c := ctx.val
    match s.runOf c with
    | none => s
    | some r => match r.groups.find? (fun g => g.step == step && g.consumer == consumer && g.grp == grp) with
      | none => s
      | some g =>
        let p := r.cfg.pack
        let x := p.groupPos g 0
        let n := p.group * p.q
        let count := ((s.peg c (r.cfg.groupPeg (step - r.cfg.firstStep) g.ordinal)).map (·.value)).getD 0
        if g.failed then s
        else if g.packed then
          (if s.repeated r g then (s.failGroup c x).raise srcPACK stEXCH_DUPLICATE 0 c .f2 else s)
        else if count < n then s
        else if n < count then (s.failGroup c x).raise srcPACK stEXCH_DUPLICATE 0 c .f2
        else
          let checks := (List.range n).map (s.checkPos c r g)
          if checks.any (fun e => decide (e = .broken)) then (s.failGroup c x).raise srcPACK stEXCH_CHECK 0 c .f2
          else if checks.any (fun e => decide (e = .missing)) then (s.failGroup c x).raise srcPACK stEXCH_DUPLICATE 0 c .f2
          else if checks.any (fun e => decide (e = .waits)) then s
          else
            let ds := checks.map PosCheck.row
            let hs := (checks.map PosCheck.handles).flatten
            let miss := fun (s : State) (n : Nat) => s.bump fPACK_SHADOW_COUNT_COUNT n
            match shadow with
            | .agrees => s.packRows c r g ds hs
            | .agreesAgain => ((miss s 1).raise srcPACK stPACK_SHADOW 0 c .f1).packRows c r g ds hs
            | .disagrees =>
              let s := ((miss s 2).raise srcPACK stPACK_SHADOW 0 c .f1).flag fPACK_STATUS_SHADOW_FAILED
              (s.failGroup c x).raise srcPACK stPACK_SHADOW 0 c .f4)

/-! ## Delivery (R211 to R213) -/

/-- The consumer record, delivery queue pair and credit of an owned consumer. -/
def RunRec.consumerRec (r : RunRec) (c : Nat) : Option ConsumerRec := r.cfg.consumers.find? (fun x => x.num == c)

def Credit.new : Credit := { released := none, asked := 0, reading := false, readAt := 0 }

def RunRec.credit (r : RunRec) (c : Nat) : Credit := Map.getD r.credits c Credit.new

/-- R212: the latest value read lets the row be written. -/
def RunRec.creditOk (r : RunRec) (w : RowRec) : Bool :=
  match (r.credit w.consumer).released, r.consumerRec w.consumer with
  | some v, some k => w.seq < v + k.slots
  | _, _ => false

/-- Rows of a consumer that wait for credit. -/
def RunRec.blocked (r : RunRec) (c : Nat) : List RowRec :=
  r.rows.filter (fun w => w.consumer == c && w.phase == .packed && !r.creditOk w)

/-- Reads the credit word. -/
def State.readCredit (s : State) (c : Nat) (r : RunRec) (consumer : Nat) : State :=
  match Map.find r.delivery consumer, r.consumerRec consumer with
  | some qp, some k =>
    let top := ((r.blocked consumer).map (·.seq)).foldl max 0
    (s.mapRun c (fun r => { r with credits := Map.put r.credits consumer { r.credit consumer with
      asked := top + 1, reading := true, readAt := s.dtime } })).post qp (.read k.creditAddr k.creditKey 8) (.credit c consumer)
  | _, _ => s

/-- CREDIT_READ (R212). The owner reads a consumer's credit word by RDMA READ when a row's sequence is not
below RELEASED + SLOTS. -/
def execCreditRead (ctx : Fin 64) (consumer : Nat) (s : State) : Step' :=
  act s (fun s => match s.runOf ctx with
    | none => s
    | some r =>
      let k := r.credit consumer
      if !k.reading && (r.blocked consumer).any (fun w => k.asked ≤ w.seq) then s.readCredit ctx r consumer else s)

/-- CREDIT_POLL_TIMER (R212). While blocked, the owner reads the credit word again every CREDIT_POLL ns. -/
def execCreditPollTimer (ctx : Fin 64) (consumer : Nat) (s : State) : Step' :=
  act s (fun s => match s.runOf ctx with
    | none => s
    | some r =>
      let k := r.credit consumer
      if !k.reading && !(r.blocked consumer).isEmpty && 0 < k.asked && k.readAt + r.cfg.pack.creditPoll ≤ s.dtime then
        s.readCredit ctx r consumer
      else s)

/-- The slot address of a row (R211). -/
def ConsumerRec.slotOf (k : ConsumerRec) (seq : Nat) : Nat := k.ringAddr + seq % k.slots * k.stride

def RunRec.mapRow (r : RunRec) (w : RowRec) (f : RowRec → RowRec) : RunRec :=
  { r with rows := r.rows.map (fun x => if x = w then f x else x) }

/-- Posts the writes of a row's next phase: (offset in the slot, bytes) each. -/
def State.writeRow (s : State) (c : Nat) (r : RunRec) (w : RowRec) (phase : RowPhase) (code : Nat) (ps : List (Nat × Bytes)) :
    State :=
  match Map.find r.delivery w.consumer, r.consumerRec w.consumer with
  | some qp, some k =>
    let s := s.mapRun c (fun r => r.mapRow w (fun x => { x with phase := phase, pend := ps.length }))
    ps.foldl (fun s e => s.post qp (.write (k.slotOf w.seq + e.1) k.ringKey none e.2) (.rowPart c w.step w.consumer w.row code)) s
  | _, _ => s

/-- Runs an operation on a row of a context's run. -/
def State.onRow (s : State) (c step consumer row : Nat) (body : RunRec → RowRec → State) : State :=
  match s.runOf c with
  | none => s
  | some r => match r.rows.find? (fun w => w.step == step && w.consumer == consumer && w.row == row) with
    | none => s
    | some w => body r w

/-- ROW_PAYLOAD_WRITE (R213). The owner writes a row's payload into the consumer's slot inside TC2 gates. -/
def execRowPayloadWrite (ctx : Fin 64) (step consumer row : Nat) (s : State) : Step' :=
  act s (fun s => s.onRow ctx step consumer row (fun r w =>
    if w.phase ≠ .packed ∨ !r.creditOk w then s
    else s.writeRow ctx r w .payload 0 ((List.range (max 1 (ceilDiv w.payload.length partSize))).map (fun i =>
      (64 + i * partSize, (w.payload.drop (i * partSize)).take partSize)))))

/-- ROW_HEADER_WRITE (R213). Once every payload write is acknowledged, the owner writes slot header bytes 0 to
55. -/
def execRowHeaderWrite (ctx : Fin 64) (step consumer row : Nat) (s : State) : Step' :=
  act s (fun s => s.onRow ctx step consumer row (fun r w =>
    if w.phase = .payload ∧ w.pend = 0 then s.writeRow ctx r w .header 1 [(0, w.header)] else s))

/-- ROW_STAMP_WRITE (R213). Once the header is acknowledged, the owner writes STAMP. -/
def execRowStampWrite (ctx : Fin 64) (step consumer row : Nat) (s : State) : Step' :=
  act s (fun s => s.onRow ctx step consumer row (fun r w =>
    if w.phase = .header ∧ w.pend = 0 then s.writeRow ctx r w .stamp 2 [(56, toLE 8 (w.seq + 1))] else s))

/-- Every row of the step is stamped: its groups and rows are dropped, and their buffers freed. -/
def State.stepDone (s : State) (c : Nat) (r : RunRec) (step : Nat) : State :=
  let hs := ((r.groups.filter (fun g => g.step == step)).map (·.handles)).flatten
    ++ (r.rows.filter (fun w => w.step == step)).map (·.handle)
  let s := s.mapRun c (fun r => { r with
    reported := step :: r.reported
    groups := r.groups.filter (fun g => g.step != step)
    rows := r.rows.filter (fun w => w.step != step) })
  hs.foldl (fun s h => s.freeHandle h) s

/-- R216: every owned group of a planned step is stamped (a device that owns none reports at once).
(DEDUCED, log entry 47.) -/
def execStepStampedReport (ctx : Fin 64) (step : Nat) (s : State) : Step' :=
  act s (fun s => match s.runOf ctx with
    | none => s
    | some r =>
      if r.aborted.isSome ∨ step < r.nextCommit ∨ r.nextPlan ≤ step ∨ r.reported.contains step ∨ r.unstamped step then s
      else (s.stepDone ctx r step).toKeeper lkSTEP_REPORT ctx r.cfg.runId step 0)

end Sys2Proof.Machine
end

