-- ==== Sys2Proof/Machine/RunOps.lean ====
section
/-!
DEFINITION. What a run opens on the network (R196, R210, R252, R375): its queue pairs to peers and consumers; and the
recovery links and queues of a pod (R302).
-/
namespace Sys2Proof.Machine

/-! Traffic classes of Table 9.1 that the device opens queue pairs on. -/
def tcCONTROL : Nat := 0
def tcEXCHANGE : Nat := 1
def tcDELIVERY : Nat := 2
def tcLEDGER : Nat := 3

/-- Opens and connects a queue pair with the defaults of Table 10.4 on a port the device picks; PSNs and the peer's number
come from K_conn and the peer. -/
def State.openLink (s : State) (kind : QpKind) (cls ctx peer : Nat) (gid : Bytes) (qpn : Option Nat) : Option (Nat × State) :=
  let port := s.free 64 % s.hw.variant.ports
  match s.used.openQp (cls == tcCONTROL || (kind == .client && ctx == 0)) kind cls ctx 0 port 0 4096 7 7 16 16 with
  | .error _ => none
  | .ok (i, s) => match s.qp i with
    | none => none
    | some q =>
      let n := qpn.getD (s.free 24)
      let s := s.used
      let a := s.free 24
      let s := s.used
      let q := q.connect gid n a (s.free 24)
      some (i, s.used.setQp i { q with peerRank := peer })

/-- Queue pairs to every other device of a run, and its window keys there.
(DESIGN CHOICE, log entry 50.) -/
def State.openPeers (s : State) (c : Nat) : State :=
  match s.runOf c with
  | none => s
  | some r => (r.cfg.ranks.filter (fun k => !r.carries.contains k)).foldl (fun s k =>
      match s.openLink .peer tcCONTROL c (r.carrier k) (toLE 16 (s.free 128)) none with
      | none => s
      | some (i, s) => match s.openLink .peer tcEXCHANGE c (r.carrier k) (toLE 16 (s.free 128)) none with
        | none => s
        | some (j, s) => s.used.mapRun c (fun r => { r with
            peers0 := Map.put r.peers0 k i
            peers := Map.put r.peers k j
            peerKeys := Map.put r.peerKeys k (s.free 32) })) s

/-- Queue pairs to the consumers this device owns groups of: QPN_BASE + j for owner j (R210).
(DESIGN CHOICE, log entry 50.) -/
def State.openConsumers (s : State) (c : Nat) : State :=
  match s.runOf c with
  | none => s
  | some r => r.cfg.consumers.foldl (fun s k =>
      match (List.range r.cfg.pack.owners).find? (fun j => r.carries.contains (r.cfg.ownerAt k.num j)) with
      | none => s
      | some j => match s.openLink .consumer tcDELIVERY c 0 k.gid (some (k.qpnBase + j)) with
        | none => s
        | some (i, s) => s.mapRun c (fun r => { r with delivery := Map.put r.delivery k.num i })) s

/-! ## Recovery links (R302) -/

/-- This device's link to a media-bearing member. -/
def State.openRecoveryLink (s : State) (peer : Nat) : State :=
  match s.openLink .client tcLEDGER 0 peer (toLE 16 (s.free 128)) none with
  | none => s
  | some (i, s) =>
    let l : RecLink := { qp := i, slot := 1, seq := 0, windowKey := s.free 32 }
    s.used.setMedia { s.media with links := Map.put s.media.links peer l }

/-- A member's recovery queue here: MODE 1, 8 slots of CTX0 below the top of the slot space.
(DESIGN CHOICE, log entry 39.) -/
def State.openRecoveryQueue (s : State) (peer : Nat) : State :=
  match s.openLink .client tcLEDGER 0 peer (toLE 16 (s.free 128)) none, firstFree 1024 (s.free 10) (Map.has s.ledger) with
  | some (i, s), some n =>
    let k := (s.ledger.filter (fun e => e.2.recovery)).length
    let q : LedgerQueue := {
      ctx := 0, mode := 1, base := 16384 - 8 * (k + 1), count := 8, qp := i, cplAddr := s.free 64, cplKey := s.free 32,
      cplEntries := 256, recovery := true, expected := 0, posted := 0, written := 0, cmds := [], deferred := [],
      deferredSince := false, reset := none, cpls := [] }
    s.used.setQueue n q
  | _, _ => s

/-- A carrier takes the fragments of a rank: unread until pod-level recovery rebuilds them (R415).
(DESIGN CHOICE, log entry 39.) -/
def State.adoptFragments (s : State) (c rank : Nat) : State :=
  match (s.ctxData c).manifestAt s.lastStep with
  | none => s
  | some m =>
    let fresh := (m.datasets.map (fun d =>
      let n := d.extents.length
      ((List.range (ceilDiv n 10)).map (fun st =>
        ((List.range 12).filter (fun f => d.holder st f == rank && (10 ≤ f || st * 10 + f < n))).map (fun f =>
          ({ tag := s.free 64, stripe := st, num := f, ctx := c, dataset := d.id, gen := d.gen, pods := d.pods, extents := n,
             data := zeros (2 ^ d.sizeLog2), lost := [(0, 2 ^ d.sizeLog2)] } : Frag)))).flatten)).flatten
    let fresh := fresh.filter (fun f => (s.fragAt c f.dataset f.gen f.stripe f.num).isNone)
    s.used.setMedia { s.media with
      frags := s.media.frags ++ fresh
      lostQueue := s.media.lostQueue ++ fresh.map (fun f => (f.tag, f.stripe, f.num, 0, f.data.length)) }

end Sys2Proof.Machine
end

