-- ==== Sys2Proof/Machine/Lantern.lean ====
section
/-!
DEFINITION. Lantern: heartbeats and loss (R402 to R404), views and agreement (R405 to R408), joining a pod (R302, R408).
-/
namespace Sys2Proof.Machine

/-- No standby keeper. -/
def noKeeper : Nat := 0xFFFF

/-! ## Heartbeats (R402) -/

/-- Keepers of the other pods. -/
def State.otherKeepers (s : State) : List Nat :=
  ((s.lan.view.keepers.filter (fun e => e.1 != s.ownPod)).map (fun e => [e.2.1, e.2.2])).flatten.filter (· != noKeeper)

def State.isKeeper (s : State) : Bool := s.isActive || s.isStandby

/-- The peers whose heartbeats this device watches: its keepers; for a keeper, its members and the other keepers. -/
def State.watched (s : State) : List Nat :=
  let ps := if s.isKeeper then s.lan.view.members s.ownPod ++ s.otherKeepers else s.ownKeepers
  ps.filter (fun p => p != s.self && p != noKeeper)

/-- HEARTBEAT_SEND (R402). Every 250 µs each device sends HEARTBEAT to its keepers, and keepers to their
members and to other keepers. -/
def execHeartbeatSend (s : State) : Step' :=
  act s (fun s =>
    if !s.lan.joined ∨ s.dtime < s.lan.beatAt + 250000 then s
    else
      let flags := (if s.lan.fwAlive then 1 else 0) + (if s.isKeeper then 2 else 0) + (if s.isCoord then 4 else 0)
      let dests := (s.ownKeepers ++ (if s.isKeeper then s.lan.view.members s.ownPod ++ s.otherKeepers else [])).eraseDups
      let s := s.sendAll (dests.filter (· != noKeeper)) lkHEARTBEAT 0xFF s.lastStep flags 0 []
      s.setLan { s.lan with beatAt := s.dtime })

def PeerRec.fresh (now : Nat) : PeerRec := { state := .alive, lastBeat := now, since := now }

def State.peerRec (s : State) (p : Nat) : PeerRec := Map.getD s.lan.peers p (PeerRec.fresh 0)

def State.setPeer (s : State) (p : Nat) (r : PeerRec) : State := s.setLan { s.lan with peers := Map.put s.lan.peers p r }

/-- Table 18.3, the HEARTBEAT rows. (DESIGN CHOICE, log entry 48.) -/
def PeerRec.beat (r : PeerRec) (now : Nat) (fw : Bool) : PeerRec :=
  match r.state, fw with
  | .alive, true => { r with lastBeat := now }
  | .alive, false => { state := .hung, lastBeat := now, since := now }
  | .hung, true => { state := .alive, lastBeat := now, since := now }
  | .hung, false => { r with lastBeat := now }
  | .reported, _ => { r with lastBeat := now }
  | .excluded, _ => r

/-- HEARTBEAT_RECEIVE (R404). A heartbeat restarts the peer's silence timer and moves it between ALIVE and
HUNG by FW_ALIVE. -/
def execHeartbeatReceive (m : LanMsg) (s : State) : Step' :=
  act s (fun s =>
    if !s.lan.joined ∨ m.kind ≠ lkHEARTBEAT then s
    else s.setPeer m.sender ((Map.getD s.lan.peers m.sender (PeerRec.fresh s.dtime)).beat s.dtime (bitOf m.arg1 0)))

/-! ## Loss (R403 to R406) -/

def State.isLost (s : State) (p : Nat) : Bool :=
  match (s.peerRec p).state with
  | .reported => true | .excluded => true | _ => false

/-- The coordinator as this device sees it: the first keeper it does not hold lost, in the lowest-numbered pod (R405). -/
def State.coordNow (s : State) : Option Nat :=
  (((s.lan.view.keepers.map (fun e => [e.2.1, e.2.2])).flatten).filter (fun p => p != noKeeper && !s.isLost p)).head?

/-- The coordinator gathers a report. -/
def State.gather (s : State) (pos reason : Nat) : State :=
  if !s.lan.view.live.contains pos || s.lan.reports.any (fun e => e.1 == pos) then s
  else s.setLan { s.lan with reports := s.lan.reports ++ [(pos, reason)], gatherAt := some (s.lan.gatherAt.getD s.dtime) }

/-- A peer is lost: REPORTED, LOSS_REPORT to the coordinator, a takeover of the coordinator's role where R405 gives it. -/
def State.losePeer (s : State) (pos reason : Nat) : State :=
  let s := s.setPeer pos { s.peerRec pos with state := .reported, since := s.dtime }
  let s := s.setLan { s.lan with waitCommit := some (s.lan.waitCommit.getD s.dtime) }
  let s := if s.coordNow = some s.self then s.setFld fNET_LAN_STATUS_COORDINATOR 1 else s
  if s.isCoord then s.gather pos reason
  else match s.coordNow with
    | some c => s.sendLan c lkLOSS_REPORT 0xFF pos reason 0 []
    | none => s

def PeerRec.watchable (r : PeerRec) : Bool :=
  match r.state with
  | .alive => true | .hung => true | _ => false

/-- PEER_SILENCE (R403). 2 ms without a heartbeat marks the peer lost and sends a LOSS_REPORT. -/
def execPeerSilence (pos : Nat) (s : State) : Step' :=
  act s (fun s =>
    let p := s.peerRec pos
    if s.lan.joined && s.watched.contains pos && p.watchable && p.lastBeat + 2000000 ≤ s.dtime then s.losePeer pos 0 else s)

/-- DEVICE_LOST_RECEIVE (R403). A DEVICE_LOST notice marks the peer lost and sends a LOSS_REPORT. -/
def execDeviceLostReceive (m : LanMsg) (s : State) : Step' :=
  act s (fun s =>
    if m.kind == lkDEVICE_LOST && s.lan.joined && s.watched.contains m.sender && (s.peerRec m.sender).watchable then
      s.losePeer m.sender 3
    else s)

/-- HANG_TIMEOUT (R404). FW_ALIVE clear for HANG_MS makes the keeper report the peer with reason hang. -/
def execHangTimeout (pos : Nat) (s : State) : Step' :=
  act s (fun s =>
    let p := s.peerRec pos
    if s.isKeeper && s.watched.contains pos && decide (p.state = .hung)
        && p.since + s.fld fNET_LAN_CFG_HANG_MS * 1000000 ≤ s.dtime then s.losePeer pos 1
    else s)

/-- LOSS_REPORT_RECEIVE (R406). The coordinator gathers a loss report. -/
def execLossReportReceive (m : LanMsg) (s : State) : Step' :=
  act s (fun s => if m.kind = lkLOSS_REPORT ∧ s.isCoord = true then s.gather m.arg0 m.arg1 else s)

/-- WATCHDOG_KICK (R404). The management processor kicks its watchdog, which sets FW_ALIVE again after it was
cleared. -/
def execWatchdogKick (s : State) : Step' :=
  act s (fun s => s.setLan { s.lan with fwAlive := true, fwKicked := s.dtime })

/-- WATCHDOG_EXPIRY (R404). 50 ms without a management-processor watchdog kick clears FW_ALIVE. -/
def execWatchdogExpiry (s : State) : Step' :=
  act s (fun s => if s.lan.fwKicked + 50000000 ≤ s.dtime then s.setLan { s.lan with fwAlive := false } else s)

/-! ## Proposals (R406) -/

/-- The live member of a pod with the lowest index that the test picks. -/
def lowestMember (live : List Nat) (pod : Nat) (p : Nat → Bool) : Option Nat :=
  (live.filter (fun x => podOf x == pod && p x)).foldl (fun a x => match a with
    | some y => some (min x y)
    | none => some x) none

/-- The keepers of a pod once positions are removed; none: the pod has no live member.
(DESIGN CHOICE, log entry 48.) -/
def nextKeepers (live : List Nat) (e : Nat × Nat × Nat) : Option (Nat × Nat × Nat) :=
  let on := fun (p : Nat) => p != noKeeper && live.contains p
  let active := if on e.2.1 then some e.2.1 else if on e.2.2 then some e.2.2 else lowestMember live e.1 (fun _ => true)
  active.map (fun a =>
    let standby := if on e.2.2 && e.2.2 != a then some e.2.2 else lowestMember live e.1 (fun x => x != a)
    (e.1, a, standby.getD noKeeper))

def View.without (v : View) (removed : List Nat) : View :=
  let live := v.live.filter (fun p => !removed.contains p)
  { num := v.num + 1, live := live, keepers := v.keepers.filterMap (nextKeepers live) }

/-- The body of VIEW_PROPOSE and VIEW_COMMIT: positions removed, 0xFFFF, then each pod with its keepers. -/
def viewBody (removed : List Nat) (v : View) : Bytes :=
  (removed.map (toLE 2)).flatten ++ toLE 2 0xFFFF
    ++ (v.keepers.map (fun e => toLE 2 e.1 ++ toLE 2 e.2.1 ++ toLE 2 e.2.2)).flatten

/-- u16 words up to a 0xFFFF, and the bytes after it. -/
def takeWords : Nat → Bytes → List Nat × Bytes
  | 0, b => ([], b)
  | n + 1, b =>
    if b.length < 2 then ([], [])
    else if fieldAt b 0 2 = 0xFFFF then ([], b.drop 2)
    else
      let (ws, r) := takeWords n (b.drop 2)
      (fieldAt b 0 2 :: ws, r)

def readKeepers : Nat → Bytes → List (Nat × Nat × Nat)
  | 0, _ => []
  | n + 1, b => if b.length < 6 then [] else (fieldAt b 0 2, fieldAt b 2 2, fieldAt b 4 2) :: readKeepers n (b.drop 6)

/-- The view that a body makes of this one; pods it does not name keep their keepers. -/
def View.apply (v : View) (num : Nat) (body : Bytes) : View × List Nat :=
  let (removed, rest) := takeWords body.length body
  let ks := readKeepers rest.length rest
  let live := v.live.filter (fun p => !removed.contains p)
  let pods := v.keepers.map (·.1)
  let kept := v.keepers.filter (fun e => !ks.any (fun k => k.1 == e.1))
  let all := kept ++ ks
  let keepers := (pods.map (fun p => all.filter (fun e => e.1 == p))).flatten.filter (fun e => live.contains e.2.1)
  ({ num := num, live := live, keepers := keepers }, removed)

def View.actives (v : View) : List Nat := v.keepers.map (·.2.1)

/-! ## A committed view -/

/-- A new active keeper resumes from its valid slot (R419). -/
def State.resumeKeeper (s : State) : State :=
  let image := ((s.lan.validSlot).bind (Map.find s.lan.slots)).getD []
  if image.isEmpty then s.setLan { s.lan with dirty := true }
  else s.setLan { s.lan with journal := readJournal image, journalSeq := fieldAt image 8 8, dirty := true }

/-- Resends every message that waits for an ACK, to the active keeper of now (R418). -/
def State.resendOutbox (s : State) (p : OutMsg → Bool) : State :=
  let due := s.lan.outbox.filter p
  let s := due.foldl (fun s o => match s.resolve o.dest with
    | some d => s.transmit d o.msg
    | none => s) s
  s.setLan { s.lan with outbox := s.lan.outbox.map (fun o => if p o then { o with sentAt := s.dtime } else o) }

/-- Runs of which a removed position carries a rank. -/
def State.runsOf (s : State) (removed : List Nat) : List Nat :=
  s.runCtxs.filter (fun c => match s.runOf c with
    | some r => r.devices.any (removed.contains ·)
    | none => false)

/-- Mixing records whose entry device left the view, or whose run's abort completed, before a decision came (R401). -/
def State.decideLate (s : State) (c : Nat) (p : MixPending → Bool) : State :=
  if !s.isCoord then s
  else
    let late := ((s.ctxData c).mixing.filter p).map (·.seq)
    s.setLan { s.lan with coord := Map.update s.lan.coord c CoordRun.empty (fun k =>
      { k with decisions := late.foldl (fun m q => if Map.has m q then m else Map.put m q stMIX_LATE) k.decisions }) }

/-- A device takes a committed view (R406, R408, Table 18.3). -/
def State.takeView (s : State) (v : View) (removed : List Nat) : State :=
  let wasActive := s.isActive
  let oldStandby := s.lan.view.standby s.ownPod
  let s := s.setLan { s.lan with view := v, waitCommit := none, noQuorum := false, proposal := none,
                                 reports := s.lan.reports.filter (fun e => v.live.contains e.1) }
  let s := s.showRole
  if !v.live.contains s.self then
    ((s.setLan { s.lan with joined := false }).flag fNET_LAN_ERR_EXCLUDED).raise srcROCE stLAN_EXCLUDED 0 noCtx .f4
  else
    let s := s.setLan { s.lan with peers := Map.mapVals s.lan.peers (fun p r =>
      if removed.contains p then { r with state := .excluded }
      else match r.state with
        | .reported => PeerRec.fresh s.dtime
        | _ => r) }
    let s := removed.foldl (fun s p =>
      ((s.flag fNET_LAN_ERR_PEER_LOST).bump fNET_LAN_LOST_COUNT_LOST 1).raise srcROCE stLAN_PEER_LOST p noCtx .f0) s
    let s := if s.isActive && !wasActive then s.resumeKeeper
      else if s.isActive && s.lan.view.standby s.ownPod != oldStandby then s.setLan { s.lan with dirty := true } else s
    let s := s.resendOutbox (fun _ => true)
    let s := s.runCtxs.foldl (fun s c => s.decideLate c (fun m => removed.contains m.source)) s
    (s.runsOf removed).foldl (fun s c => s.legAbort c stLAN_PEER_LOST) s

/-- Keepers relay a commit to the members of their pod, a removed one included.
(DESIGN CHOICE, log entry 48.) -/
def State.relayView (s : State) (old : View) (num : Nat) (body : Bytes) : State :=
  s.sendAll (old.members s.ownPod) lkVIEW_COMMIT 0xFF num 0 0 body

/-- The coordinator commits once the active keepers of more than half of the pods have acknowledged. -/
def State.tryCommit (s : State) : State :=
  match s.lan.proposal with
  | none => s
  | some p =>
    if p.acks.length * 2 ≤ s.lan.view.keepers.length then s
    else
      let body := viewBody p.removed p.view
      let old := s.lan.view
      let s := s.sendAll (p.view.actives ++ p.removed).eraseDups lkVIEW_COMMIT 0xFF p.view.num 0 0 body
      (s.relayView old p.view.num body).takeView p.view p.removed

/-- VIEW_PROPOSE (R406). After gathering reports for 100 µs, the coordinator proposes VIEW + 1 with
replacement keepers. -/
def execViewPropose (s : State) : Step' :=
  act s (fun s => match s.lan.gatherAt, s.lan.proposal with
    | some t, none =>
      if !s.isCoord ∨ s.dtime < t + 100000 then s
      else
        let removed := (s.lan.reports.map (·.1)).filter (s.lan.view.live.contains ·)
        let v := s.lan.view.without removed
        let s := s.setLan { s.lan with gatherAt := none, proposal := some { view := v, removed := removed, acks := [s.ownPod] } }
        (s.sendAll v.actives lkVIEW_PROPOSE 0xFF v.num 0 0 (viewBody removed v)).tryCommit
    | _, _ => s)

/-- VIEW_PROPOSE_RECEIVE (R406). An active keeper answers a proposal with VIEW_ACK. -/
def execViewProposeReceive (m : LanMsg) (s : State) : Step' :=
  act s (fun s =>
    if m.kind ≠ lkVIEW_PROPOSE ∨ !s.lan.joined ∨ m.arg0 ≠ s.lan.view.num + 1 then s
    else
      let (v, _) := s.lan.view.apply m.arg0 m.body
      if v.active s.ownPod = some s.self then s.sendLan m.sender lkVIEW_ACK 0xFF m.arg0 0 0 [] else s)

/-- VIEW_ACK_RECEIVE (R406). The coordinator commits the view once acks arrive from more than half of the
pods. -/
def execViewAckReceive (m : LanMsg) (s : State) : Step' :=
  act s (fun s => match s.lan.proposal with
    | some p =>
      if m.kind ≠ lkVIEW_ACK ∨ m.arg0 ≠ p.view.num then s
      else (s.setLan { s.lan with proposal := some { p with acks := (p.acks ++ [podOf m.sender]).eraseDups } }).tryCommit
    | none => s)

/-- VIEW_COMMIT_RECEIVE (R406). A device takes the committed view, relays it, changes roles, and triggers leg
aborts and resends. -/
def execViewCommitReceive (m : LanMsg) (s : State) : Step' :=
  act s (fun s =>
    if m.kind ≠ lkVIEW_COMMIT ∨ !s.lan.joined ∨ m.arg0 ≤ s.lan.view.num then s
    else
      let old := s.lan.view
      let (v, removed) := old.apply m.arg0 m.body
      let keeper := s.isKeeper || v.isKeeper s.self
      let s := if keeper then s.relayView old m.arg0 m.body else s
      s.takeView v removed)

/-- R407: 6 ms without a commit stop TC1, TC2 and TC3 (State.noQuorum, checked where frames start). -/
def execQuorumTimeout (s : State) : Step' :=
  act s (fun s => match s.lan.waitCommit with
    | none => s
    | some t =>
      if s.dtime < t + 6000000 then s
      else
        let s := (s.setLan { s.lan with waitCommit := none, noQuorum := true }).flag fNET_LAN_ERR_NO_QUORUM
        s.runCtxs.foldl (fun s c => s.raise srcROCE stLAN_NO_QUORUM 0 c .f2) s)

/-! ## Joining (R302, R408) -/

/-- Positions in rising order with one more. -/
def insertPos (p : Nat) (xs : List Nat) : List Nat := xs.filter (· < p) ++ [p] ++ xs.filter (p < ·)

def State.joinSelf (s : State) (pos : Nat) (v : View) (media : List Nat) : State :=
  let s := (s.setFld fNET_LAN_STATUS_POSITION pos).setFld fNET_LAN_STATUS_SPARE 1
  let v := { v with live := insertPos pos v.live }
  let s := (s.setLan { s.lan with joined := true, view := v, nonce := s.free 32, beatAt := s.dtime }).used.showRole
  let s := s.setLan { s.lan with peers := s.watched.foldl (fun m p => Map.put m p (PeerRec.fresh s.dtime)) [] }
  if !s.hw.variant.hasMedia then s
  else (media.filter (fun p => p != pos && podOf p == podOf pos)).foldl (fun s p => s.openRecoveryLink p) s

/-- Another device joins: ALIVE at its keepers; a media-bearing member opens its recovery queue.
(DESIGN CHOICE, log entry 48.) -/
def State.joinOther (s : State) (pos : Nat) (hasMedia : Bool) : State :=
  let s := s.setLan { s.lan with view := { s.lan.view with live := insertPos pos s.lan.view.live } }
  let s := if s.watched.contains pos then s.setPeer pos (PeerRec.fresh s.dtime) else s
  if s.hw.variant.hasMedia && hasMedia && podOf pos == s.ownPod then s.openRecoveryQueue pos else s

/-- POD_JOIN (R302). A device joins its pod as a spare, opening recovery queues to each media-bearing member
and becoming ALIVE at its keepers. -/
def execPodJoin (how : PodJoin) (s : State) : Step' :=
  act s (fun s => match how with
    | .own pos v media => if s.lan.joined then s else s.joinSelf pos v media
    | .other pos hasMedia => if s.lan.joined ∧ pos ≠ s.self then s.joinOther pos hasMedia else s)

end Sys2Proof.Machine
end

