-- ==== Sys2Proof/Machine/Ledger.lean ====
section
/-!
DEFINITION. The Ledger's commands (R264 to R278, R302) and media power states (R279).
-/
namespace Sys2Proof.Machine

/-! ## Examination (R265, R268) -/

/-- A record that fails completes in its FREE slot. -/
def LedgerQueue.refuse (q : LedgerQueue) (slot : Nat) (t : TaskRec) (st : Status) : LedgerQueue :=
  { q with cpls := q.cpls ++ [{ tag := t.tag, status := st, slot := slot, seq := t.seq, result := 0 }] }

/-- On a part without media only three commands run (R5, R268). -/
def State.cNoMedia (s : State) (t : TaskRec) : Option Status :=
  if s.hw.variant.hasMedia ∨ t.opcode = ldSAMPLE_READ ∨ t.opcode = ldQUEUE_RESET then none
  else if t.opcode = ldOBJECT_READ then some stLDG_NOT_FOUND else some stUNIT_ABSENT

def State.examineTask (s : State) (n : Nat) (q : LedgerQueue) (slot : Nat) (b : Bytes) : State :=
  let t := readTask b
  if taskBad q slot b then s.setQueue n (q.refuse slot t stLDG_ARGS)
  else if t.opcode = ldQUEUE_RESET then s.setQueue n { q with reset := some t.tag }
  else if t.seq ≠ q.expected then s.setQueue n (q.refuse slot t stLDG_SEQUENCE)
  else
    let q := { q with expected := q.expected + 1 }
    match s.cNoMedia t with
    | some st => s.setQueue n (q.refuse slot t st)
    | none =>
      let c : LedgerCmd := {
        slot := slot, order := q.posted, at_ := s.dtime, task := t, active := false, parts := 0, finished := [],
        failed := none, inBuffer := false, taken := [], kept := [], sealWait := false, verdict := none }
      s.setQueue n { q with cmds := q.cmds ++ [c], posted := q.posted + 1 }

/-- The message at the front of a context's LEDGER window; slot n of its range lies at 128 × n. -/
def execLedgerRecordExamine (ctx : Fin 64) (s : State) : Step' :=
  act s (fun s =>
    if s.media.flushing.isSome then s
    else match s.takeMessage 2 (some ctx) with
    | none => s
    | some (m, s) =>
      let slot := s.slotBase ctx + m.addr / 128
      let b := s.winBytes 2 ctx (m.addr / 128 * 128) 128
      match s.ledger.find? (fun e => e.2.ctx == ctx.val && e.2.base ≤ slot && slot < e.2.base + e.2.count) with
      | none => s.bump fLDG_IGNORED_COUNT_COUNT 1
      | some (n, q) =>
        if q.reset.isSome ∨ (q.cmdAt (slot - q.base)).isSome then s.bump fLDG_IGNORED_COUNT_COUNT 1
        else s.examineTask n q (slot - q.base) b)

/-! ## Starting a command (R269, R270, R275) -/

def State.gensOf (s : State) (c : Nat) : List Gen := s.media.gens.filter (fun g => g.ctx == c)

def State.findGen (s : State) (c n : Nat) : Option Gen := s.media.gens.find? (fun g => g.ctx == c && g.num == n)

def State.dropGen (s : State) (c n : Nat) : State :=
  let s := s.setMedia { s.media with gens := s.media.gens.filter (fun g => g.ctx != c || g.num != n) }
  s.dropStreams (fun st => match st with | .chunk x g _ _ => x == c && g == n | _ => false)

/-- The generation of an absorb (R275): its own if it is the newest and in progress; a newer one after the older held
generation is discarded; or LDG_GEN_STATE. -/
def State.absorbGen (s : State) (c n : Nat) : Except Status State :=
  let gs := s.gensOf c
  let newest := (gs.map (·.num)).foldl max 0
  let add := fun (s : State) => s.setMedia { s.media with gens := s.media.gens ++
    [{ ctx := c, num := n, isSealed := false, damaged := false, chunks := [] }] }
  match s.findGen c n with
  | some g => if g.isSealed ∨ n < newest then .error stLDG_GEN_STATE else .ok s
  | none =>
    if n < newest ∨ n = 0 then .error stLDG_GEN_STATE
    else if gs.length < 2 then .ok (add s)
    else
      let older := (gs.map (·.num)).foldl min newest
      if ((s.findGen c newest).map (·.isSealed)).getD false then .ok (add (s.dropGen c older)) else .error stLDG_GEN_STATE

/-- A context's share of the write buffer (R353). -/
def State.wbShare (s : State) (c : Nat) : Nat := s.mediaWrPct c * wbSize / 100

/-- Bytes of a context in the write buffer. -/
def State.wbOf (s : State) (c : Nat) : Nat :=
  ((s.media.wb.filter (fun w => match w.stream with
    | .obj x _ => x == c | .chunk x .. => x == c | _ => false)).map (·.bytes)).foldl (· + ·) 0

def State.startCmd (s : State) (n : Nat) (q : LedgerQueue) (c : LedgerCmd) : State :=
  let go := s.setQueue n (q.setCmd { c with active := true })
  if s.hw.variant.hasMedia ∧ s.mediaSt = msFENCED then s.finishCmd n q c stMED_FENCED 0
  else if !c.task.writes ∨ c.task.opcode = ldTRIM then go
  else if !s.mediaFits q.ctx c.task.length then s.finishCmd n q c stLDG_NO_SPACE 0
  else if s.wbShare q.ctx ≤ s.wbOf q.ctx ∨ wbSize ≤ s.wbUsed then s
  else if c.task.opcode = ldCKPT_ABSORB then
    match s.absorbGen q.ctx c.task.gen with
    | .error st => s.finishCmd n q c st 0
    | .ok s => s.postReads n q c
  else s.postReads n q c

/-- Media operations wait until media are in MPS0 (R279) and serve. -/
def State.mediaReady (s : State) : Bool :=
  !s.hw.variant.hasMedia || s.mediaSt == msFENCED || (s.mediaServes && s.mediaUp && s.media.flushing.isNone)

/-- LEDGER_COMMAND_START (R269). A POSTED command becomes ACTIVE once the order and conflict rules allow. -/
def execLedgerCommandStart (queue : Fin 1024) (slot : Fin 1024) (s : State) : Step' :=
  act s (fun s => match s.queue queue with
    | none => s
    | some q => match q.cmdAt slot with
      | none => s
      | some c => if q.mayStart c && s.mediaReady then (s.startCmd queue q c).touchMedia else s)

/-! ## Reads -/

/-- SAMPLE_READ (R278); what R72 meets on media is the row's operand. -/
def execSampleRead (queue : Fin 1024) (slot : Fin 1024) (damage1 damage2 : Bytes) (rebuilt : Option Bytes) (s : State) : Step' :=
  act s (fun s => s.onCmd queue slot ldSAMPLE_READ (fun q c =>
    if !s.mediaReady then s
    else match c.verdict with
      | some (st, r) => s.whenMoved queue q c (fun s q c => s.finishCmd queue q c st r)
      | none =>
        let d := s.ctxData q.ctx
        let loc := c.task.object % 2 ^ 48
        match d.manifestAt s.lastStep with
        | none => s.finishCmd queue q c stLDG_NOT_FOUND 0
        | some m => match m.datasets.find? (fun e => e.id == bitsOf c.task.object 48 8) with
          | none => s.finishCmd queue q c stLDG_NOT_FOUND 0
          | some e =>
            let holder := m.sampleHolder (e.base + loc)
            let mine := match d.run with
              | some r => r.carries.contains holder
              | none => holder == s.self
            if e.count ≤ loc then s.finishCmd queue q c stLDG_NOT_FOUND 0
            else if !mine ∨ !s.hw.variant.hasMedia then s.finishCmd queue q c stLDG_NOT_HOLDER holder
            else
              let deliver := fun (s : State) (r : Bytes) =>
                let n := fieldAt r 8 4
                if c.task.length < n then s.finishCmd queue q c stLDG_ARGS n
                else s.postWrites queue q c (slice r 32 n)
              match s.fetchSample q.ctx e (e.base + loc) damage1 damage2 rebuilt with
              | .clean r => deliver s r
              | .repaired r => deliver (s.raise srcMEDIA stSEAL_REPAIRED 0 q.ctx .f1) r
              | .lost => (s.finishCmd queue q c stSEAL_UNRECOVERABLE 0).raise srcMEDIA stSEAL_UNRECOVERABLE 0 q.ctx .f0))

/-- OBJECT_READ (R271). A range beyond the object has no status of its own: the status is free. -/
def execObjectRead (queue : Fin 1024) (slot : Fin 1024) (s : State) : Step' :=
  act s (fun s => s.onCmd queue slot ldOBJECT_READ (fun q c =>
    if !s.mediaReady then s
    else s.used.runRead queue q c (fun s => match s.media.objects.find? (fun o => o.ctx == q.ctx && o.id == c.task.object) with
      | none => .error (stLDG_NOT_FOUND, 0)
      | some o =>
        if o.damaged then .error (stLDG_DAMAGED, 0)
        else if o.data.length < c.task.offset + c.task.length then .error (BitVec.ofNat 16 (s.free 16), 0)
        else .ok ((o.data.drop c.task.offset).take c.task.length))))

/-- Bytes of a checkpoint object from its chunks; none: a chunk is not held. -/
def Gen.bytes (g : Gen) (id : Nat) : Nat → Nat → Option Bytes
  | 0, _ => some []
  | k + 1, i => match g.chunks.find? (fun c => c.id == id && c.idx == i), Gen.bytes g id k (i + 1) with
    | some c, some rest => some (c.raw ++ rest)
    | _, _ => none

/-- CKPT_RESTORE (R275); `crcOk`: RAW_CRC agrees in every chunk read. (DEDUCED, log entry 36.) -/
def execCkptRestore (queue : Fin 1024) (slot : Fin 1024) (crcOk : Bool) (s : State) : Step' :=
  act s (fun s => s.onCmd queue slot ldCKPT_RESTORE (fun q c =>
    if !s.mediaReady then s
    else s.runRead queue q c (fun s => match s.findGen q.ctx c.task.gen with
      | none => .error (stLDG_NOT_FOUND, 0)
      | some g =>
        let first := c.task.offset / 2 ^ 20
        let count := (c.task.offset + c.task.length - 1) / 2 ^ 20 + 1 - first
        let used := g.chunks.filter (fun k => k.id == c.task.object && first ≤ k.idx && k.idx < first + count)
        if !g.isSealed then .error (stLDG_GEN_STATE, 0)
        else if !crcOk ∨ used.any (·.damaged) then .error (stLDG_DAMAGED, 0)
        else match g.bytes c.task.object count first with
          | none => .error (stLDG_NOT_FOUND, 0)
          | some b =>
            let d := (b.drop (c.task.offset % 2 ^ 20)).take c.task.length
            if d.length = c.task.length then .ok d else .error (stLDG_NOT_FOUND, 0))))

/-- FRAGMENT_READ (R302): stored bytes, as stored. -/
def execFragmentRead (queue : Fin 1024) (slot : Fin 1024) (s : State) : Step' :=
  act s (fun s => s.onCmd queue slot ldFRAGMENT_READ (fun q c =>
    if !s.mediaReady then s
    else s.runRead queue q c (fun s =>
      let off := c.task.offset % 2 ^ 32
      match s.media.frags.find? (fun f => f.tag == c.task.object && f.stripe == c.task.offset / 2 ^ 32 && f.num == c.task.elem) with
      | none => .error (stLDG_NOT_FOUND, 0)
      | some f =>
        if f.data.length < off + c.task.length then .error (stLDG_NOT_FOUND, 0)
        else if f.lost.any (fun r => r.1 < off + c.task.length && off < r.1 + r.2) then .error (stLDG_DAMAGED, 0)
        else .ok ((f.data.drop off).take c.task.length))))

/-! ## Writes -/

/-- OBJECT_WRITE commits whole. -/
def State.commitObject (s : State) (n : Nat) (q : LedgerQueue) (c : LedgerCmd) : State :=
  let o : Obj := { ctx := q.ctx, id := c.task.object, data := c.bytes, damaged := false, queue := n, tag := c.task.tag }
  let old := fun (x : Obj) => x.ctx == q.ctx && x.id == c.task.object
  (s.setMedia { s.media with objects := s.media.objects.filter (fun x => !old x) ++ [o] }).finishCmd n q c stOK c.task.length

/-- Bytes a chunk takes with its header: compressed when that saves a sixteenth (R114); the compressor's output length is
free. (DESIGN CHOICE, log entry 27.) -/
def State.storedLen (s : State) (c : LedgerCmd) (raw : Bytes) : Nat :=
  let size := s.free 21
  32 + (if c.task.compress && size ≤ raw.length - raw.length / 16 then size else raw.length)

/-- A chunk as stored (Table 4.4). (DESIGN CHOICE, log entry 27.) -/
def chunkOf (n : Nat) (c : LedgerCmd) (i stored : Nat) : Chunk :=
  let raw := Map.getD c.finished i []
  { id := c.task.object, idx := c.task.offset / 2 ^ 20 + i,
    mode := if 32 + raw.length ≤ stored then 0 else if c.task.elem = 1 then 1 else 2,
    raw := raw, stored := stored, rawCrc := crc64 raw, damaged := false, queue := n, tag := c.task.tag }

/-- Chunk i of an absorb replaces what its generation held there. -/
def State.commitChunk (s : State) (n : Nat) (q : LedgerQueue) (c : LedgerCmd) (i stored : Nat) : State :=
  let k := chunkOf n c i stored
  s.setMedia { s.media with gens := s.media.gens.map (fun g =>
    if g.ctx = q.ctx ∧ g.num = c.task.gen then
      { g with chunks := g.chunks.filter (fun x => x.id != k.id || x.idx != k.idx) ++ [k] } else g) }

/-- Chunk i enters the write buffer, and commits there unless the buffer is unprotected (R270, R291). -/
def State.takeChunk (s : State) (n : Nat) (q : LedgerQueue) (c : LedgerCmd) (i : Nat) : State :=
  let st := Stream.chunk q.ctx c.task.gen c.task.object (c.task.offset / 2 ^ 20 + i)
  let stored := s.storedLen c (Map.getD c.finished i [])
  let w : WbItem := { stream := st, bytes := stored, queue := some n, tag := c.task.tag,
                      cmd := if s.writeThrough then some (n, c.order) else none }
  let s := s.used
  if s.writeThrough then s.pushWb w
  else ((s.dropStreams (· == st)).commitChunk n q c i stored).pushWb w

/-- Chunks that have arrived and not entered the buffer. -/
def LedgerCmd.arrived (c : LedgerCmd) : List Nat := c.finished.keys.filter (fun i => !c.taken.contains i)

/-- Bytes of the arrived chunks. -/
def LedgerCmd.arrivedLen (c : LedgerCmd) : Nat :=
  (c.arrived.map (fun i => (Map.getD c.finished i []).length)).foldl (· + ·) 0

/-- An absorb completes once every chunk has committed, or with the first failure of its data. -/
def State.settleAbsorb (s : State) (n : Nat) (q : LedgerQueue) (c : LedgerCmd) : State :=
  match c.failed with
  | some st => (s.finishCmd n q c st 0).dropPending n c.order
  | none => if c.kept.length = c.parts then s.finishCmd n q c stOK c.task.length else s.setQueue n (q.setCmd c)

/-- OBJECT_WRITE: the last byte enters the buffer. While the buffer is not protected the commit waits for the program
(R291). -/
def execObjectWrite (queue : Fin 1024) (slot : Fin 1024) (s : State) : Step' :=
  act s (fun s => s.onCmd queue slot ldOBJECT_WRITE (fun q c =>
    if c.inBuffer then s
    else s.whenMoved queue q c (fun s q c =>
      if !s.mediaFits q.ctx c.task.length then s.finishCmd queue q c stLDG_NO_SPACE 0
      else
        let st := Stream.obj q.ctx c.task.object
        let wt := s.writeThrough
        let w : WbItem := { stream := st, bytes := c.task.length, queue := some queue.val, tag := c.task.tag,
                            cmd := if wt then some (queue.val, c.order) else none }
        if wt then (s.setQueue queue (q.setCmd { c with inBuffer := true })).pushWb w
        else ((s.dropStreams (· == st)).commitObject queue q c).pushWb w)))

/-- CKPT_ABSORB (R270). Each 1 MiB chunk that has arrived enters the buffer, and commits there or, while the buffer is
unprotected, when it is programmed (R291). -/
def execCkptAbsorb (queue : Fin 1024) (slot : Fin 1024) (s : State) : Step' :=
  act s (fun s => s.onCmd queue slot ldCKPT_ABSORB (fun q c =>
    let (c, s) := s.collect queue c
    if !s.mediaFits q.ctx c.arrivedLen then (s.finishCmd queue q c stLDG_NO_SPACE 0).dropPending queue c.order
    else
      let kept := if s.writeThrough then c.kept else c.kept ++ c.arrived
      (c.arrived.foldl (fun s i => s.takeChunk queue q c i) s).settleAbsorb queue q
        { c with taken := c.taken ++ c.arrived, kept := kept }))

/-- The write buffer holds data that this queue wrote. -/
def State.buffered (s : State) (n : Nat) : Bool := s.media.wb.any (fun w => w.queue == some n)

def State.sealGen (s : State) (c n : Nat) : State :=
  s.setMedia { s.media with gens := s.media.gens.map (fun g => if g.ctx = c ∧ g.num = n then { g with isSealed := true } else g) }

/-- The end of a FLUSH (R274). -/
def State.endLedgerFlush (s : State) (n : Nat) (q : LedgerQueue) (c : LedgerCmd) (result : Nat) : State :=
  s.finishCmd n { q with deferredSince := false } c (if q.deferredSince then stLDG_DEFERRED else stOK) result

/-- FLUSH: in POD and FABRIC mode the seal waits for the active keeper's ACK (CONTROL_ACK_RECEIVE).
(DEDUCED, log entry 36.) -/
def execFlush (queue : Fin 1024) (slot : Fin 1024) (s : State) : Step' :=
  act s (fun s => s.onCmd queue slot ldFLUSH (fun q c =>
    if s.buffered queue ∨ c.sealWait then s
    else if !c.task.seals then s.endLedgerFlush queue q c 0
    else match s.findGen q.ctx c.task.gen with
      | none => s.endLedgerFlush queue q c 0
      | some g =>
        if g.damaged then s.endLedgerFlush queue q c 0
        else if q.mode = 0 ∨ g.isSealed then (s.sealGen q.ctx c.task.gen).endLedgerFlush queue q c 1
        else (s.setQueue queue (q.setCmd { c with sealWait := true })).toKeeper lkSEAL q.ctx c.task.gen 0 0))

/-- TRIM (R266). TRIM deletes an object, or with SEAL a generation. -/
def execTrim (queue : Fin 1024) (slot : Fin 1024) (s : State) : Step' :=
  act s (fun s => s.onCmd queue slot ldTRIM (fun q c =>
    if !s.mediaReady then s
    else if c.task.seals then
      match s.findGen q.ctx c.task.gen with
      | none => s.finishCmd queue q c stLDG_NOT_FOUND 0
      | some _ => (s.dropGen q.ctx c.task.gen).finishCmd queue q c stOK 0
    else
      let hit := fun (o : Obj) => o.ctx == q.ctx && o.id == c.task.object
      if !s.media.objects.any hit then s.finishCmd queue q c stLDG_NOT_FOUND 0
      else
        let s := s.setMedia { s.media with objects := s.media.objects.filter (fun o => !hit o) }
        (s.dropStreams (· == .obj q.ctx c.task.object)).finishCmd queue q c stOK 0))

/-! ## Reset, timeout, completions -/

def execQueueReset (queue : Fin 1024) (s : State) : Step' :=
  act s (fun s => match s.queue queue with
    | none => s
    | some q => match q.reset with
      | none => s
      | some tag =>
        let last := fun (st : Status) => ({ tag := tag, status := st, slot := 0, seq := 2 ^ 64 - 1, result := 0 } : LedgerCpl)
        if q.mode = 2 then s.setQueue queue { q with reset := none, cpls := q.cpls ++ [last stLDG_RESET_DENIED] }
        else
          let q := q.abortAll
          (s.setQueue queue { q with cpls := q.cpls ++ [last stOK] }).dropUncommitted queue)

/-- LEDGER_TIMEOUT (R277). A command uncompleted TIMEOUT_US after examination completes with LDG_TIMEOUT. -/
def execLedgerTimeout (queue : Fin 1024) (slot : Fin 1024) (s : State) : Step' :=
  act s (fun s => match s.queue queue with
    | none => s
    | some q => match q.cmdAt slot with
      | none => s
      | some c =>
        if c.task.timeout = 0 ∨ s.dtime < c.at_ + c.task.timeout * 1000 then s
        else
          (s.dropPending queue c.order).finishCmd queue q c stLDG_TIMEOUT 0)

/-- An entry is written; it may have carried the oldest deferred error. -/
def LedgerQueue.wrote (q : LedgerQueue) (rest : List LedgerCpl) (carried : Bool) : LedgerQueue :=
  { q with cpls := rest, written := q.written + 1, deferred := if carried then q.deferred.drop 1 else q.deferred }

/-- Pending deferred errors stay until a QUEUE_RESET completion has been written. -/
def execLedgerCompletionWrite (queue : Fin 1024) (s : State) : Step' :=
  act s (fun s => match s.queue queue with
    | none => s
    | some q => match q.cpls with
      | [] => s
      | c :: rest =>
        let hold := rest.any (fun d => d.seq == 2 ^ 64 - 1) || c.seq == 2 ^ 64 - 1
        let d := if hold then none else q.deferred.head?
        let b := cplBytes c d (q.written / q.cplEntries % 2 == 0)
        (s.setQueue queue (q.wrote rest d.isSome)).post q.qp (.write (q.cplAddr + q.written % q.cplEntries * 32) q.cplKey none b) .plain)

/-! ## Media power states (R279) -/

/-- No media operation in flight. -/
def State.mediaIdle (s : State) : Bool :=
  s.media.wb.isEmpty && s.ledger.all (fun e => e.2.cmds.all (fun c => !c.active)) && s.media.recoveries.isEmpty
    && s.data.all (fun e => ((e.2.run).map (fun r => r.fetches.isEmpty)).getD true)

/-- A run with holdings of this device is seated. -/
def State.runHolds (s : State) : Bool :=
  s.data.any (fun e => match e.2.run, e.2.manifestAt s.lastStep with
    | some r, some m => r.carries.any (fun k => m.ranks.contains k)
    | _, _ => false)

/-- MEDIA_IDLE_TIMER (R279). After IDLE1_US or IDLE2_MS with no media operation, media enter MPS1 or MPS2. -/
def execMediaIdleTimer (s : State) : Step' :=
  act s (fun s =>
    let t1 := s.fld fLDG_PS_CFG_IDLE1_US * 1000
    let t2 := s.fld fLDG_PS_CFG_IDLE2_MS * 1000000
    if !s.hw.variant.hasMedia || !s.mediaServes || !s.mediaIdle || t1 = 0 then s
    else if s.mps = 0 ∧ s.media.lastOp + t1 ≤ s.dtime then s.setFld fLDG_STATUS_MPS 1
    else if s.mps = 1 ∧ t2 ≠ 0 ∧ s.media.lastOp + t1 + t2 ≤ s.dtime ∧ !s.runHolds then s.setFld fLDG_STATUS_MPS 2
    else s)

/-- A media operation returns media to MPS0; the command stands for the end of the exit latency.
(DESIGN CHOICE, log entry 37.) -/
def execMediaWake (s : State) : Step' := act s (fun s => (s.setFld fLDG_STATUS_MPS 0).touchMedia)

end Sys2Proof.Machine
end

