-- ==== Sys2Proof/Machine/LanternRun.lean ====
section
/-!
DEFINITION. Lantern's control of runs: mixing outcomes (R401), leg aborts (R409 to R411), step commits (R412), restarts (R413
to R415), seals, the keeper journal and resends (R416 to R419).
-/
namespace Sys2Proof.Machine

/-! ## Who belongs to a run -/

/-- Live devices of a run in a pod; a keeper without the run counts every live member of its pod.
(DESIGN CHOICE, log entry 48.) -/
def State.runMembers (s : State) (c pod : Nat) : List Nat :=
  let ms := s.lan.view.members pod
  match s.runOf c with
  | some r => ms.filter (r.devices.contains ·)
  | none => ms

/-- Pods of a run that have live devices. -/
def State.runPods (s : State) (c : Nat) : List Nat :=
  match s.runOf c with
  | some r => ((r.devices.filter (s.lan.view.live.contains ·)).map podOf).eraseDups
  | none => s.lan.view.keepers.map (·.1)

def State.coordRun (s : State) (c : Nat) : CoordRun := Map.getD s.lan.coord c CoordRun.empty

def State.setCoordRun (s : State) (c : Nat) (f : CoordRun → CoordRun) : State :=
  s.setLan { s.lan with coord := Map.update s.lan.coord c CoordRun.empty f }

/-! ## Fixed mixing outcomes (R188, R401) -/

/-- The 8-byte reply to the trainer. -/
def State.replyMix (s : State) (qp : Nat) (raw : Bytes) (st : Status) : State :=
  s.post qp (.write (fieldAt raw 24 8) (fieldAt raw 32 4) none (toLE 8 (fieldAt raw 16 8 % 2 ^ 48 * 2 ^ 16 + st.toNat))) .plain

def mixEntries (raw : Bytes) : List (Nat × Nat) :=
  (List.range (fieldAt raw 6 2)).map (fun i => (fieldAt raw (64 + 16 * i) 1, fieldAt raw (72 + 16 * i) 8))

/-- A record enters its step's set on a fixed OK and is refused on a fixed MIX_LATE. -/
def State.applyOutcome (s : State) (c seq : Nat) (st : Status) : State :=
  let d := s.ctxData c
  match d.mixing.find? (fun m => m.seq == seq) with
  | none => s
  | some m =>
    let d := { d with mixing := d.mixing.filter (fun x => x.seq != seq) }
    let raw := m.record.getD []
    let body := slice raw 64 (16 * fieldAt raw 6 2)
    let d := if st = stOK then { d with
        mixes := d.mixes ++ [{ seq := seq, step := m.step, entries := mixEntries raw, raw := body }]
        logSet := d.logSet ++ [{ kind := 5, eff := m.step, key := seq, body := body }] } else d
    let s := s.setData c d
    (if m.entry then s.replyMix m.qp raw st else s).planReady c 16

/-- A keeper relays a fixed outcome to the run's members in its pod. -/
def State.relayOutcome (s : State) (c runId seq arg2 : Nat) : State :=
  ((s.runMembers c s.ownPod).filter (· != s.self)).foldl (fun s p =>
    s.sendReliable (.pos p) lkMIX_OUTCOME c runId seq arg2 []) s

/-- The coordinator fixes the next record in ascending SEQUENCE, once every keeper has acknowledged the one before. -/
def State.fixNext (s : State) (c : Nat) : State :=
  let k := s.coordRun c
  match s.entry c, k.decisions.head? with
  | some e, some (seq, st) =>
    if !k.unacked.isEmpty then s
    else
      let arg2 := st.toNat + 2 ^ 16
      let others := (s.runPods c).filterMap s.lan.view.active |>.filter (· != s.self)
      let s := s.setEntry c (fun e => { e with mixSeq := seq, mixStatus := st })
      let s := s.setCoordRun c (fun k => { k with
        decisions := Map.del k.decisions seq
        fixed := some (seq, st)
        unacked := others })
      let s := others.foldl (fun s p => s.sendReliable (.pos p) lkMIX_OUTCOME c e.runId seq arg2 []) s
      (s.relayOutcome c e.runId seq arg2).applyOutcome c seq st
  | _, _ => s

/-! ## What the coordinator gathers (R401, R411, R412) -/

/-- Holds a message of this device's own until the journal that contains it is acknowledged. -/
def State.holdOwn (s : State) (kind c a0 a1 : Nat) : State :=
  let m := s.message kind c a0 a1 0 []
  (s.setLan { s.lan with held := s.lan.held ++ [{ msg := m, image := none }], dirty := true }).nextSeq

/-- Commits every next step that all pods of the run have reported. -/
def State.commitSteps (s : State) (c : Nat) : Nat → State
  | 0 => s
  | fuel + 1 => match s.entry c with
    | none => s
    | some e =>
      let t := e.committed + 1
      let got := Map.getD (s.coordRun c).stepPods t []
      let pods := s.runPods c
      if pods.isEmpty || !pods.all (got.contains ·) then s
      else
        let s := s.setEntry c (fun e => { e with committed := t, reported := Map.put e.reported (t % 9) 0 })
        let s := s.setCoordRun c (fun k => { k with stepPods := Map.del k.stepPods t })
        State.commitSteps (s.holdOwn lkSTEP_COMMIT c e.runId t) c fuel

/-- The abort of a run is complete: ABORT_DONE from every pod. -/
def State.abortComplete (s : State) (c : Nat) : Bool :=
  let pods := s.runPods c
  !pods.isEmpty && pods.all ((s.coordRun c).abortDone.contains ·)

/-- A pod's message at the coordinator. -/
def State.coordTakes (s : State) (pod : Nat) (m : LanMsg) : State :=
  let c := m.ctx
  match s.entry c with
  | none => s
  | some e =>
    if e.runId ≠ m.arg0 ∧ m.kind ≠ lkSEAL then s
    else if m.kind = lkABORT_DONE then
      let s := s.setCoordRun c (fun k => { k with abortDone := (k.abortDone ++ [pod]).eraseDups })
      if s.abortComplete c then (s.decideLate c (fun _ => true)).fixNext c else s
    else if m.kind = lkSTEP_REPORT then
      let s := s.setCoordRun c (fun k => { k with
        stepPods := Map.update k.stepPods m.arg1 [] (fun ps => (ps ++ [pod]).eraseDups) })
      s.commitSteps c 16
    else if m.kind = lkSEAL then s.setEntry c (fun e => { e with sealedGen := m.arg0 })
    else if m.kind = lkMIX_OUTCOME then
      let s := s.setCoordRun c (fun k => { k with
        decisions := if Map.has k.decisions m.arg1 ∨ m.arg1 ≤ e.mixSeq then k.decisions
          else Map.put k.decisions m.arg1 (BitVec.ofNat 16 m.arg2) })
      s.fixNext c
    else s

/-- A keeper passes a message on to the coordinator. -/
def State.forward (s : State) (m : LanMsg) : State :=
  if s.isCoord then s.coordTakes s.ownPod m
  else match s.coordNow with
    | some p => s.sendReliable (.pos p) m.kind m.ctx m.arg0 m.arg1 m.arg2 []
    | none => s

/-! ## Seals (R275) -/

/-- The keeper's ACK of a SEAL completes the FLUSH that waits for it. -/
def State.sealAcked (s : State) (c gen : Nat) : State :=
  let hit := fun (k : LedgerCmd) => k.sealWait && k.task.gen == gen
  (s.queuesOf c).foldl (fun s n => match s.queue n with
    | none => s
    | some q => match q.cmds.find? hit with
      | none => s
      | some k => (s.sealGen c gen).endLedgerFlush n q k 1) s

/-! ## Commits at a member -/

def State.takeCommit (s : State) (c runId step : Nat) : State :=
  match s.runWithId c runId with
  | none => s
  | some r => if r.nextCommit ≤ step then s.mapRun c (fun r => { r with
      nextCommit := step + 1
      reported := r.reported.filter (step < ·) }) else s

/-! ## The active keeper acts (R412, R418) -/

/-- Every live member of this pod in the run has sent ABORT_DONE. -/
def State.podAborted (s : State) (c : Nat) : Bool :=
  match s.entry c with
  | some e => (s.runMembers c s.ownPod).all (fun p => bitOf e.abortMask (p % 32))
  | none => false

def State.podReported (s : State) (c step : Nat) : Bool :=
  match s.entry c with
  | some e => (s.runMembers c s.ownPod).all (fun p => bitOf (Map.getD e.reported (step % 9) 0) (p % 32))
  | none => false

/-- Acknowledges a message to its sender. -/
def State.ackMsg (s : State) (m : LanMsg) : State :=
  if m.sender = s.self then (if m.kind = lkSEAL then s.sealAcked m.ctx m.arg0 else s)
  else s.sendLan m.sender lkACK m.ctx m.seq m.kind 0 []

/-- Acts on a held message: ACK, then what it leads to. -/
def State.actOn (s : State) (m : LanMsg) : State :=
  let c := m.ctx
  if m.kind = lkSTEP_COMMIT then
    let s := if m.sender = s.self then
        ((s.runPods c).filterMap s.lan.view.active |>.filter (· != s.self)).foldl (fun s p =>
          s.sendReliable (.pos p) lkSTEP_COMMIT c m.arg0 m.arg1 0 []) s
      else s.ackMsg m
    (s.sendAll (s.runMembers c s.ownPod) lkSTEP_COMMIT c m.arg0 m.arg1 0 []).takeCommit c m.arg0 m.arg1
  else
    let s := s.ackMsg m
    if m.kind = lkABORT_DONE then (if s.podAborted c then s.forward m else s)
    else if m.kind = lkSTEP_REPORT then (if s.podReported c m.arg1 then s.forward m else s)
    else s.forward m

/-- The active keeper takes a message into its journal and holds it; a repeated one is acknowledged again once acted on. -/
def State.keeperTakes (s : State) (m : LanMsg) : State :=
  let c := m.ctx
  let s := if (s.entry c).isNone ∧ m.kind ≠ lkSEAL then
      s.setLan { s.lan with journal := Map.put s.lan.journal c (JEntry.new m.arg0 (if m.kind = lkSTEP_REPORT then m.arg1 else 0) 0) } else s
  if s.lan.held.any (fun h => h.msg.sender == m.sender && h.msg.seq == m.seq) then s
  else if ((s.entry c).map (fun e => e.holds m)).getD false then s.ackMsg m
  else
    let s := s.setEntry c (fun e => e.take m)
    s.setLan { s.lan with held := s.lan.held ++ [{ msg := m, image := none }], dirty := true }

/-- A report of a member of this pod goes to the journal; a keeper's forward goes to what the coordinator gathers. -/
def State.keeperOrCoord (s : State) (m : LanMsg) : State :=
  if podOf m.sender = s.ownPod then (if s.isActive then s.keeperTakes m else s)
  else if s.isCoord then (s.ackMsg m).coordTakes (podOf m.sender) m
  else s

/-- ABORT_DONE_RECEIVE (R411). A keeper or the coordinator gathers ABORT_DONE until the abort is complete. -/
def execAbortDoneReceive (m : LanMsg) (s : State) : Step' :=
  act s (fun s => if m.kind = lkABORT_DONE then s.keeperOrCoord m else s)

/-- STEP_REPORT_RECEIVE (R412). A keeper or the coordinator gathers STEP_REPORTs and forwards or commits the
step. -/
def execStepReportReceive (m : LanMsg) (s : State) : Step' :=
  act s (fun s => if m.kind = lkSTEP_REPORT then s.keeperOrCoord m else s)

/-- STEP_COMMIT_RECEIVE (R412). A keeper journals a STEP_COMMIT and relays it. -/
def execStepCommitReceive (m : LanMsg) (s : State) : Step' :=
  act s (fun s =>
    if m.kind ≠ lkSTEP_COMMIT then s
    else if s.isActive then s.keeperTakes m
    else s.takeCommit m.ctx m.arg0 m.arg1)

/-- SEAL_MESSAGE_RECEIVE (R418). A keeper journals a SEAL record and acknowledges it, completing the seal. -/
def execSealMessageReceive (m : LanMsg) (s : State) : Step' :=
  act s (fun s => if m.kind = lkSEAL then s.keeperOrCoord m else s)

/-! ## Leg aborts (R410, R411) -/

def execLegAbortReceive (m : LanMsg) (s : State) : Step' :=
  act s (fun s => match s.runWithId m.ctx m.arg0 with
    | none => s
    | some r =>
      if m.kind ≠ lkLEG_ABORT then s
      else
        let s := if r.aborted.isSome then s
          else s.sendAll (s.ownKeepers.filter (· != noKeeper)) lkLEG_ABORT m.ctx m.arg0 m.arg1 m.arg2 []
        s.doAbort m.ctx m.arg1)

/-- ABORT_TIMEOUT (R411). A device that has not reported within 20 ms is reported with reason abort timeout.
-/
def execAbortTimeout (ctx : Fin 64) (pos : Nat) (s : State) : Step' :=
  act s (fun s => match s.runOf ctx, s.entry ctx with
    | some r, some e =>
      if s.isActive && r.aborted.isSome && r.abortAt + 20000000 ≤ s.dtime && (s.runMembers ctx s.ownPod).contains pos
          && pos != s.self && !bitOf e.abortMask (pos % 32) && !s.isLost pos then s.losePeer pos 2
      else s
    | _, _ => s)

/-! ## Restart (R413 to R415) -/

/-- A device acts on RESTART: takeovers and the restart in its Logbook, new connections, and the restart steps.
(DESIGN CHOICE, log entry 48.) -/
def State.doRestart (s : State) (c step restarts : Nat) (remaps : List (Nat × Nat)) : State :=
  match s.runOf c with
  | none => s
  | some r =>
    let aborted := r.aborted.getD step
    let sibling := fun (k : Nat) => if r.devices.contains k then 1 else 0
    let remapRec := fun (e : Nat × Nat) => ({
      kind := 6, eff := step, key := e.1,
      body := toLE 2 e.1 ++ toLE 1 (sibling e.2) ++ zeros 1 ++ toLE 2 e.2 ++ zeros 2 } : LogRec)
    let s := remaps.foldl (fun s e => s.writeRec c (remapRec e)) s
    let s := s.writeRec c { kind := 8, eff := step, key := 0, body := toLE 8 step ++ toLE 8 aborted }
    let mine := (remaps.filter (fun e => e.2 == s.self)).map (·.1)
    let s := s.mapRun c (fun r => { r with
      carries := r.carries ++ mine
      carriers := remaps.foldl (fun m e => Map.put m e.1 e.2) r.carriers
      nextPlan := step
      nextCommit := step
      reported := []
      late := []
      missed := []
      restarts := restarts
      aborted := none
      exempt := s.lastStep + r.cfg.pack.lead
      peers := []
      peers0 := []
      delivery := [] })
    let s := (s.openPeers c).openConsumers c
    let s := if s.hw.variant.hasMedia then mine.foldl (fun s k => s.adoptFragments c k) s else s
    let s := if mine.isEmpty ∨ s.fld fNET_LAN_STATUS_SPARE = 0 then s
      else (s.setFld fNET_LAN_STATUS_POSITION (mine.headD 0)).unflag fNET_LAN_STATUS_SPARE
    (s.setEntry c (fun e => { e with
      state := .running
      restarts := restarts
      restartStep := step
      abortMask := 0
      reported := [] })).planReady c 64

/-- RESTART_RECEIVE (R413). A device writes RANK_REMAP and RESTART records, opens new connections and plans
the restart steps. -/
def execRestartReceive (m : LanMsg) (remaps : List (Nat × Nat)) (s : State) : Step' :=
  act s (fun s => match s.runWithId m.ctx m.arg0 with
    | none => s
    | some r =>
      if m.kind ≠ lkRESTART ∨ r.aborted.isNone ∨ m.arg2 ≠ r.restarts + 1 then s
      else s.doRestart m.ctx m.arg1 m.arg2 remaps)

/-- Ranks of a run whose carrier is not in the view. -/
def State.lostRanks (s : State) (r : RunRec) : List Nat :=
  r.cfg.ranks.filter (fun k => !s.lan.view.live.contains (r.carrier k))

/-- R414 as far as this device can judge it: a carrier is a live device of the rank's pod, a spare that the run names or a
member of the run. -/
def State.carrierOk (s : State) (r : RunRec) (e : Nat × Nat) : Bool :=
  s.lan.view.live.contains e.2 && podOf e.2 == podOf e.1 && (r.cfg.spares.contains e.2 || r.devices.contains e.2)

/-- RESTART goes to every device of the run and every carrier. -/
def State.tellRestart (s : State) (c : Nat) (r : RunRec) (e : JEntry) (carriers : List (Nat × Nat)) : State :=
  let step := e.committed + 1
  let restarts := e.restarts + 1
  let s := s.setEntry c (fun e => { e with state := .restarting, restarts := restarts, restartStep := step })
  let s := s.setCoordRun c (fun k => { k with abortDone := [], stepPods := [] })
  s.sendAll (r.devices ++ carriers.map (·.2)).eraseDups lkRESTART c e.runId step restarts []

/-- RESTART (R413). The coordinator sends RESTART once the abort is complete and every lost rank has a
carrier, or refuses it with LEG_NO_CARRIER. -/
def execRestart (ctx : Fin 64) (carriers : List (Nat × Nat)) (s : State) : Step' :=
  act s (fun s => match s.runOf ctx, s.entry ctx with
    | some r, some e =>
      let lost := s.lostRanks r
      if !s.isCoord ∨ r.aborted.isNone ∨ !s.abortComplete ctx then s
      else if decide (carriers.map (·.1) ≠ lost) || !carriers.all (s.carrierOk r) then
        s.raise srcROCE stLEG_NO_CARRIER 0 ctx .f2
      else (s.tellRestart ctx r e carriers).doRestart ctx (e.committed + 1) (e.restarts + 1) carriers
    | _, _ => s)

/-! ## The journal copy (R417, R419) -/

/-- The acknowledged image n contains the held message. -/
def HeldMsg.copiedBy (n : Nat) (h : HeldMsg) : Bool :=
  match h.image with
  | some i => i ≤ n
  | none => false

/-- Acts on every held message that an acknowledged image contains. -/
def State.actHeld (s : State) (p : HeldMsg → Bool) : State :=
  let due := s.lan.held.filter p
  let s := s.setLan { s.lan with held := s.lan.held.filter (fun h => !p h) }
  due.foldl (fun s h => s.actOn h.msg) s

/-- JOURNAL_COPY (R417). At most once every 250 µs, the active keeper writes its image into the standby slot
and sends JOURNAL_COPY. (DESIGN CHOICE, log entry 48.) -/
def execJournalCopy (s : State) : Step' :=
  act s (fun s =>
    if !s.isActive ∨ s.dtime < s.lan.copyAt + 250000 ∨ (!s.lan.dirty ∧ s.lan.held.isEmpty) then s
    else
      let n := s.lan.journalSeq + 1
      let held := s.lan.held.map (fun h => { h with image := some (h.image.getD n) })
      let s := s.setLan { s.lan with journalSeq := n, copyAt := s.dtime, dirty := false, held := held }
      match s.lan.view.standby s.ownPod with
      | none => s.actHeld (fun _ => true)
      | some p =>
        if p = noKeeper then s.actHeld (fun _ => true)
        else (s.sendTc0 16384 (.journal p (n % 2) (s.journalImage n))).sendLan p lkJOURNAL_COPY 0xFF n (n % 2) 0 [])

/-- `image`: what stands in the slot that the message names. (DESIGN CHOICE, log entry 41.) -/
def execJournalCopyReceive (m : LanMsg) (image : Bytes) (s : State) : Step' :=
  act s (fun s =>
    if m.kind ≠ lkJOURNAL_COPY ∨ !s.isStandby then s
    else
      let valid := ((s.lan.validSlot).bind (Map.find s.lan.slots)).map (fun b => fieldAt b 8 8)
      if journalOk image m.arg0 ∧ valid.getD 0 < m.arg0 ∧ m.arg1 < 2 then
        (s.setLan { s.lan with slots := Map.put s.lan.slots m.arg1 image, validSlot := some m.arg1 }).sendLan m.sender
          lkJOURNAL_ACK 0xFF m.arg0 m.arg1 0 []
      else (s.flag fNET_LAN_ERR_JOURNAL_CHECK).raise srcROCE stJOURNAL_CHECK 0 noCtx .f1)

/-- JOURNAL_ACK_RECEIVE (R418). The acknowledged image lets the active keeper act on the messages it contains.
-/
def execJournalAckReceive (m : LanMsg) (s : State) : Step' :=
  act s (fun s =>
    if m.kind ≠ lkJOURNAL_ACK ∨ !s.isActive then s
    else s.actHeld (HeldMsg.copiedBy m.arg0))

/-! ## Acknowledgements and resends (R418) -/

def execControlAckReceive (m : LanMsg) (s : State) : Step' :=
  act s (fun s =>
    let hit := fun (o : OutMsg) => o.msg.seq == m.arg0 && o.msg.kind == m.arg1
    match m.kind == lkACK, s.lan.outbox.find? hit with
    | true, some o =>
      let s := s.setLan { s.lan with outbox := s.lan.outbox.filter (fun x => !hit x) }
      if o.msg.kind = lkSEAL then s.sealAcked o.msg.ctx o.msg.arg0
      else if o.msg.kind = lkMIX_OUTCOME ∧ s.isCoord = true then
        (s.setCoordRun o.msg.ctx (fun k => { k with unacked := k.unacked.filter (· != m.sender) })).fixNext o.msg.ctx
      else s
    | _, _ => s)

/-- CONTROL_RESEND (R418). Every 1 ms a member resends an unacknowledged control message to the current active
keeper. -/
def execControlResend (s : State) : Step' := act s (fun s => s.resendOutbox (fun o => o.sentAt + 1000000 ≤ s.dtime))

/-! ## Mixing records on their way (R188, R400, R401) -/

/-- Step 1 of R188. -/
def State.mixFormatOk (s : State) (c : Nat) (b : Bytes) : Bool :=
  let n := fieldAt b 6 2
  let es := mixEntries b
  let named : List Nat := match (s.ctxData c).manifestAt s.lastStep with
    | some m => m.datasets.map (fun d => d.id)
    | none => []
  fieldAt b 0 4 == 0x584D464F && fieldAt b 4 2 == 1 && 1 ≤ n && n ≤ 256
    && fieldAt b 48 8 == crc64 (b.take 48 ++ slice b 64 (16 * n))
    && es.all (fun e => e.2 ≤ 2 ^ 32 && named.contains e.1)

/-- Sends the fragments of a record to devices. -/
def State.sendFragments (s : State) (c runId : Nat) (b : Bytes) (seq : Nat) (dests : List Nat) : State :=
  let n := ceilDiv b.length 768
  dests.foldl (fun s p => (List.range n).foldl (fun s i =>
    s.sendLan p lkMIX_DIST c runId seq (i * 256 + n) ((b.drop (768 * i)).take 768)) s) s

/-- The step of the latest beacon accepted. -/
def State.beaconStep (s : State) : Nat := (s.newest.map (·.1)).getD s.lastStep

def CtxData.lastMix (d : CtxData) : Option Nat := (d.mixes.map (·.seq) ++ d.mixing.map (·.seq)).max?

/-- MIX_RECORD_EXAMINE (R188). The entry device checks a mixing record when its message completes, and
distributes it or refuses it. (DESIGN CHOICE, log entry 41.) (DEDUCED, log entry 49.) -/
def execMixRecordExamine (ctx : Fin 64) (s : State) : Step' :=
  act s (fun s => match s.takeMessage 1 (some ctx), s.runOf ctx with
    | some (m, s), some r =>
      let slot := m.addr / 8192 * 8192
      let h := s.winBytes 1 ctx slot 64
      let b := s.winBytes 1 ctx slot (64 + 16 * min 256 (fieldAt h 6 2))
      let d := s.ctxData ctx
      let seq := fieldAt b 16 8
      let eff := fieldAt b 8 8
      let after : Bool := match d.lastMix with | some q => decide (q < seq) | none => true
      if !s.mixFormatOk ctx b then s.replyMix m.qp b stMIX_FORMAT
      else if !after then s.replyMix m.qp b stMIX_SEQUENCE
      else if eff < s.beaconStep + r.cfg.pack.lead + 2 then s.replyMix m.qp b stMIX_LATE
      else if !d.logRoom (16 * fieldAt b 6 2) then s.replyMix m.qp b stLOG_FULL
      else
        let p : MixPending := {
          seq := seq, step := eff, total := 0, frags := [], record := some b, entry := true, source := s.self, qp := m.qp,
          acked := [], sentAt := s.dtime, decided := none }
        let s := s.setData ctx { d with mixing := d.mixing ++ [p] }
        s.sendFragments ctx r.cfg.runId b seq (r.devices.filter (· != s.self))
    | some (_, s), none => s
    | none, _ => s)

/-- MIX_DIST_RECEIVE (R400). A device collects MIX_DIST fragments, checks the joined record and sends MIX_ACK.
-/
def execMixDistReceive (m : LanMsg) (s : State) : Step' :=
  act s (fun s => match s.runWithId m.ctx m.arg0 with
    | none => s
    | some _ =>
      let d := s.ctxData m.ctx
      let i := m.arg2 / 256 % 256
      let n := m.arg2 % 256
      if m.kind ≠ lkMIX_DIST ∨ n ≤ i then s
      else
        let old := d.mixing.find? (fun x => x.seq == m.arg1)
        let p := old.getD { seq := m.arg1, step := 0, total := n, frags := [], record := none, entry := false,
                            source := m.sender, qp := 0, acked := [], sentAt := 0, decided := none }
        if p.record.isSome then s
        else
          let p := { p with frags := Map.put p.frags i m.body }
          let others := d.mixing.filter (fun x => x.seq != m.arg1)
          if p.frags.length < n then s.setData m.ctx { d with mixing := others ++ [p] }
          else
            let b := p.frags.vals.flatten
            if fieldAt b 16 8 = m.arg1 ∧ s.mixFormatOk m.ctx b = true then
              let p := { p with frags := [], record := some b, step := fieldAt b 8 8 }
              (s.setData m.ctx { d with mixing := others ++ [p] }).sendLan m.sender lkMIX_ACK m.ctx m.arg0 m.arg1 0 []
            else s.setData m.ctx { d with mixing := others })

def State.mapMix (s : State) (c seq : Nat) (f : MixPending → MixPending) : State :=
  let d := s.ctxData c
  s.setData c { d with mixing := d.mixing.map (fun p => if p.seq = seq then f p else p) }

/-- MIX_ACK_RECEIVE (R188). The entry device records a device's acknowledgement of the whole record. -/
def execMixAckReceive (m : LanMsg) (s : State) : Step' :=
  act s (fun s =>
    if m.kind ≠ lkMIX_ACK ∨ (s.runWithId m.ctx m.arg0).isNone then s
    else s.mapMix m.ctx m.arg1 (fun p => if p.entry then { p with acked := (p.acked ++ [m.sender]).eraseDups } else p))

/-- MIX_DIST_RESEND (R400). Every 1 ms the entry device resends fragments to devices that have not
acknowledged. -/
def execMixDistResend (ctx : Fin 64) (s : State) : Step' :=
  act s (fun s => match s.runOf ctx with
    | none => s
    | some r =>
      let due := (s.ctxData ctx).mixing.filter (fun p => p.entry && p.decided.isNone && p.sentAt + 1000000 ≤ s.dtime)
      due.foldl (fun s p =>
        let s := s.mapMix ctx p.seq (fun p => { p with sentAt := s.dtime })
        s.sendFragments ctx r.cfg.runId (p.record.getD []) p.seq
          (r.devices.filter (fun k => k != s.self && !p.acked.contains k))) s)

/-- MIX_DECIDE (R188). When all acks are in, or step EFFECTIVE_STEP − lead − 1 is reached, the entry device
decides OK or MIX_LATE and sends MIX_OUTCOME. -/
def execMixDecide (ctx : Fin 64) (s : State) : Step' :=
  act s (fun s => match s.runOf ctx with
    | none => s
    | some r => match (s.ctxData ctx).mixing.find? (fun p => p.entry && p.decided.isNone) with
      | none => s
      | some p =>
        let late := p.step ≤ s.lastStep + r.cfg.pack.lead + 1
        let all := r.devices.all (fun k => k == s.self || p.acked.contains k)
        let decide' := fun (st : Status) => (s.mapMix ctx p.seq (fun p => { p with decided := some st })).toKeeper
          lkMIX_OUTCOME ctx r.cfg.runId p.seq st.toNat
        if late then decide' stMIX_LATE else if all then decide' stOK else s)

/-- MIX_OUTCOME_RECEIVE (R401). A keeper forwards, a coordinator fixes, or a member enters or refuses a record
on its MIX_OUTCOME, and the entry device writes the reply. -/
def execMixOutcomeReceive (m : LanMsg) (s : State) : Step' :=
  act s (fun s =>
    if m.kind ≠ lkMIX_OUTCOME then s
    else if bitOf m.arg2 16 then
      let s := s.ackMsg m
      let s := if s.isActive then s.relayOutcome m.ctx m.arg0 m.arg1 m.arg2 else s
      s.applyOutcome m.ctx m.arg1 (BitVec.ofNat 16 m.arg2)
    else s.keeperOrCoord m)

end Sys2Proof.Machine
end

