-- ==== Sys2Proof/Machine/Media.lean ====
section
/-!
DEFINITION. The media controller's commands (R287 to R310): draining and folding, page reads, refresh, die loss and rebuild,
pod-level recovery, health, checkpoints and resume records; and the start of media.
-/
namespace Sys2Proof.Machine

/-- Media serve and stand in MPS0. -/
def State.mediaRuns (s : State) : Bool := s.mediaServes && s.mediaUp

/-- An operation of a running media controller. -/
def State.onMedia (s : State) (body : State → State) : State := if s.mediaRuns then (body s).touchMedia else s

/-! ## Draining and folding (R290, R291) -/

/-- A chunk of an absorb commits once it is programmed. -/
def State.chunkDrained (s : State) (n : Nat) (q : LedgerQueue) (c : LedgerCmd) (idx stored : Nat) : State :=
  let i := idx - c.task.offset / 2 ^ 20
  (s.commitChunk n q c i stored).settleAbsorb n q { c with kept := c.kept ++ [i] }

/-- The command whose write commits once it is programmed (R291). -/
def State.commitDrained (s : State) (w : WbItem) : State :=
  match w.cmd with
  | none => s
  | some (n, order) => match s.queue n with
    | none => s
    | some q => match q.cmds.find? (fun c => c.order == order) with
      | some c => match w.stream with
        | .chunk _ _ _ idx => s.chunkDrained n q c idx w.bytes
        | _ => s.commitObject n q c
      | none => s

/-- WRITE_BUFFER_DRAIN (R290). The controller programs write-buffer data in arrival order into SLC or directly
into QLC. -/
def execWriteBufferDrain (s : State) : Step' :=
  act s (fun s => s.onMedia (fun s => match s.media.wb with
    | [] => s
    | w :: _ =>
      let s := if w.cmd.isSome then
          s.setMedia { s.media with blocks := s.media.blocks.map (fun b =>
            { b with units := b.units.filter (fun u => u.1 != w.stream) }) } else s
      (s.program w).commitDrained w))

/-- What an SLC block holds is programmed again outside the cache. -/
def State.foldBlock (s : State) (b : Superblock) : State :=
  let m := s.media
  let m := { m with blocks := m.blocks.filter (fun (x : Superblock) => x.num != b.num), stale := m.stale ++ [b],
                    slcUsed := m.slcUsed - b.bytes }
  b.units.foldl (fun s u => s.addStream u.1 u.2 false) (s.setMedia m)

/-- Folds one SLC superblock into QLC. -/
def execFold (s : State) : Step' :=
  act s (fun s => s.onMedia (fun s => match s.media.blocks.find? (fun b => b.slc) with
    | none => s
    | some b => s.foldBlock b))

/-- RELOCATION_ERASE (R288). An old block is erased after every read begun before its map switch has
completed. -/
def execRelocationErase (s : State) : Step' :=
  act s (fun s => s.onMedia (fun s => s.setMedia { s.media with stale := s.media.stale.drop 1 }))

/-! ## Reads, refresh and scans (R292 to R294, R298, R299) -/

def State.readLimit (s : State) (b : Superblock) : Nat :=
  if b.slc then 1000000 else s.fld fMED_CFG_READ_LIMIT_K * 1000

/-- A stream of a superblock that the controller's page layout picks. -/
def State.pickUnit (s : State) (b : Superblock) : List (Stream × Nat) := (s.choose b.units).toList

/-- A page read of a superblock, which succeeds at a step of R294 or not at all. -/
def State.pageRead (s : State) (b : Superblock) (r : PageRead) : State :=
  let b := { b with reads := b.reads + 1 }
  let s := s.setMedia { s.media with blocks := s.media.blocks.map (fun x => if x.num = b.num then b else x) }
  let s := if s.readLimit b ≤ b.reads then s.relocate b else s
  match r with
  | .hard => s
  | .soft => s.bump fMED_RETRY_COUNT_RETRIED 1
  | .retry => s.bump fMED_RETRY_COUNT_RETRIED 1
  | .row => (s.bump fMED_RETRY_COUNT_RECONSTRUCTED 1).relocate b
  | .lost =>
    let s := s.bump fMED_RETRY_COUNT_RECONSTRUCTED 1
    let us := s.pickUnit b
    let s := us.foldl (fun s u => (s.loseRows 1).loseStream u.1) s.used
    s.relocate { b with units := b.units.filter (fun u => !us.contains u || u.1.cls == .metadata) }

/-- MEDIA_PAGE_READ (R294). A page read escalates through hard decode, soft decode, read retry, row
reconstruction and pod recovery. -/
def execMediaPageRead (block : Nat) (result : PageRead) (s : State) : Step' :=
  act s (fun s => s.onMedia (fun s => match s.media.blocks.find? (fun b => b.num == block) with
    | none => s
    | some b => s.pageRead b result))

/-- A scan of a block; `weak`: a scanned page needs a refresh. -/
def execRetentionScan (block : Nat) (weak : Bool) (s : State) : Step' :=
  act s (fun s => s.onMedia (fun s => match s.media.blocks.find? (fun b => b.num == block) with
    | none => s
    | some b =>
      let s := s.setMedia { s.media with blocks := s.media.blocks.map (fun x =>
        if x.num = block then { x with scanned := s.dtime } else x) }
      if weak then s.relocate b else s))

/-! ## Die loss and rebuild (R295 to R300) -/

/-- A die is retired, and its group's rebuild begins. (DESIGN CHOICE, log entry 38.) -/
def State.retireDie (s : State) (channel die : Nat) : State :=
  let g := s.groupOf channel die
  let m := s.media
  let again := Map.has m.rebuilds g
  let s := s.setMedia { m with retired := m.retired ++ [(channel, die)], retiredVersion := m.retiredVersion + 1,
                               rebuilds := Map.put m.rebuilds g { double := again } }
  let s := ((s.flag fMED_ERR_DIE_LOST).bump fMED_STATUS_RETIRED_DIES 1).raise srcMEDIA stMED_DIE_LOST
    (channel * 256 + die) noCtx .f3
  let s := if again then s else s.bump fMED_STATUS_REBUILDS 1
  if s.mediaSt = msREADY then s.setFld fMED_STATUS_STATE msDEGRADED else s

/-- DIE_LOST (R295). A die unresponsive for 100 ms, or failing its thresholds, is fenced with F3 and its
group's rebuild starts. -/
def execDieLost (channel : Fin 96) (die : Fin 16) (s : State) : Step' :=
  act s (fun s =>
    if !s.mediaServes || !s.diePresent channel die then s
    else s.retireDie channel die)

/-- The next superblock of a group to rebuild: metadata, then Ledger data, then fragments; the oldest first. -/
def State.nextRebuild (s : State) (g : Nat) : Option Superblock :=
  let of := fun (c : DataClass) => s.media.blocks.find? (fun b => b.group == g && b.cls == c)
  ((of .metadata).orElse (fun _ => of .ledger)).orElse (fun _ => of .fragment)

/-- Rebuilds a superblock; `pageLost`: a surviving page failed every step of R294 (R298). After a second die loss every
unrebuilt row is lost (R297). (DESIGN CHOICE, log entry 38.) -/
def execSuperblockRebuilt (group : Fin 192) (pageLost : Bool) (s : State) : Step' :=
  act s (fun s => s.onMedia (fun s => match Map.find s.media.rebuilds group with
    | none => s
    | some r => match s.nextRebuild group with
      | none =>
        let m := { s.media with rebuilds := Map.del s.media.rebuilds group }
        let s := (s.setMedia m).setFld fMED_STATUS_REBUILDS (s.fld fMED_STATUS_REBUILDS - 1)
        if s.mediaSt = msDEGRADED ∧ m.rebuilds.isEmpty then s.setFld fMED_STATUS_STATE msREADY else s
      | some b =>
        let s := if r.double then s.loseBlock b
          else if pageLost then (s.pickUnit b).foldl (fun s u => (s.loseRows 1).loseStream u.1) s.used
          else s
        s.relocate b))

/-! ## Pod-level recovery (R301, R302) -/

/-- holder(stripe, f) of a fragment's dataset (R59). -/
def Frag.holderOf (f : Frag) (n : Nat) : Nat :=
  ({ id := f.dataset, sizeLog2 := 0, gen := f.gen, count := 0, base := 0, extents := [], pods := f.pods } : DatasetEnt).holder f.stripe n

/-- Whether a data fragment number lies beyond the dataset's last data extent. -/
def Frag.beyond (f : Frag) (n : Nat) : Bool := n < 10 && f.extents ≤ f.stripe * 10 + n

/-- A FRAGMENT_READ task record (Table 12.3). -/
def fragmentTask (tag stripe num off len addr key seq : Nat) : Bytes :=
  let b := toLE 1 ldFRAGMENT_READ ++ zeros 3 ++ toLE 4 num ++ toLE 8 seq ++ toLE 8 tag ++ toLE 8 (stripe * 2 ^ 32 + off)
    ++ toLE 8 len ++ toLE 8 addr ++ toLE 4 key ++ toLE 4 0 ++ toLE 4 0 ++ toLE 1 num ++ zeros 51
  b ++ toLE 8 (crc64 b) ++ zeros 8

/-- Asks the holder of a fragment for a range, into a HANDLE window of CTX0; the landing handle joins the recovery. -/
def State.askFragment (s : State) (f : Frag) (r : Recovery) (n : Nat) : Recovery × State :=
  if f.beyond n ∨ n = r.num then (r, s)
  else match Map.find s.media.links (f.holderOf n) with
    | none => (r, s)
    | some l => match s.allocBytes 0 r.len agHOST with
      | .error _ => (r, s)
      | .ok (h, s) => match s.openWindow 0 0 (.handle h) r.len true false with
        | .error _ => (r, s.freeHandle h)
        | .ok (key, s) =>
          let s := s.setMedia { s.media with links := Map.put s.media.links (f.holderOf n) { l with
            slot := l.slot % 7 + 1, seq := l.seq + 1 } }
          let t := fragmentTask r.tag r.stripe n r.off r.len 0 key l.seq
          ({ r with asked := Map.put r.asked n h },
            s.post l.qp (.write (l.slot * 128) l.windowKey none t) .plain)

def State.findFrag (s : State) (tag stripe num : Nat) : Option Frag :=
  s.media.frags.find? (fun f => f.tag == tag && f.stripe == stripe && f.num == num)

/-- Starts the recovery of the first lost range: the nine other data fragments and fragment 10.
(DESIGN CHOICE, log entry 39.) -/
def execPodRecoveryStart (s : State) : Step' :=
  act s (fun s => s.onMedia (fun s => match s.media.lostQueue with
    | [] => s
    | (t, p, n, off, len) :: rest =>
      let s := s.setMedia { s.media with lostQueue := rest }
      match s.findFrag t p n with
      | none => s
      | some f =>
        let r0 : Recovery := { tag := t, stripe := p, num := n, off := off, len := len, asked := [] }
        let (r, s) := (List.range 11).foldl (fun (x : Recovery × State) i => x.2.askFragment f x.1 i) (r0, s)
        s.setMedia { s.media with recoveries := s.media.recoveries ++ [r] }))

/-- Ends a recovery: its landing handles are freed. -/
def State.endRecovery (s : State) (r : Recovery) : State :=
  let hs := r.asked.vals
  let ws := (s.net.windows.filter (fun e => match e.2.kind with | .handle h => hs.contains h | _ => false)).map (·.1)
  let s := hs.foldl State.freeHandle (ws.foldl State.revoke s)
  s.setMedia { s.media with recoveries := s.media.recoveries.filter (fun x => x != r) }

/-- Fragment bytes a recovery has: fragments beyond the dataset count as zero, this device's own, and those of `got`, the
fragments whose FRAGMENT_READ completed with OK. -/
def State.recovered (s : State) (f : Frag) (r : Recovery) (got : Nat) (n : Nat) : Option Bytes :=
  if n = r.num then none
  else if f.beyond n then some (zeros r.len)
  else match s.findFrag r.tag r.stripe n with
    | some g =>
      if g.lost.any (fun x => x.1 < r.off + r.len && r.off < x.1 + x.2) then none
      else some ((g.data.drop r.off).take r.len)
    | none =>
      if bitOf got n then (Map.find r.asked n).map (fun h => s.readHandle h 0 r.len) else none

/-- The lost range of a fragment holds its bytes again. -/
def State.mendFragment (s : State) (f : Frag) (r : Recovery) (b : Bytes) : State :=
  let fixed := { f with
    data := putAt f.data r.off b
    lost := f.lost.filter (fun x => !(r.off ≤ x.1 && x.1 + x.2 ≤ r.off + r.len)) }
  s.setMedia { s.media with frags := s.media.frags.map (fun x => if x = f then fixed else x) }

/-- POD_RECOVERY_COMPLETE (R301). When the fragment reads return, the device computes and writes the lost
bytes, or marks the range lost. (DESIGN CHOICE, log entry 39.) -/
def execPodRecoveryComplete (got : Fin 4096) (s : State) : Step' :=
  act s (fun s => s.onMedia (fun s => match s.media.recoveries with
    | [] => s
    | r :: _ => match s.findFrag r.tag r.stripe r.num with
      | none => s.endRecovery r
      | some f =>
        match recoverFragment r.len r.num (s.recovered f r got) with
        | some b =>
          let s := s.mendFragment f r b
          ((s.endRecovery r).flag fMED_ERR_POD_RECOVERED).raise srcMEDIA stMED_POD_RECOVERED 0 noCtx .f1
        | none =>
          if Map.has r.asked 11 ∨ (Map.find s.media.links (f.holderOf 11)).isNone then
            ((s.endRecovery r).flag fMED_ERR_POD_UNRECOVERABLE).raise srcMEDIA stMED_POD_UNRECOVERABLE 0 noCtx .f0
          else
            let (r', s) := s.askFragment f r 11
            s.setMedia { s.media with recoveries := s.media.recoveries.map (fun x => if x = r then r' else x) }))

/-! ## Health (R303, R304) -/

/-- The bit of a condition in MED_ERR[10:7], whether it holds, and MED_HEALTH after the measurement. -/
def State.measureHealth (s : State) : HealthEvent → Nat × Bool × State
  | .wear p => (0, s.fld fMED_CFG_WEAR_WARN_PCT ≤ p,
      (s.setMedia { s.media with wear := min p 255 }).setFld fMED_HEALTH_WEAR_PCT (min p 255))
  | .spare p => (1, p < s.fld fMED_CFG_SPARE_WARN_PCT, (s.setMedia { s.media with spare := min p 255 }).setFld
      fMED_HEALTH_SPARE_PCT (min p 255))
  | .slcFloor => (2, (match s.media.floorSince with | some t => decide (t + 3600 * 10 ^ 9 ≤ s.dtime) | none => false), s)
  | .correction reads retried => (3, reads < retried * 10000, s)

/-- Raised when a condition arises while its bit is clear. -/
def execMediaHealthEvent (event : HealthEvent) (s : State) : Step' :=
  act s (fun s =>
    if !s.mediaServes then s
    else
      let (i, holds, s) := s.measureHealth event
      let before := bitOf s.media.health i
      let s := s.setMedia { s.media with health := putBits s.media.health i 1 (if holds then 1 else 0) }
      if holds ∧ !before ∧ s.fld (fMED_ERR_HEALTH_WEAR.bit i) = 0 then
        (s.flag (fMED_ERR_HEALTH_WEAR.bit i)).raise srcMEDIA stMED_HEALTH 0 noCtx .f0
      else s)

/-- MEDIA_READ_ONLY (R304). Over-provisioning below 2 % puts media into READ_ONLY. -/
def execMediaReadOnly (s : State) : Step' :=
  act s (fun s =>
    if s.mediaWrites && s.fld fMED_HEALTH_SPARE_PCT < 2 then s.setFld fMED_STATUS_STATE msREAD_ONLY else s)

/-! ## Checkpoints and resume records -/

/-- The map and its journal are written anew, and a resume record is due that names them. -/
def State.checkpoint (s : State) : State :=
  let s := s.dropStreams (fun st => match st with | .ftl _ => true | _ => false)
  let s := (s.addStream (.ftl 0) (9 * 2 ^ 30) false).addStream (.ftl 1) (9 * 2 ^ 30) false
  let a := s.free 64
  let b := s.used.free 64
  let m := s.media
  let seq := if m.reserve.isEmpty then m.flushSeq else m.flushSeq + 1
  s.used.used.setMedia { m with
    checkpointAt := s.dtime
    mapAt := a
    journalAt := b
    metaLost := []
    savedReads := m.blocks.map (fun x => (x.num, x.reads))
    resumeDue := some 0
    reserve := []
    flushSeq := seq }

/-- A map checkpoint: both copies of the metadata, then a resume record. `full`: 16 GiB of journal (R287).
(DESIGN CHOICE, log entry 37.) -/
def execMapCheckpoint (full : Bool) (s : State) : Step' :=
  act s (fun s => s.onMedia (fun s =>
    if !full ∧ s.dtime < s.media.checkpointAt + 60 * 10 ^ 9 then s
    else s.checkpoint))

/-- The resume record that is due; `readBack`: it read back as written. -/
def execResumeRecordWrite (readBack : Bool) (s : State) : Step' :=
  act s (fun s => match s.media.resumeDue with
    | none => s
    | some st => s.setMedia { (s.media.writeResume (s.media.nextResume st) (!readBack)) with resumeDue := none })

/-! ## The start of media (R281, R307, R310) -/

/-- Saved read counts after a start whose record is not CLEAN: raised by one eighth of the limit (R292). -/
def State.savedCount (s : State) (b : Superblock) (clean : Bool) : Nat :=
  Map.getD s.media.savedReads b.num 0 + (if clean then 0 else s.readLimit b / 8)

/-- Applies the flush reserve: the pages of the record's FLUSH_SEQUENCE; what an incomplete flush lost is damaged. -/
def State.applyFlush (s : State) (r : ResumeRec) : State :=
  let m := s.media
  if m.reserve.isEmpty ∧ m.wb.isEmpty ∧ !m.endMark then s
  else if r.flushSeq ≠ m.reserveSeq then s.setMedia { m with reserve := [], endMark := false }
  else
    let lost := m.wb
    let s := s.setMedia { m with wb := [], endMark := false }
    let s := m.reserve.foldl (fun s w => s.addStream w.stream w.bytes true) s
    if m.endMark then s.refreshWb
    else
      let s := lost.foldl (fun s w => s.loseStream w.stream) s
      (s.refreshWb.flag fMED_ERR_FLUSH_INCOMPLETE).raise srcMEDIA stMED_FLUSH_INCOMPLETE 0 noCtx .f0

/-- The start of media: D dies per channel, `uniform` as R281 requires. A part formatted without a resume record starts
with its first (a new part). (DEDUCED, log entry 45.) -/
def State.startMedia (s : State) (d : Nat) (uniform : Bool) : State :=
  if !s.hw.variant.hasMedia then s
  else if !uniform ∨ !([1, 2, 4, 8, 16].contains d) then
    (s.fenceMedia).raise srcMEDIA stMED_CONFIG 0 noCtx .f3
  else
    let s := s.setFld fMED_CAP_DIES_PER_CHANNEL d
    let s := (s.setFld fMED_HEALTH_WEAR_PCT s.media.wear).setFld fMED_HEALTH_SPARE_PCT s.media.spare
    let s := s.setFld fMED_STATUS_WRITE_THROUGH (1 - s.fld fPWR_STATUS_HOLDUP_OK)
    let s := (s.setFld fMED_CAPACITY_USER_GB (userGB (d * s.hw.variant.channels))).refreshSlc
    let s := s.setMedia { s.media with lastOp := s.dtime, checkpointAt := s.dtime }
    let st := if s.media.rebuilds.isEmpty then msREADY else msDEGRADED
    match s.media.resume with
    | none =>
      if s.media.cell0.isEmpty ∧ s.media.cell1.isEmpty then
        (s.setMedia { s.media with resumeDue := some 0 }).setFld fMED_STATUS_STATE st
      else (s.fenceMedia).raise srcMEDIA stMED_RESUME_LOST 0 noCtx .f3
    | some r =>
      let one := s.media.cell0.newest.isNone || s.media.cell1.newest.isNone
      let s := s.applyFlush r
      let blocks := s.media.blocks.map (fun b => { b with reads := s.savedCount b (r.state == 1) })
      let s := s.setMedia { s.media with blocks := blocks, mapAt := r.mapAt, journalAt := r.journalAt, flushSeq := r.flushSeq }
      let s := s.setMedia (s.media.writeResume (s.media.nextResume 0) false)
      let s := s.setFld fMED_STATUS_STATE st
      if one ∧ 0 < r.seq then (s.flag fMED_ERR_RESUME_REPAIRED).raise srcMEDIA stMED_RESUME_REPAIRED 0 noCtx .f1 else s

end Sys2Proof.Machine
end

