-- ==== Sys2Proof/Machine/CtxOps.lean ====
section
/-!
DEFINITION. Stops and resets of contexts, teardown, and the device reset (spec/15: R333, R334, R349 to R361).
-/
namespace Sys2Proof.Machine

/-! ## Dumps (R334, Table 13.6) -/

/-- Seat ordinals: a tile's rank among the seated tiles of its context. -/
def seatMask (seats members : List Nat) : Nat :=
  ((numbered seats).filter (fun e => members.contains e.2)).foldl (fun m e => m ||| 2 ^ e.1) 0

/-- The sync dump of a context: live chains, mapped pegs, open barriers. (DEDUCED, log entry 73.) -/
def State.syncDump (s : State) (c : Nat) : Bytes :=
  let chain := fun (e : Nat × Chain) =>
    toLE 1 1 ++ toLE 1 e.2.owner ++ toLE 2 e.2.bufs.length ++ zeros 4 ++ toLE 8 (e.2.handle c e.1) ++ toLE 8 e.2.size ++ zeros 8
  let peg := fun (e : Nat × Peg) =>
    let w := s.sync.waits.filter (fun w => w.ctx == c && w.peg == e.1)
    toLE 1 2 ++ zeros 1 ++ toLE 2 w.length ++ toLE 2 e.1 ++ zeros 2 ++ toLE 4 e.2.value ++ zeros 20
  let bar := fun (e : Nat × Dbar) =>
    let seats := s.tilesOf c
    let mode := (if e.2.sense then 128 else 0) + (if e.2.stepMode then 1 else 0)
    toLE 1 3 ++ toLE 1 mode ++ toLE 2 e.2.gen ++ toLE 2 e.1 ++ zeros 2 ++ toLE 12 (seatMask seats e.2.arrived)
      ++ toLE 12 (seatMask seats e.2.members)
  ((s.chainsOf c).map chain).flatten ++ ((s.pegsOf c).map peg).flatten ++ ((s.barsOf c).map bar).flatten

/-- Captures a context's dump. -/
def State.capture (s : State) (c : Nat) (st : Status) : State :=
  let d : DumpRec := { status := st, stamp := s.dtime, body := s.syncDump c }
  { s with ctxs := Map.update s.ctxs c { dumps := [] } (fun x => { x with dumps := x.dumps ++ [d] }) }

/-! ## Vocabulary banks (Table 6.3) -/

def vbEMPTY : Nat := 0
def vbLOADING : Nat := 1
def vbREADY : Nat := 2
def vbFAILED : Nat := 3

def fBankState (slot bank : Nat) : Fld := if bank = 0 then fVOC_SLOTn_B0_STATE slot else fVOC_SLOTn_B1_STATE slot
def fBankBound (slot bank : Nat) : Fld := if bank = 0 then fVOC_SLOTn_B0_BOUND slot else fVOC_SLOTn_B1_BOUND slot
def fBankMib (slot bank : Nat) : Fld := if bank = 0 then fVOC_SLOTn_B0_MIB slot else fVOC_SLOTn_B1_MIB slot

/-- A bank's number in the map of banks. -/
def bankNum (slot bank : Nat) : Nat := slot * 2 + bank

/-- Every tile that has read a bank empties its vocabulary cache (R151). -/
def State.dropCached (s : State) (k : Nat) : State :=
  { s with tiles := Map.mapVals s.tiles (fun _ r => if r.vcache.contains k then { r with vcache := [] } else r) }

/-- Zeroises a bank: EMPTY, and every vocabulary cache that has read it is emptied (R151). -/
def State.emptyBank (s : State) (slot bank : Nat) : State :=
  let k := bankNum slot bank
  let s := ((s.setFld (fBankState slot bank) vbEMPTY).unflag (fBankBound slot bank)).setFld (fBankMib slot bank) 0
  let s := s.setFld fVOC_STATUS_BANK_FAILED (putBits (s.fld fVOC_STATUS_BANK_FAILED) k 1 0)
  { s.dropCached k with vocs := Map.del s.vocs k }

/-- Banks being loaded by a context, as (slot, bank). -/
def State.loadingBanks (s : State) (c : Nat) : List (Nat × Nat) :=
  (s.vocs.filter (fun e => e.2.loader == c && s.fld (fBankState (e.1 / 2) (e.1 % 2)) == vbLOADING)).map (fun e => (e.1 / 2, e.1 % 2))

/-! ## Stop (R349) -/

def State.stopLanes (s : State) (c : Nat) : State :=
  (s.tilesOf c).foldl (fun s t => s.mapTile t (fun r => { r with
    lanes := Map.mapVals r.lanes (fun _ x => if x.run = .running then { x with run := .halted } else x) })) s

/-- The stop of an ACTIVE context: its dumps are captured, its lanes stop at once. -/
def State.contextStop (s : State) (c : Nat) (st : Status) : State :=
  let s := ((s.capture c st).stopLanes c).setCtxState c csSTOPPED
  ((s.flag (fCTX_STATUS_STOPPED c)).setFld (fCTX_STATUS_STOP_STATUS c) st.toNat).ctxEvent c st 1 0

/-! ## Context reset (Table 15.3, R333) -/

/-- Queue pairs of a context that a reset ends: those of R302 and R399 serve the device and stay. -/
def State.resetQps (s : State) (c : Nat) : List Nat :=
  let kept := s.media.links.vals.map (·.qp) ++ (s.ledger.vals.filter (·.recovery)).map (·.qp)
  (s.net.qps.filter (fun e => e.2.ctx == c && !kept.contains e.1)).map (·.1)

/-- Windows a reset revokes: for CTX0 not the BEACON window, nor the LEDGER window while recovery queues are open (R360). -/
def State.resetWindows (s : State) (c : Nat) : List Nat :=
  let keeps := fun (w : Window) => c == 0 && (w.kind == .beacon || (w.kind == .ledger && s.ledger.vals.any (·.recovery)))
  (s.net.windows.filter (fun e => e.2.ctx == c && e.2.isOpen && !keeps e.2)).map (·.1)

/-- The actions of a context reset. -/
def State.resetContext (s : State) (c : Nat) : State :=
  let s := s.legAbort c stCTX_RESET
  let s := (s.tilesOf c).foldl State.resetTile s
  let s := s.freeWhere c (fun _ => true)
  let s := s.endWaits c (fun _ => true) stCTX_RESET
  let s := s.setPegs c (Map.mapVals (s.pegsOf c) (fun _ p => { p with value := 0 }))
  let s := s.eachBar c (fun s v b => s.setBar c v { b with arrived := [], sense := false, gate := false, waiters := [] })
  let s := (s.resetQps c).foldl (fun s i => s.qpError i stNET_FLUSHED true) s
  let s := (s.resetWindows c).foldl State.revoke s
  let s := (s.queuesOf c).foldl State.abortQueue s
  let s := (s.loadingBanks c).foldl (fun s e => (s.emptyBank e.1 e.2).wake (.bank (bankNum e.1 e.2)) stCTX_RESET) s
  let s := s.setMsix c { s.msixOf c with held := 0 }
  s.setTxns c ((s.txnsOf c).filter (fun t => t.state != .open_))

/-- Starts a reset of an ACTIVE, STOPPED or FENCED context. -/
def State.startReset (s : State) (c : Nat) : State := (s.setCtxState c csRESETTING).resetContext c

/-- Everything of a reset is done: tiles out of SCRUB, PEER and CONSUMER queue pairs gone, windows closed. -/
def State.resetDone (s : State) (c : Nat) : Bool :=
  (s.tilesOf c).all (fun t => s.tileState t != tsSCRUB)
    && s.net.qps.all (fun e => e.2.ctx != c || e.2.state != .err || e.2.flushed)
    && s.net.windows.all (fun e => e.2.ctx != c || e.2.closing.isNone)

/-- The end of a context reset (R349). (DEDUCED, log entry 59.) -/
def State.completeReset (s : State) (c : Nat) : State :=
  let s := ((s.endRequests c).unflag (fCTX_CTRL_RESET_REQ c)).flag (fCTX_STATUS_RESET_DONE c)
  (s.setCtxState c csACTIVE).ctxEvent c stOK 2 0

/-- An F2 applied as F3 (R387): dumps, the reset, then FENCED. -/
def State.fenceContext (s : State) (c : Nat) (st : Status) : State :=
  let s := (((s.capture c st).stopLanes c).resetContext c).endRequests c
  ((s.setCtxState c csFENCED).flag (fCTX_STATUS_FENCED c)).ctxEvent c st 3 0

/-- A VF disabled or reset (Table 15.1). (DEDUCED, log entry 59.) -/
def State.detach (s : State) (c : Nat) : State :=
  let st := s.ctxState c
  if st = csDEFINED ∨ st = csACTIVE ∨ st = csFENCED ∨ st = csSTOPPED ∨ st = csRESETTING then
    ((((s.resetContext c).endRequests c).unflag (fCTX_CTRL_RESET_REQ c)).unflag (fCTX_STATUS_FENCED c)).setCtxState c csDETACHED
  else s

/-- A VF in service again. -/
def State.attach (s : State) (c : Nat) : State :=
  if s.ctxState c = csDETACHED then s.setCtxState c (if s.keysHeld c then csACTIVE else csDEFINED) else s

/-! ## Keys (Table 16.8) -/

/-- Zeroises a context's keys: root key, seed, session key, counters, reports' ephemeral keys. -/
def State.destroyKeys (s : State) (c : Nat) : State :=
  let s := { s with sec := { s.sec with
    roots := Map.del s.sec.roots c
    sessions := Map.del s.sec.sessions c
    blobSeq := Map.del s.sec.blobSeq c
    outCtr := Map.del s.sec.outCtr c
    reports := Map.del s.sec.reports c } }
  let s := s.setData c { s.ctxData c with seed := none }
  s.setFld fSEC_KEYS_HELD (putBits (s.fld fSEC_KEYS_HELD) c 1 0)

/-! ## Teardown (R351) -/

/-- Unseats a tile: through DRAINING, or, when its lanes do not run an image, through SCRUB. -/
def State.unseatTile (s : State) (t : Nat) : State :=
  let s := s.mapTile t (fun r => { r with drainFor := .unseat, drainAt := s.dtime, nextImage := none })
  if s.tileState t = tsREADY then s.setTileState t tsDRAINING
  else if s.tileState t = tsFENCED ∨ s.tileState t = tsDRAINING ∨ s.tileState t = tsUNSEATED then s
  else ((s.dropTile t).mapTile t (fun r => { r with drainFor := .unseat })).setTileState t tsSCRUB

def State.slotsOf (s : State) (c : Nat) : List Nat :=
  (List.range 8).filter (fun n => s.fld (fVOC_SLOTn_ASSIGNED n) == 1 && s.fld (fVOC_SLOTn_CONTEXT n) == c)

def State.unassignSlot (s : State) (n : Nat) : State :=
  (((s.emptyBank n 0).emptyBank n 1).unflag (fVOC_SLOTn_ASSIGNED n)).setFld (fVOC_SLOTn_CONTEXT n) 0

/-- What the media holds of a context. -/
def Stream.ofCtx (st : Stream) (c : Nat) (tags : List Nat) : Bool :=
  match st with
  | .obj x _ => x == c
  | .chunk x _ _ _ => x == c
  | .frag t _ _ => tags.contains t
  | .ftl _ => false
  | .log x _ _ => x == c

/-- Trims a context's objects, generations and fragments. -/
def State.trimContext (s : State) (c : Nat) : State :=
  let m := s.media
  let tags := (m.frags.filter (fun f => f.ctx == c)).map (·.tag)
  let s := s.setMedia { m with
    objects := m.objects.filter (fun o => o.ctx != c)
    gens := m.gens.filter (fun g => g.ctx != c)
    frags := m.frags.filter (fun f => f.ctx != c)
    wb := m.wb.filter (fun w => !w.stream.ofCtx c tags)
    recoveries := m.recoveries.filter (fun r => !tags.contains r.tag)
    lostQueue := m.lostQueue.filter (fun e => !tags.contains e.1) }
  (s.dropStreams (fun st => st.ofCtx c tags)).refreshWb

/-- Steps 1 to 8 of a teardown. (DEDUCED, log entry 64.) -/
def State.tearDown (s : State) (c : Nat) : State :=
  let s := (((s.resetContext c).endRequests c).unflag (fCTX_STATUS_FENCED c)).setCtxState c csTEARDOWN
  let s := (s.tilesOf c).foldl State.unseatTile s
  let s := (s.slotsOf c).foldl State.unassignSlot s
  let mine := (s.net.qps.filter (fun e => e.2.ctx == c)).map (·.1)
  let s := mine.foldl State.destroyQp s
  let gone := s.net.windows.map (fun e => if e.2.ctx = c then (e.1, { e.2 with isOpen := false, closing := none }) else e)
  let s := { s with
    net := { s.net with windows := gone }
    sync := { s.sync with pegs := Map.del s.sync.pegs c, bars := Map.del s.sync.bars c }
    ledger := s.ledger.filter (fun e => e.2.ctx != c)
    ctxs := Map.del s.ctxs c }
  let gens := (s.ctxData c).gens
  let s := (s.destroyKeys c).setData c { CtxData.off with gens := gens }
  let s := s.setTxns c []
  s.trimContext c

/-- A torn-down context returns to FREE once its tiles are unseated, and its share is released. -/
def State.releaseContext (s : State) (c : Nat) : State :=
  let s := (((s.putReg (aCTX_SHARE0 c) 0).putReg (aCTX_SHARE1 c) 0).putReg (aCTX_SHARE2 c) 0).putReg (aCTX_SHARE3 c) 0
  let s := ((s.putReg (aCTX_STATUS c) 0).putReg (aCTX_CTRL c) 0).setFld (fCTX_INFO_VECTORS c) 0
  let s := (s.setCtxState c csFREE)
  ({ s with host := { s.host with lastNum := Map.del s.host.lastNum c } }).wake (.teardown c) stOK

/-! ## Device reset (Table 15.3, R358) -/

/-- Fences that a device reset clears. -/
def State.clearFences (s : State) : State :=
  let s := (s.setFld fDICE_STATUS_FENCED 0).setFld fDICE_CTRL_FENCE_REQ 0
  let s := ((s.unflag fMED_DCMP_STATUS_FENCED).unflag fMED_DCMP_STATUS_CKC_FENCED).unflag fVDC_STATUS_FENCED
  let s := (List.range s.hw.variant.tiles).foldl (fun s t =>
    let s := (s.unflag (fTILE_CTRL_FENCE_REQ t)).unflag (fTILE_STATE_SEATED t)
    (((s.setTileState t tsUNSEATED).setFld (fTILE_STATE_CONTEXT t) 0).unflag (fTILE_STATE_IMAGE t)).setTile t
      { TileRec.off with duty := (s.tile t).duty }) s
  { s with
    flt := { s.flt with fencedSlices := [] }
    clock := { s.clock with fenced := [], links := [], syncAt := [], fifos := [] } }

/-- The FTL map is reloaded and media starts again. -/
def State.restartMedia (s : State) : State :=
  if !s.hw.variant.hasMedia ∨ s.mediaSt = msOFF then s
  else s.startMedia (s.fld fMED_CAP_DIES_PER_CHANNEL) true

def State.noTimeline (s : State) : State :=
  let s := (s.setTimeline tlNONE).enterUngated
  { s with clk := { s.clk with history := [] } }

/-- A device reset up to the restart of media: the write buffer is flushed first. -/
def State.resetDevice (s : State) : State :=
  let s := if s.hw.variant.hasMedia ∧ !s.media.wb.isEmpty then s.endFlush false else s
  let s := (List.range 64).foldl (fun s c =>
    let st := s.ctxState c
    if st = csFREE ∨ st = csTEARDOWN ∧ (s.tilesOf c).isEmpty then s
    else
      let s := (s.resetContext c).endRequests c
      let s := s.setData c { s.ctxData c with run := none }
      if st = csACTIVE ∨ st = csSTOPPED ∨ st = csRESETTING then
        ((s.unflag (fCTX_CTRL_RESET_REQ c)).flag (fCTX_STATUS_RESET_DONE c)).setCtxState c csACTIVE
      else s) s
  let s := (s.net.qps.keys.foldl State.destroyQp s).clearFences
  let s := { s with
    dice := []
    work := { s.work with queued := [], returned := [], pairs := [], lastPair := [], split := [] }
    ink := { s.ink with chains := [], pools := [] }
    net := { s.net with egress := [], ingress := [], messages := [], winMem := [], finished := [], gates := [], skipped := [] }
    flt := { s.flt with seq := 0 } }
  s.noTimeline

def State.deviceReset (s : State) : State := (s.resetDevice).restartMedia

/-! ## Images a context needs (R99, R151, R180) -/

/-- Images in effect for a step or a later one. -/
def CtxData.imagesFrom (d : CtxData) (lo : Nat) : List Nat :=
  (d.imageFor lo).toList ++ (d.images.filter (fun e => lo < e.1)).map (·.2)

def TxnItem.placedImage : TxnItem → Option Nat
  | .placed n => some n
  | _ => none

/-- Images of a context in effect, on its tiles, pending, or needed by items of earlier steps. -/
def State.neededImages (s : State) (c : Nat) : List Nat :=
  let d := s.ctxData c
  let now := s.lastStep + d.lead
  let lo := match d.run with
    | some r => min r.nextCommit now
    | none => now
  let tiles := (s.tilesOf c).flatMap (fun t => (s.tile t).image.toList ++ (s.tile t).nextImage.toList)
  let pending := (s.txnsOf c).flatMap (fun t => t.items.filterMap TxnItem.placedImage)
  let items := (s.work.queued.filter (fun w => w.ctx == c)).map (·.image)
  d.imagesFrom lo ++ tiles ++ pending ++ items

/-- A vocabulary bank is bound (R151). -/
def State.bankBound (s : State) (k : Nat) : Bool :=
  s.fld (fVOC_SLOTn_ASSIGNED (k / 2)) == 1 &&
    (let c := s.fld (fVOC_SLOTn_CONTEXT (k / 2))
     (s.neededImages c).any (fun i => (Map.getD (s.ctxData c).binds i []).contains k))

end Sys2Proof.Machine
end

