-- ==== Sys2Proof/Machine/Dice.lean ====
section
/-!
DEFINITION. The Dice units (R64 to R69, Tables 2.8 to 2.12): evaluations with their inverse check, and fencing.
-/
namespace Sys2Proof.Machine

/-- Source ID of Dice unit u (Table 17.1). -/
def srcDICE (u : Nat) : Nat := 4 + u

def State.diceFenced (s : State) (u : Nat) : Bool := bitOf (s.fld fDICE_STATUS_FENCED) u

/-- Hands a unit's evaluations to other units (R69). -/
def State.reassign (s : State) (u : Nat) : State :=
  let mine := s.dice.filter (fun j => j.unit == u)
  mine.foldl State.addJob { s with dice := s.dice.filter (fun j => j.unit != u) }

/-- Fences a unit; the last one raises F4 with DICE_ALL_FENCED from its source. -/
def State.fenceDice (s : State) (u : Nat) : State :=
  if s.diceFenced u then s
  else
    let s := (s.flag (fDICE_STATUS_FENCED.bit u)).reassign u
    if s.fld fDICE_STATUS_FENCED = 15 then (s.flag fDICE_ERR_ALL_FENCED).raise (srcDICE u) stDICE_ALL_FENCED 0 noCtx .f4 else s

/-- The Feistel network of a job's epoch, with the round keys of its context's seed. -/
def State.diceResult (s : State) (j : DiceJob) : Option Nat :=
  ((s.ctxData j.ctx).seed).map (fun seed => feistel (throwKeys seed j.epoch j.k) j.k j.x)

/-- A unit takes its first evaluation. `mismatch`: the inverse network did not give the input back (a hardware failure). -/
def execDiceEvaluation (unit : Fin 4) (mismatch : Bool) (s : State) : Step' :=
  act s (fun s =>
    if s.diceFenced unit then s
    else match s.dice.find? (fun j => j.unit == unit.val) with
      | none => s
      | some j =>
        if mismatch then
          let s := (s.flag (fDICE_ERR_CHECK_FAIL.bit unit)).bump fDICE_CHECK_COUNT_COUNT 1
          (s.raise (srcDICE unit) stDICE_CHECK 0 noCtx .f3).fenceDice unit
        else match s.diceResult j with
          | none => { s with dice := s.dice.erase j }
          | some y =>
            let s := { s with dice := s.dice.erase j }
            if y < j.count then s.indexKnown j.ctx j.step j.place y
            else { s with dice := s.dice ++ [{ j with x := y }] })

/-- FENCE_REQ is W1S; a bit once set stays set. -/
def execDiceFenceReq (fn : Fin 64) (mask : Fin 16) (s : State) : Step' :=
  act s (fun s => if fn ≠ 0 ∨ !s.reaches fn ∨ s.mod.recovery then s
    else s.setFld fDICE_CTRL_FENCE_REQ (s.fld fDICE_CTRL_FENCE_REQ ||| mask.val))

/-- DICE_FENCE_COMPLETE (R69). A requested unit is fenced once its evaluations complete, raising F4
DICE_ALL_FENCED when no unit remains. -/
def execDiceFenceComplete (unit : Fin 4) (s : State) : Step' :=
  act s (fun s =>
    if !bitOf (s.fld fDICE_CTRL_FENCE_REQ) unit || s.dice.any (fun j => j.unit == unit.val) then s
    else s.fenceDice unit)

end Sys2Proof.Machine
end

