-- ==== Sys2Proof/Machine/FwOps.lean ====
section
/-!
DEFINITION. The firmware store (spec/21): banks, the selector record (R467), levels in service (R457), the persistent
settings (R468) and rollback (R465).
-/
namespace Sys2Proof.Machine

/-! Components of Table 21.1 and states of UPD_STATE. -/
def fcLOADER : Nat := 0
def fcMP_HUB : Nat := 1
def fcNET : Nat := 2
def fcTILE : Nat := 3

def usIDLE : Nat := 0
def usDOWNLOADING : Nat := 1
def usVERIFIED : Nat := 2
def usACTIVATING : Nat := 3
def usTRIAL : Nat := 4

/-- Source ID of the management processor (Table 17.1). -/
def srcMP : Nat := 0x0001

def State.setPwr (s : State) (p : PowerState) : State := { s with pwr := p }
def State.setMod (s : State) (m : ModState) : State := { s with mod := m }

def State.setFw (s : State) (f : FwState) : State := { s with fw := f }

/-! ## Banks -/

def State.bank (s : State) (comp b : Nat) : Bank := Map.getD s.fw.banks (comp * 2 + b) Bank.empty
def State.setBank (s : State) (comp b : Nat) (x : Bank) : State :=
  s.setFw { s.fw with banks := Map.put s.fw.banks (comp * 2 + b) x }

def State.activeBank (s : State) (comp : Nat) : Nat := s.fld (fUPD_STATEn_ACTIVE_BANK comp)
def State.updState (s : State) (comp : Nat) : Nat := s.fld (fUPD_STATEn_STATE comp)
def State.setUpd (s : State) (comp v : Nat) : State := s.setFld (fUPD_STATEn_STATE comp) v

/-- The image a component runs. -/
def State.running (s : State) (comp : Nat) : Option FwImage := (s.bank comp (s.activeBank comp)).image

/-- Shows FW_VERSION of both banks. -/
def State.showVersions (s : State) (comp : Nat) : State :=
  let a := s.activeBank comp
  let v := fun b => ((s.bank comp b).image.map (·.version)).getD 0
  let staged := if (s.bank comp (1 - a)).header.isEmpty then v (1 - a) else fieldAt (s.bank comp (1 - a)).header 8 4
  (s.setFld (fUPD_VERSIONn_ACTIVE comp) (v a)).setFld (fUPD_VERSIONn_STAGED comp) staged

/-- GLB_FW (R457): the content level is the highest of MP_HUB and TILE; both must run a COMPAT_LEVEL.
(DEDUCED, log entry 66.) -/
def State.showLevels (s : State) : State :=
  let m := s.running fcMP_HUB
  let t := s.running fcTILE
  let of := fun (f : FwImage → Nat) => ((m.map f).getD 0, (t.map f).getD 0)
  let c := of (·.content)
  let k := of (·.compat)
  ((s.setFld fGLB_FW_CONTENT_LEVEL (max c.1 c.2)).setFld fGLB_FW_COMPAT_LEVEL (min k.1 k.2)).setFld
    fGLB_FW_SECURITY_VERSION ((m.map (·.sv)).getD 0)

/-! ## The selector record (R467, as R309 and R310) -/

def SelCell.newest (c : SelCell) : Option SelRec := (c.filterMap id).getLast?

def FwState.selector (f : FwState) : Option SelRec :=
  match f.cellA.newest, f.cellB.newest with
  | some a, some b => some (if a.seq < b.seq then b else a)
  | some a, none => some a
  | none, b => b

def SelRec.first : SelRec := { seq := 0, active := [], trial := [], count := [] }

/-- Writes record n into cell n mod 2; a page that fails its readback is followed by a second. -/
def FwState.writeSelector (f : FwState) (change : SelRec → SelRec) (bad : Bool) : FwState :=
  let n := ((f.selector).map (·.seq + 1)).getD 0
  let r := { change ((f.selector).getD SelRec.first) with seq := n }
  let pages := if bad then [none, some r] else [some r]
  if n % 2 = 0 then { f with cellA := f.cellA ++ pages } else { f with cellB := f.cellB ++ pages }

def State.select (s : State) (change : SelRec → SelRec) : State := s.setFw (s.fw.writeSelector change false)

def State.inTrial (s : State) (comp : Nat) : Bool := ((s.fw.selector).map (fun r => Map.getD r.trial comp false)).getD false

/-! ## Settings (R468) -/

def RegDef.isRwt (r : RegDef) : Bool := r.fields.any (fun f => f.acc == .rwt)
def isRwt (a : Nat) : Bool := ((regAt a).map RegDef.isRwt).getD false

/-- The group of an RWT register: bookings and caps belong to SHARES, HANG_MS to LANTERN. -/
def rwtGroup (a : Nat) : Nat :=
  if 0x101000 ≤ a ∧ a < 0x101400 then 1 else if a = aNET_LAN_CFG then 3 else 0

def isShare (a : Nat) : Bool := 0x100000000 ≤ a && 0x18 ≤ a % 0x10000 && a % 0x10000 ≤ 0x30

/-- A group as it stands now. -/
def State.groupNow (s : State) (g : Nat) : Map Nat :=
  let regs := (s.regs.filter (fun e => (isRwt e.1 && rwtGroup e.1 == g) || (g == 1 && isShare e.1))).map
    (fun e => (e.1, e.2.toNat))
  if g = 2 then (List.range 8).map (fun n => (aVOC_SLOTn n, s.reg (aVOC_SLOTn n) % 256))
  else if g = 3 then regs ++ [(aNET_LAN_STATUS, s.self)]
  else regs

def State.settingsNow (s : State) : Map (Map Nat) := (List.range 4).map (fun g => (g, s.groupNow g))

def State.formatNow (s : State) : Nat := ((s.running fcMP_HUB).map (·.settings)).getD 0

/-- The registers of a group return to their reset values. -/
def State.defaultGroup (s : State) (g : Nat) : State :=
  let gone := fun (a : Nat) => (isRwt a && rwtGroup a == g) || (g == 1 && isShare a)
  let s := { s with regs := s.regs.filter (fun e => !gone e.1) }
  if g = 1 then { s with net := { s.net with shaperCfg := [] } }
  else if g = 2 then (List.range 8).foldl (fun s n => s.putReg (aVOC_SLOTn n) (s.reg (aVOC_SLOTn n) / 256 * 256)) s
  else if g = 3 then s.setFld fNET_LAN_STATUS_POSITION 0
  else s

/-- Puts the stored values of a group into effect. -/
def State.loadGroup (s : State) (g : Nat) (vals : Map Nat) : State :=
  let s := s.defaultGroup g
  vals.foldl (fun s e =>
    if g = 2 then s.putReg e.1 (s.reg e.1 / 256 * 256 + e.2)
    else if e.1 = aNET_LAN_STATUS then s.setFld fNET_LAN_STATUS_POSITION e.2
    else s.putReg e.1 e.2) s

/-- VECTORS in effect, as CTX_INFO shows them. -/
def State.showVectors (s : State) : State :=
  (List.range 64).foldl (fun s c => s.setFld (fCTX_INFO_VECTORS c) (s.shareVectors c)) s

/-- Loads every group; one whose format lies below the lowest the firmware reads is reset, with F0. -/
def State.loadSettings (s : State) (lowest : Nat) (groups : Map (Map Nat)) (formats : Map Nat)
    (shapers : List (Nat × Nat × Nat)) : State :=
  let bad := fun g => Map.getD formats g lowest < lowest
  let s := s.setFld fUPD_STATUS_DEFAULTED 0
  let s := groups.foldl (fun s e =>
    if bad e.1 then
      ((((s.defaultGroup e.1).setFld (fUPD_STATUS_DEFAULTED.bit e.1) 1).flag fUPD_ERR_SETTINGS_DEFAULTED).raise srcMP
        stSETTINGS_DEFAULTED 0 noCtx .f0)
    else s.loadGroup e.1 e.2) s
  let cfg : Map ShaperCfg := shapers.map (fun e => (e.1, { rate := e.2.1, burst := e.2.2 }))
  let s := if bad 1 then s else { s with net := { s.net with shaperCfg := cfg } }
  s.showVectors

def State.shaperList (s : State) : List (Nat × Nat × Nat) := s.net.shaperCfg.map (fun e => (e.1, e.2.rate, e.2.burst))

/-- At an activation: groups whose format the new firmware does not read are reset, with F0. -/
def State.defaultGroups (s : State) (lowest : Nat) (formats : Map Nat) : State :=
  let s := s.setFld fUPD_STATUS_DEFAULTED 0
  ((List.range 4).filter (fun g => Map.getD formats g lowest < lowest)).foldl (fun s g =>
    (((s.defaultGroup g).setFld (fUPD_STATUS_DEFAULTED.bit g) 1).flag fUPD_ERR_SETTINGS_DEFAULTED).raise srcMP
      stSETTINGS_DEFAULTED 0 noCtx .f0) s

/-- Every group in the format of the MP_HUB image that runs. -/
def State.formatsNow (s : State) : Map Nat := (List.range 4).map (fun g => (g, s.formatNow))

/-- The firmware store with the settings as they stand; before boot has loaded them (stage 2), as it was. -/
def State.storedFw (s : State) : FwState :=
  let f := { s.fw with trialAt := [], switching := none, switchStep := none }
  if s.mod.booted < 3 then f
  else { f with
    saved := s.settingsNow
    formats := s.formatsNow
    shapers := s.shaperList
    contexts := (List.range 64).filter (fun c => c != 0 && s.ctxState c != csFREE && s.ctxState c != csTEARDOWN) }

/-- Copies of the settings for a rollback of MP_HUB. (DEDUCED, log entry 66.) -/
def State.keepSettings (s : State) : State :=
  s.setFw { s.fw with kept := s.settingsNow, keptFormats := s.formatsNow, keptShapers := s.shaperList }

/-! ## Switches (R464) and rollback (R465) -/

/-- The bank a component runs changes. -/
def State.flipBank (s : State) (comp bank : Nat) : State :=
  ((s.setFld (fUPD_STATEn_ACTIVE_BANK comp) bank).showVersions comp).showLevels

def State.anySeatedRun (s : State) : Bool := s.data.keys.any (fun c => (s.runOf c).isSome)

/-- The first step at whose changeover TILE switches. (DEDUCED, log entry 86.) -/
def State.tileSwitchStep (s : State) : Nat := s.lastStep + s.leadOf 0 + 2

/-- Begins the pause of a switch; FW_ALIVE is held for up to 400 ms, so the watchdog's 50 ms count from 350 ms on. -/
def State.beginSwitch (s : State) (comp : Nat) (back : Bool) : State :=
  let left := if comp = fcNET then s.hw.variant.ports / 8 else 1
  let s := s.setFw { s.fw with
    switching := some (comp, left, back)
    switchStep := if comp = fcTILE then some s.tileSwitchStep else none }
  if comp = fcMP_HUB then s.setLan { s.lan with fwAlive := true, fwKicked := s.dtime + 350000000 } else s

/-- MP_HUB gets its settings back as they stood at activation. (DEDUCED, log entry 66.) -/
def State.restoreKept (s : State) : State :=
  if s.fw.kept.isEmpty then s
  else
    let f := s.fw
    let s := s.setFw { f with saved := f.kept, formats := f.keptFormats, shapers := f.keptShapers, kept := [] }
    if s.mod.booted < 3 then s else s.loadSettings 0 f.kept f.keptFormats f.keptShapers

/-- A component in TRIAL returns to its previous bank: TILE at a changeover, at boot without a pause.
(DEDUCED, log entry 86.) -/
def State.rollback (s : State) (comp : Nat) : State :=
  let prev := 1 - s.activeBank comp
  let bad := s.bank comp (1 - prev)
  let s := s.setBank comp (1 - prev) { bad with header := [] }
  let s := s.select (fun r => { r with
    active := Map.put r.active comp prev, trial := Map.put r.trial comp false, count := Map.put r.count comp 0 })
  let s := (s.setFld (fUPD_STATEn_TRIAL_COUNT comp) 0).setUpd comp usIDLE
  let s := s.setFw { s.fw with trialAt := Map.del s.fw.trialAt comp }
  let running := s.mod.booted == 5 && comp != fcLOADER
  let s := if running ∧ comp = fcTILE ∧ s.anySeatedRun then s else s.flipBank comp prev
  let s := if comp = fcMP_HUB then s.restoreKept else s
  let s := if running && (comp != fcTILE || s.anySeatedRun) then s.beginSwitch comp true else s
  (s.flag fUPD_ERR_ROLLED_BACK).raise srcMP stUPD_ROLLED_BACK 0 noCtx .f0

/-- The component in TRIAL, if any. -/
def State.trialComp (s : State) : Option Nat := (List.range 4).find? (fun c => s.updState c == usTRIAL)

end Sys2Proof.Machine
end

