-- ==== Sys2Proof/Machine/FaultOps.lean ====
section
/-!
DEFINITION. The fault collector (R382 to R388, R396 to R398): commit in collector order, records, escalation, reactions,
the safe state, FAULT_OUT_N.
-/
namespace Sys2Proof.Machine

def State.setFlt (s : State) (f : FaultState) : State := { s with flt := f }

/-! ## FAULT_OUT_N (R398) -/

/-- The device drives FAULT_OUT_N low. -/
def State.faultOut (s : State) : Bool :=
  s.fld fFLT_STATUS_READY == 0 || s.safe || s.fld fFLT_STATUS_F4_UNACK == 1
    || (s.fld fFLT_STATUS_F3_UNACK == 1 && s.fld fFLT_CTRL_OUT_F3 == 1)

/-- The pin and FLT_STATUS.FAULT_OUT follow the conditions. -/
def State.showFaultOut (s : State) : State :=
  let v := if s.faultOut then 1 else 0
  if s.fld fFLT_STATUS_FAULT_OUT = v then s else (s.setFld fFLT_STATUS_FAULT_OUT v).emit (.pin .faultOutN (v == 0))

/-! ## Sources (Table 17.1) -/

def sourceListed (src : Nat) : Bool :=
  src ≤ 0x1F || (0x30 ≤ src && src ≤ 0x33) || (0x100 ≤ src && src ≤ 0x15F) || (0x200 ≤ src && src ≤ 0x21F)

/-! ## Collector order (R41, R42) -/

/-- An event on a line, of a collector action or an acknowledgement. -/
def State.push (s : State) (e : ErrEvent) : State := s.setFlt { s.flt with lines := s.flt.lines ++ [e] }

/-- Event a stands before event b in collector order: by stamp, then source; at an equal stamp an acknowledgement of the
collector stands first. (DEDUCED, log entry 59.) -/
def ErrEvent.before (a b : ErrEvent) : Bool :=
  a.stamp < b.stamp || (a.stamp == b.stamp && (a.src < b.src || (a.src == b.src && a.kind != .fault && b.kind == .fault)))

def firstEvent : List ErrEvent → Option ErrEvent
  | [] => none
  | e :: es => match firstEvent es with
    | none => some e
    | some f => if f.before e then some f else some e

/-- Commits the first event whose stamp lies 24 ns back. (DEDUCED, log entry 60.) -/
def State.commitEvent (s : State) : State :=
  match firstEvent (s.flt.lines.filter (fun e => e.stamp + 24 ≤ s.dtime)) with
  | none => s
  | some e =>
    let others := (s.flt.lines.erase e).map (·.stamp) ++ s.flt.recentStamps
    let e' := { e with concurrent := others.any (fun t => t < e.stamp + 5 && e.stamp < t + 5) }
    s.setFlt { s.flt with
      lines := s.flt.lines.erase e
      committed := s.flt.committed ++ [e']
      recentStamps := s.flt.recentStamps.filter (fun t => s.dtime < t + 64) ++ [e.stamp] }

/-! ## Records (R383) -/

def FaultRec.bytes (r : FaultRec) : Bytes :=
  let flag := fun (b : Bool) (i : Nat) => if b then 2 ^ i else 0
  toLE 8 r.stamp ++ toLE 4 r.seq ++ toLE 2 r.status.toNat ++ toLE 2 r.source ++ toLE 2 r.unit ++ toLE 1 r.ctx
    ++ toLE 1 (r.raised.code * 16 + r.applied.code)
    ++ toLE 2 (flag r.concurrent 0 + flag r.escalated 1 + flag r.consequential 2 + flag r.forced 3 + flag r.first 4
        + flag r.discrepancy 5)
    ++ zeros 2 ++ toLE 8 r.step

def FClass.counter : FClass → Fld
  | .f0 => fFLT_COUNT_F01_F0 | .f1 => fFLT_COUNT_F01_F1 | .f2 => fFLT_COUNT_F2345_F2 | .f3 => fFLT_COUNT_F2345_F3
  | .f4 => fFLT_COUNT_F2345_F4 | .f5 => fFLT_COUNT_F2345_F5

/-- Records and counts an event: to the owner, and to the tenant it names. -/
def State.record (s : State) (e : ErrEvent) (applied : FClass) (esc cons first : Bool) : State :=
  let r : FaultRec := {
    stamp := e.stamp, seq := s.flt.seq, status := e.status, source := e.src, unit := e.unit, ctx := e.ctx, raised := e.cls,
    applied := applied, concurrent := e.concurrent, escalated := esc, consequential := cons, forced := e.forced,
    first := first, discrepancy := e.discrepancy, step := s.reg aSTEP_LAST }
  let s := (s.setFlt { s.flt with seq := (s.flt.seq + 1) % 2 ^ 32, records := s.flt.records ++ [r] }).bump applied.counter 1
  let s := s.postEvent 0 1 r.bytes
  if 1 ≤ e.ctx ∧ e.ctx < 64 then s.postEvent e.ctx 1 r.bytes else s

/-- FLT_FIRST latches the first F3 or above since both F3_UNACK and F4_UNACK were clear. -/
def State.isFirst (s : State) : Bool := s.fld fFLT_STATUS_F3_UNACK == 0 && s.fld fFLT_STATUS_F4_UNACK == 0

def State.latchFirst (s : State) (e : ErrEvent) (applied : FClass) : State :=
  let s := (s.setFld fFLT_FIRST_STATUS e.status.toNat).setFld fFLT_FIRST_SOURCE e.src
  ((((s.setFld fFLT_FIRST_CLASS applied.code).setFld fFLT_FIRST_CONTEXT e.ctx).flag fFLT_FIRST_VALID).putReg aFLT_FIRST_STAMP
    e.stamp)

/-! ## Reactions (Table 17.3) -/

/-- Fences a quarter: every tile of it is fenced (R453, R455). -/
def State.fenceQuarter (s : State) (q : Nat) : State :=
  let s := (List.range 24).foldl (fun s i =>
    let t := q * 24 + i
    if !s.tilePresent t ∨ s.tileState t = tsFENCED then s else (s.dropTile t).setTileState t tsFENCED) s
  if s.clock.fenced.contains q then s
  else { s with clock := { s.clock with fenced := s.clock.fenced ++ [q], links := s.clock.links.filter (· != q) } }

/-- The unit an F3's source names is fenced as its chapter states; real events come from units fenced already.
(DEDUCED, log entry 59.) -/
def State.fenceUnit (s : State) (src : Nat) : State :=
  if 4 ≤ src ∧ src ≤ 7 then s.fenceDice (src - 4)
  else if src = 0x0C then s.flag fMED_DCMP_STATUS_FENCED
  else if src = 0x12 then (if s.hw.variant.hasVdc then s.flag fVDC_STATUS_FENCED else s)
  else if 0x30 ≤ src ∧ src ≤ 0x33 then s.fenceQuarter (src - 0x30)
  else if 0x100 ≤ src ∧ src ≤ 0x15F then
    let t := src - 0x100
    if !s.tilePresent t ∨ s.tileState t = tsFENCED then s else (s.dropTile t).setTileState t tsFENCED
  else s

/-- F4: the legs of every run abort, then the device is reset; in trial, an F4 of the management processor rolls back. -/
def State.reactF4 (s : State) (e : ErrEvent) : State :=
  let s := s.flag fFLT_STATUS_F4_UNACK
  let s := (s.data.keys.filter (fun c => (s.runOf c).isSome)).foldl (fun s c => s.legAbort c e.status) s
  let s := s.deviceReset
  match e.src == srcMP, s.trialComp with
  | true, some c => s.rollback c
  | _, _ => s

/-- The safe state (R396): device-lost notices, everything halted, the flush started. -/
def State.enterSafe (s : State) : State :=
  let s := s.flag fFLT_STATUS_GRAVE
  let m := s.message lkDEVICE_LOST 0xFF 0 0 0 []
  let s := (List.range s.hw.variant.ports).foldl (fun s p => s.emit (.frame p 0 0 none (.lantern 0xFFFF m))) s
  let halt := fun (_ : Nat) (r : TileRec) => { r with
    calls := [], lanes := Map.mapVals r.lanes (fun _ x => if x.run = .running then { x with run := .halted } else x) }
  let s := { s with
    tiles := Map.mapVals s.tiles halt
    dice := []
    net := { s.net with egress := [], gates := [] } }
  let s := (List.range s.hw.variant.quarters).foldl (fun s q =>
    if s.qps q = 0 then s.setFld fCLK_STATUS_QPS (putBits (s.fld fCLK_STATUS_QPS) (2 * q) 2 1) else s) s
  s.startFlush

/-- An F2 of a context (R387). (DEDUCED, log entry 59.) -/
def State.applyF2 (s : State) (e : ErrEvent) : State :=
  let st := s.ctxState e.ctx
  if e.ctx = 0 ∨ 64 ≤ e.ctx then s.record e .f2 false false false
  else if st = csSTOPPED ∨ st = csRESETTING ∨ st = csFENCED then s.record e .f2 false true false
  else if st ≠ csACTIVE then s.record e .f2 false false false
  else if s.fld (fCTX_STATUS_STOPPED e.ctx) = 1 then (s.record e .f3 true false false).fenceContext e.ctx e.status
  else ((s.record e .f2 false false false).contextStop e.ctx e.status).legAbort e.ctx e.status

/-- The class applied to an F3 or F4 (R386). -/
def State.escalate (s : State) (c : FClass) : FClass :=
  match c with
  | .f3 => if s.fld fFLT_STATUS_F3_UNACK = 1 then .f4 else .f3
  | .f4 => if s.fld fFLT_STATUS_F4_UNACK = 1 then .f5 else .f4
  | c => c

def State.applyFault (s : State) (e : ErrEvent) : State :=
  if s.safe then s.record e e.cls false false false
  else match e.cls with
    | .f0 => s.record e .f0 false false false
    | .f1 => s.record e .f1 false false false
    | .f2 => s.applyF2 e
    | c =>
      let a := s.escalate c
      let first := s.isFirst
      let s := s.record e a (a != c) false first
      let s := if first then s.latchFirst e a else s
      match a with
      | .f3 => (s.flag fFLT_STATUS_F3_UNACK).fenceUnit e.src
      | .f4 => s.reactF4 e
      | _ => s.enterSafe

/-- An acknowledgement takes effect (R385): VALID is clear once F3_UNACK and F4_UNACK are.
(DEDUCED, log entry 59.) -/
def State.acknowledge (s : State) (e : ErrEvent) : State :=
  let s := match e.kind with
    | .ackF3 => s.unflag fFLT_STATUS_F3_UNACK
    | .ackF4 => s.unflag fFLT_STATUS_F4_UNACK
    | .ackF2 => (s.unflag (fCTX_STATUS_STOPPED e.ctx)).setFld (fCTX_STATUS_STOP_STATUS e.ctx) 0
    | .fault => s
  if s.isFirst then s.unflag fFLT_FIRST_VALID else s

/-- Takes the next committed event. -/
def State.takeFault (s : State) : State :=
  match s.flt.committed with
  | [] => s
  | e :: es =>
    let s := s.setFlt { s.flt with committed := es }
    match e.kind with
    | .fault => (s.applyFault e).showFaultOut
    | _ => (if s.safe then s else s.acknowledge e).showFaultOut

end Sys2Proof.Machine
end

