-- ==== Sys2Proof/Machine/Contexts.lean ====
section
/-!
DEFINITION. Commands of the context lifecycle and the resets of Table 15.3 (spec/15: R348 to R361).
-/
namespace Sys2Proof.Machine

/-! ## Requests of the owner -/

/-- The owner's reset of a FENCED context acknowledges the escalated F3 and the earlier F2 (R361, R387). -/
def State.ackFence (s : State) (c : Nat) : State :=
  ((s.unflag (fCTX_STATUS_FENCED c)).unflag (fCTX_STATUS_STOPPED c)).setFld (fCTX_STATUS_STOP_STATUS c) 0

/-- An owner's reset request (Table 15.1); none: the state does not permit it. -/
def State.ownerReset (s : State) (c : Nat) : Option State :=
  let st := s.ctxState c
  if st = csACTIVE then some (s.startReset c)
  else if st = csSTOPPED ∨ st = csRESETTING then some s
  else if st = csFENCED then some ((s.ackFence c).startReset c)
  else none

/-- CTX_RESET (R357). The owner's CTX_RESET opcode starts a context reset, or resets a FENCED context and
acknowledges its escalated fault. (DEDUCED, log entry 58.) -/
def execCtxReset (sq : Fin 256) (target : Fin 64) (s : State) : Step' :=
  act s (fun s => s.onReq 0 sq 0x45 (fun s r => match s.ownerReset target with
    | some t => t.answer r stOK
    | none => s.answer r stCTX_STATE))

/-- CTX_TEARDOWN (R351). The CTX_TEARDOWN opcode resets the context, unseats its tiles, frees its resources
and destroys its keys. (DEDUCED, log entry 64.) -/
def execCtxTeardown (sq : Fin 256) (target : Fin 64) (s : State) : Step' :=
  act s (fun s => s.onReq 0 sq 0x46 (fun s r =>
    let st := s.ctxState target
    if target = 0 ∨ st = csFREE ∨ st = csTEARDOWN then s.answer r stCTX_STATE
    else (s.tearDown target).await r (.teardown target)))

/-- Teardown completes once the keys are destroyed and the tiles unseated. -/
def execTeardownComplete (ctx : Fin 64) (s : State) : Step' :=
  act s (fun s =>
    if s.ctxState ctx ≠ csTEARDOWN ∨ !(s.tilesOf ctx).isEmpty ∨ s.keysHeld ctx then s else s.releaseContext ctx)

/-! ## The context's registers -/

/-- Writing 1 to CTX_CTRL.RESET_REQ, from the context's function or PF0. (DEDUCED, log entry 58.) -/
def State.resetReq (s : State) (fn ctx : Nat) : State :=
  if (fn ≠ 0 ∧ fn ≠ ctx) ∨ (s.ctxState ctx = csFENCED ∧ fn ≠ 0) then s
  else match s.ownerReset ctx with
    | some t => t.flag (fCTX_CTRL_RESET_REQ ctx)
    | none => s

/-- CTX_RESET_REQ (R357). Writing 1 to CTX_CTRL.RESET_REQ requests a context reset, or joins a reset already
in progress. -/
def execCtxResetReq (fn ctx : Fin 64) (s : State) : Step' :=
  act s (fun s => if s.reaches fn ∧ !s.mod.recovery then s.resetReq fn ctx else s)

/-- Writing 1 to CTX_STATUS.STOPPED in the context's own window: an acknowledgement in collector order (R385). -/
def State.stoppedAck (s : State) (fn ctx : Nat) : State :=
  if fn ≠ ctx ∨ s.fld (fCTX_STATUS_STOPPED ctx) = 0 then s
  else s.push { kind := .ackF2, src := 0, status := stOK, unit := 0, ctx := ctx, cls := .f2, stamp := s.dtime,
                forced := false, discrepancy := false, concurrent := false }

/-- CTX_STOPPED_ACK (R361). Writing 1 to CTX_STATUS.STOPPED acknowledges the context's F2. -/
def execCtxStoppedAck (fn ctx : Fin 64) (s : State) : Step' :=
  act s (fun s => if s.reaches fn ∧ !s.mod.recovery then s.stoppedAck fn ctx else s)

/-- DUMP_CAPTURE_COMPLETE (R349). When dump capture ends, the stopped context enters RESETTING. -/
def execDumpCaptureComplete (ctx : Fin 64) (s : State) : Step' :=
  act s (fun s => if s.ctxState ctx = csSTOPPED then s.startReset ctx else s)

/-- CONTEXT_RESET_COMPLETE (R360). When every action of a context reset is done, submissions complete with
CTX_RESET, RESET_DONE is set and the context is ACTIVE. -/
def execContextResetComplete (ctx : Fin 64) (s : State) : Step' :=
  act s (fun s => if s.ctxState ctx = csRESETTING ∧ s.resetDone ctx then s.completeReset ctx else s)

/-! ## Virtual functions (R422, Table 15.1) -/

/-- VF Enable with NumVFs. (DEDUCED, log entries 64, 90.) -/
def execVfEnable (count : Fin 64) (s : State) : Step' :=
  act s (fun s =>
    if s.host.numVFs ≠ 0 then s
    else
      let s := { s with host := { s.host with numVFs := count, vfReady := (List.range count).map (· + 1) } }
      s.host.vfReady.foldl State.attach s)

/-- VF_DISABLE (R349). Disabling a VF resets its context and moves it to DETACHED, keeping its keys and stored
data. (DEDUCED, log entry 64.) -/
def execVfDisable (s : State) : Step' :=
  act s (fun s =>
    let gone := (List.range s.host.numVFs).map (· + 1)
    let s := gone.foldl State.detach s
    { s with host := { s.host with
      numVFs := 0
      vfReady := []
      latches := s.host.latches.filter (fun e => !gone.contains e.1) } })

/-- The host-ring set-up of a context returns to reset: rings, indices, events and completions not yet written. -/
def State.clearRings (s : State) (c : Nat) : State :=
  let base := 0x100000000 + c * 0x10000
  { s with
    regs := s.regs.filter (fun e => !(base + 0x1000 ≤ e.1 && e.1 < base + 0x3000))
    host := { s.host with
      rings := s.host.rings.filter (fun e => e.1 / 256 != c)
      done := s.host.done.filter (fun x => x.ctx != c) } }

/-- The function's rings, MSI-X table and latch return to reset, and its context is detached. -/
def State.vfReset (s : State) (vf : Nat) : State :=
  let s := ((s.detach vf).clearRings vf).setMsix vf Msix.reset
  { s with host := { s.host with
    vfReady := s.host.vfReady.filter (· != vf)
    latches := Map.del s.host.latches vf } }

/-- FLR of an enabled VF: the context reset, its ring set-up and its PCIe state. -/
def execVfFlr (vf : Fin 64) (s : State) : Step' :=
  act s (fun s =>
    if vf = 0 ∨ !s.host.vfReady.contains vf.val then s else s.vfReset vf)

/-- VF_FLR_COMPLETE (R349). The FLR of an enabled VF completes, and its DETACHED context returns to ACTIVE if
it holds keys and otherwise to DEFINED. -/
def execVfFlrComplete (vf : Fin 64) (s : State) : Step' :=
  act s (fun s =>
    if vf = 0 ∨ s.host.numVFs < vf ∨ s.host.vfReady.contains vf.val then s
    else ({ s with host := { s.host with vfReady := s.host.vfReady ++ [vf.val] } }).attach vf)

/-! ## Device and module resets -/

/-- PCIe state that a fundamental reset or an FLR of PF0 clears, as PCIe specifies (log entry 63).
(PRESUMED, log entry 63.) -/
def State.resetPcie (s : State) : State :=
  { s with host := { s.host with latches := [], msix := [], d3hot := false, numVFs := 0, vfReady := [] } }

/-- PF0_FLR (R357). A function-level reset of PF0 causes a device reset. -/
def execPf0Flr (s : State) : Step' := act s (fun s => (s.deviceReset).resetPcie)

/-- PERST_N_ASSERT (R357). PERST_N driven low causes a device reset, and is ignored in F5. -/
def execPerstNAssert (s : State) : Step' :=
  act s (fun s =>
    if s.mod.perst then s else ({ s.deviceReset with mod := { s.mod with perst := true } }).resetPcie)

/-- What ends with a module reset beside a device reset: nothing is in service until the boot stages run again, which start
media and load the settings; SAFE_DEGRADED clears when both channels are qualified deasserted (R395). -/
def State.moduleReset (s : State) : State :=
  let s := s.setFw s.storedFw
  let s := (s.resetDevice).resetPcie
  let s := if s.hw.variant.hasMedia then s.setFld fMED_STATUS_STATE msOFF else s
  let s := ((s.unflag fGLB_STATUS_READY).unflag fFLT_STATUS_READY).unflag fSEC_STATUS_READY
  let s := if s.flt.chanA.qualified ∨ s.flt.chanB.qualified then s else s.unflag fFLT_STATUS_SAFE_DEGRADED
  ({ s with mod := { s.mod with booted := 0, recovery := false, resetDue := false, stopped := false } }).showFaultOut

/-- MOD_RESET_N_ASSERT (R357). MOD_RESET_N held low causes a device reset followed by the boot sequence. -/
def execModResetNAssert (s : State) : Step' :=
  act s (fun s =>
    if s.mod.modReset then s else { s.moduleReset with mod := { (s.moduleReset).mod with modReset := true } })

/-- The end of a flush; after one that an F5 started, media are in MPS2 (Table 17.7); after one during which PWR_GOOD rose,
a module reset follows (R446). -/
def execFlushComplete (readBack : Bool) (s : State) : Step' :=
  always s (fun s =>
    if s.media.flushing.isNone then s
    else
      let s := s.endFlush (!readBack)
      if s.safe then s.setFld fLDG_STATUS_MPS 2
      else if s.mod.resetDue then s.moduleReset
      else s)

end Sys2Proof.Machine
end

