-- ==== Sys2Proof/Machine/Faults.lean ====
section
/-!
DEFINITION. Commands of the fault collector and the SAFE_STOP monitor (R382 to R388, R394, R395).
-/
namespace Sys2Proof.Machine

/-! ## Error lines -/

def State.memoryFault (s : State) (src unit : Nat) (cls : FClass) : State :=
  s.used.raise src (BitVec.ofNat 16 (s.free 16)) unit noCtx cls

/-- The counter of corrected errors of a source, where it has one. -/
def correctedCounter (src : Nat) : Option Fld :=
  if src = 0x08 then some fINK_ECC_CE_COUNT
  else if src = 0x09 then some fPEG_ECC_CE_COUNT
  else if src = 0x0C then some fMED_DCMP_ECC_CE_COUNT
  else if src = 0x0D then some fPACK_ECC_CE_COUNT
  else if src = 0x12 then some fVDC_ECC_CE_COUNT
  else if 0x100 ≤ src ∧ src ≤ 0x15F then some (fTILE_ECC_CE_COUNT (src - 0x100))
  else none

/-- The context number an event may carry: 0 to 63, or 0xFF. -/
def ctxOrNone (c : Nat) : Nat := if c < 64 then c else noCtx

/-- What an error line reports (R382). The spec names no status for errors of block memories: it is a free value. -/
def State.onLine (s : State) (e : LineEvent) : State :=
  match e with
  | .event src unit ctx st cls => if sourceListed src then s.raise src st unit (ctxOrNone ctx) cls else s
  | .corrected src unit =>
    if !sourceListed src then s
    else
      let s := match correctedCounter src with
        | some f => s.bump f 1
        | none => s
      s.memoryFault src unit .f1
  | .packer => (s.flag fPACK_STATUS_UNCORRECTED).memoryFault 0x0D 0 .f4
  | .innkeeper => (s.flag fINK_ERR_UNCORRECTED).memoryFault 0x08 0 .f4
  | .pegs => (s.flag fPEG_ERR_UNCORRECTED).memoryFault 0x09 0 .f4
  | .logbook => (s.flag fLOG_ERR_UNCORRECTED).memoryFault 0x0F 0 .f4
  | .ledger n => match s.queue n with
    | none => s
    | some q => ((s.flag fLDG_ERR_UNCORRECTED).abortQueue n).used.raise srcLEDGER (BitVec.ofNat 16 (s.free 16)) n q.ctx .f2
  | .fec p c u =>
    if !s.portPresent p then s
    else
      let s := (s.bump (fNET_PORT_FEC_CORRECTED p) c).bump (fNET_PORT_FEC_UNCORRECTED p) u
      if u = 0 then s else s.flag (fNET_PORT_ERR_FEC_UNCORRECTED p)

/-- ERROR_LINE_EVENT (R382). A source signals an event on its error line with source ID, status, unit,
context, class and stamp. -/
def execErrorLineEvent (event : LineEvent) (s : State) : Step' := always s (fun s => s.onLine event)

/-- EVENT_COMMIT (R42). An observer commits an event to collector order when hub DTIME reaches the event's
stamp plus 24 ns, marking it concurrent where another event lies within 5 ns. -/
def execEventCommit (s : State) : Step' := always s State.commitEvent

/-- FAULT_COMMIT (R384). The fault collector commits a fault event, writes its record, applies escalation and
carries out the reaction of the class applied. -/
def execFaultCommit (s : State) : Step' := always s State.takeFault

/-! ## Acknowledgements and force writes (R385, R388) -/

/-- An action of the collector itself, stamped when it executes it. -/
def State.collectorEvent (s : State) (kind : EventKind) (st : Status) (unit ctx : Nat) (cls : FClass) (disc : Bool) : State :=
  s.push { kind := kind, src := 0, status := st, unit := unit, ctx := ctx, cls := cls, stamp := s.dtime, forced := false,
           discrepancy := disc, concurrent := false }

/-- Any write of the FLT block but one that sets ARM_F5 leaves no arming just before the next (R388). -/
def State.disarmPrev (s : State) : State := s.setFlt { s.flt with armPrev := false }

/-- F3_UNACK_WRITE (R385). Writing 1 to FLT_STATUS.F3_UNACK acknowledges every F3 that sorts before the
acknowledgement. -/
def execF3UnackWrite (fn : Fin 64) (s : State) : Step' :=
  act s (fun s => if fn ≠ 0 ∨ !s.reaches fn then s else s.disarmPrev.collectorEvent .ackF3 stOK 0 noCtx .f3 false)

/-- F4_UNACK_WRITE (R385). Writing 1 to FLT_STATUS.F4_UNACK acknowledges every F4 that sorts before the
acknowledgement. -/
def execF4UnackWrite (fn : Fin 64) (s : State) : Step' :=
  act s (fun s => if fn ≠ 0 ∨ !s.reaches fn then s else s.disarmPrev.collectorEvent .ackF4 stOK 0 noCtx .f4 false)

def State.forceWrite (s : State) (v : Nat) : State :=
  let armed := s.flt.armPrev && s.fld fFLT_CTRL_ARM_F5 == 1
  let s := s.disarmPrev.unflag fFLT_CTRL_ARM_F5
  let src := bitsOf v 16 16
  match FClass.named (bitsOf v 8 3) with
  | none => s.flag fFLT_STATUS_FORCE_REFUSED
  | some cls =>
    if !sourceListed src ∨ (cls = .f5 ∧ !armed) then s.flag fFLT_STATUS_FORCE_REFUSED
    else s.push {
      kind := .fault, src := src, status := stFLT_FORCED, unit := 0, ctx := ctxOrNone (bitsOf v 0 8), cls := cls,
      stamp := s.dtime, forced := true, discrepancy := false, concurrent := false }

/-- A write to FLT_FORCE; `upperOnly`: a 32-bit write to its upper half. -/
def execFltForceWrite (fn : Fin 64) (upperOnly : Bool) (value : BitVec 64) (s : State) : Step' :=
  act s (fun s =>
    if fn ≠ 0 ∨ !s.reaches fn then s
    else if upperOnly then s.disarmPrev.unflag fFLT_CTRL_ARM_F5
    else s.forceWrite value.toNat)

def State.armF5 (s : State) (outF3 : Bool) : State :=
  let s := (s.flag fFLT_CTRL_ARM_F5).setFld fFLT_CTRL_OUT_F3 (if outF3 then 1 else 0)
  (s.setFlt { s.flt with armPrev := true }).showFaultOut

/-- A write to FLT_CTRL with bit 0 set; its bit 1 is OUT_F3. -/
def execArmF5 (fn : Fin 64) (outF3 : Bool) (s : State) : Step' :=
  act s (fun s =>
    if fn ≠ 0 ∨ !s.reaches fn then s else s.armF5 outF3)

/-! ## SAFE_STOP (R394, R395) -/

/-- Time of the monitor, which the always-on domain keeps through a power cycle (R359). -/
def State.monTime (s : State) : Nat := s.flt.sinceStandby + s.dtime

def State.channel (s : State) (p : Pin) : Channel :=
  match p with
  | .safeStopA => s.flt.chanA
  | .safeStopB => s.flt.chanB

def State.setChannel (s : State) (p : Pin) (c : Channel) : State :=
  match p with
  | .safeStopA => s.setFlt { s.flt with chanA := c }
  | .safeStopB => s.setFlt { s.flt with chanB := c }

def Pin.other : Pin → Pin
  | .safeStopA => .safeStopB
  | .safeStopB => .safeStopA

/-- Shows raw levels (A is asserted low, B high) and qualified states. -/
def State.showChannels (s : State) : State :=
  let n := fun (b : Bool) => if b then 1 else 0
  (((s.setFld fFLT_SAFE_STATUS_A_RAW (n (!s.flt.chanA.raw))).setFld fFLT_SAFE_STATUS_B_RAW (n s.flt.chanB.raw)).setFld
    fFLT_SAFE_STATUS_A_QUALIFIED (n s.flt.chanA.qualified)).setFld fFLT_SAFE_STATUS_B_QUALIFIED (n s.flt.chanB.qualified)

def State.filterNs (s : State) : Nat := s.fld fFLT_SAFE_CFG_FILTER_US * 1000
def State.discrepancyNs (s : State) : Nat := s.fld fFLT_SAFE_CFG_DISCREPANCY_MS * 1000000

/-- A demand: F5 with SAFE_STOP_DEMAND. -/
def State.demand (s : State) (disc : Bool) (skew : Nat) : State :=
  let s := s.setFlt { s.flt with timer := none, demanded := true }
  (s.setFld fFLT_SAFE_STATUS_LAST_SKEW_US (min skew (2 ^ 32 - 1))).collectorEvent .fault stSAFE_STOP_DEMAND 1 noCtx .f5 disc

/-- The skew of a lone assertion has no value in the spec: free. -/
def State.loneDemand (s : State) (disc : Bool) : State := s.used.demand disc (s.free 32)

/-- One channel released before Td: F3 with SAFE_STOP_DISAGREE, and SAFE_DEGRADED. -/
def State.disagree (s : State) : State :=
  let s := s.setFlt { s.flt with timer := none }
  let s := (s.used.setFld fFLT_SAFE_STATUS_LAST_SKEW_US (s.free 32)).bump fFLT_SAFE_STATUS_DISAGREE_COUNT 1
  (s.flag fFLT_STATUS_SAFE_DEGRADED).collectorEvent .fault stSAFE_STOP_DISAGREE 1 noCtx .f3 false

/-- The timer passed Td: its demand came first (R394). (DEDUCED, log entry 60.) -/
def State.timerFirst (s : State) : State :=
  match s.flt.timer with
  | some t => if t + s.discrepancyNs < s.monTime then s.loneDemand true else s
  | none => s

/-- What follows the qualification of a channel's new level. (DEDUCED, log entry 60.) -/
def State.qualified (s : State) (p : Pin) : State :=
  let s := s.timerFirst
  let me := s.channel p
  let other := s.channel p.other
  if me.qualified then
    if s.flt.demanded then s
    else if other.qualified then s.demand false ((me.qualAt - other.qualAt) / 1000)
    else if s.fld fFLT_STATUS_SAFE_DEGRADED = 1 then s.loneDemand false
    else s.setFlt { s.flt with timer := some s.monTime }
  else if other.qualified then s
  else
    let lone := s.flt.timer.isSome
    let s := s.setFlt { s.flt with timer := none, demanded := false }
    if lone then s.disagree else s

/-- SAFE_STOP_EDGE (R394). A level change on SAFE_STOP_A_N or SAFE_STOP_B starts its FILTER_US qualification.
-/
def execSafeStopEdge (pin : Pin) (asserted : Bool) (s : State) : Step' :=
  always s (fun s =>
    if (s.channel pin).raw = asserted then s
    else (s.setChannel pin { s.channel pin with raw := asserted, edgeAt := s.monTime }).showChannels)

/-- SAFE_STOP_QUALIFY (R394). A channel level that stays stable for FILTER_US qualifies, and the discrepancy
timer starts or stops, or a demand or disagreement follows. -/
def execSafeStopQualify (pin : Pin) (s : State) : Step' :=
  always s (fun s =>
    let c := s.channel pin
    if c.raw = c.qualified ∨ s.monTime < c.edgeAt + s.filterNs then s
    else ((s.setChannel pin { c with qualified := c.raw, qualAt := s.monTime }).showChannels).qualified pin)

/-- DISCREPANCY_TIMEOUT (R394). The discrepancy timer reaches Td, which is a demand with DISCREPANCY set. -/
def execDiscrepancyTimeout (s : State) : Step' :=
  always s (fun s => match s.flt.timer with
    | some t => if t + s.discrepancyNs ≤ s.monTime then s.loneDemand true else s
    | none => s)

end Sys2Proof.Machine
end

