-- ==== Sys2Proof/Machine/RingOps.lean ====
section
/-!
DEFINITION. Rings (R429 to R435): set-up, doorbells, entries the device writes.
-/
namespace Sys2Proof.Machine

/-! ## Set-up (R429, Table 19.10) -/

def rkSQ : Nat := 0
def rkCQ : Nat := 1
def rkEVENT : Nat := 2

def State.ringOn (s : State) (c r kind : Nat) : Bool :=
  s.fld (fRING_CFG_ENABLE c r) == 1 && s.fld (fRING_CFG_KIND c r) == kind

def State.ringSize (s : State) (c r : Nat) : Nat := 2 ^ s.fld (fRING_CFG_SIZE_LOG2 c r)

def State.ringPtr (s : State) (c r : Nat) : RingPtr := Map.getD s.host.rings (c * 256 + r) { mark := 0, phase := true }

def State.setRingPtr (s : State) (c r : Nat) (p : RingPtr) : State :=
  { s with host := { s.host with rings := Map.put s.host.rings (c * 256 + r) p } }

def State.ringError (s : State) (c r : Nat) : Bool := s.fld (fRING_STATUS_ERROR c r) == 1

/-- Settings with which a ring may be enabled. -/
def State.ringValid (s : State) (c v : Nat) : Bool :=
  let kind := bitsOf v 56 2
  let size := bitsOf v 48 5
  let events := bitsOf v 16 2
  kind ≤ 2 && 4 ≤ size && size ≤ 16
    && (kind != rkSQ || s.ringOn c (bitsOf v 32 8) rkCQ)
    && (kind != rkEVENT || events == 1 || (events == 0 && c == 0))

/-- An enabled SQ names the ring as its CQ. -/
def State.cqInUse (s : State) (c r : Nat) : Bool :=
  (List.range 256).any (fun q => s.ringOn c q rkSQ && s.fld (fRING_CFG_CQ c q) == r)

/-- A write of RING_CFG r. Disabling a CQ drops the completions it still holds.
(DEDUCED, log entry 68.) -/
def State.ringCfgWrite (s : State) (c r v : Nat) : State :=
  let was := s.fld (fRING_CFG_ENABLE c r) == 1
  let on := bitOf v 63
  if was && on then s
  else if was then
    if s.ringOn c r rkCQ && s.cqInUse c r then s.setFld (fRING_STATUS_ERR_STATUS c r) stRING_CONFIG.toNat
    else
      let s := s.putReg (aRING_CFG c r) v
      { s with host := { s.host with done := s.host.done.filter (fun e => e.ctx != c || e.cq != r) } }
  else if !on then s.putReg (aRING_CFG c r) v
  else if !s.ringValid c v then s.setFld (fRING_STATUS_ERR_STATUS c r) stRING_CONFIG.toNat
  else ((s.putReg (aRING_CFG c r) v).putReg (aRING_STATUS c r) 0).setRingPtr c r { mark := 0, phase := true }

/-! ## Doorbells (R430, R435) -/

/-- The ring enters ERROR. -/
def State.ringFault (s : State) (c r : Nat) : State :=
  let s := (s.flag (fRING_STATUS_ERROR c r)).setFld (fRING_STATUS_ERR_STATUS c r) stRING_FAULT.toNat
  (s.raise 1 stRING_FAULT 0 c .f0).ctxEvent c stRING_FAULT 4 r

/-- Entries from index a up to index b of a ring. -/
def ringSpan (size a b : Nat) : Nat := (b + size - a) % size

/-- A doorbell: the new tail of an SQ, the new head of a CQ or event ring.
(DEDUCED, log entry 68.) -/
def State.doorbell (s : State) (c r v : Nat) : State :=
  if s.fld (fRING_CFG_ENABLE c r) = 0 ∨ s.ringError c r then s
  else
    let n := s.ringSize c r
    let i := v % 65536
    let p := s.ringPtr c r
    let x := s.fld (fRING_STATUS_INDEX c r)
    let past := if s.ringOn c r rkSQ then n ≤ ringSpan n x p.mark + ringSpan n p.mark i
      else ringSpan n p.mark x < ringSpan n p.mark i
    if n ≤ i ∨ past then s.ringFault c r else s.setRingPtr c r { p with mark := i }

/-! ## Entries the device writes (R433, R434) -/

/-- A ring has room for one more entry: at most 2^SIZE_LOG2 − 1 stand in it. -/
def State.ringRoom (s : State) (c r : Nat) : Bool :=
  let n := s.ringSize c r
  ringSpan n (s.ringPtr c r).mark (s.fld (fRING_STATUS_INDEX c r)) + 1 < n

/-- Writes an entry of a CQ or event ring and signals its vector. -/
def State.writeEntry (s : State) (c r : Nat) (entry : Bytes) : State :=
  let n := s.ringSize c r
  let x := s.fld (fRING_STATUS_INDEX c r)
  let p := s.ringPtr c r
  let s := s.emit (.hostWrite c (s.fld (fRING_ADDR_BASE c r) * 4096 + x * entry.length) entry)
  let s := (s.setFld (fRING_STATUS_INDEX c r) ((x + 1) % n)).setRingPtr c r
    { p with phase := if x + 1 = n then !p.phase else p.phase }
  s.signal c (s.fld (fRING_CFG_VECTOR c r))

/-- Table 19.12. -/
def Completion.entry (e : Completion) (phase : Bool) : Bytes :=
  toLE 4 e.tag ++ toLE 2 e.status.toNat ++ toLE 1 e.sq ++ zeros 1 ++ toLE 2 e.sqHead ++ zeros 6 ++ toLE 8 e.result0
    ++ toLE 4 e.result1 ++ zeros 3 ++ toLE 1 (if phase then 1 else 0)

/-- Releases the oldest completion of a CQ, when the CQ has room. (DEDUCED, log entry 68.) -/
def State.releaseOne (s : State) (c q : Nat) : State :=
  match s.host.done.find? (fun e => e.ctx == c && e.cq == q) with
  | none => s
  | some e =>
    if !s.ringOn c q rkCQ || s.ringError c q || !s.ringRoom c q then s
    else
      let s := { s with host := { s.host with done := s.host.done.erase e } }
      s.writeEntry c q (e.entry (s.ringPtr c q).phase)

/-- The ring for an event entry: fault records of CTX0 have rings of their own. -/
def State.eventRing (s : State) (e : EventItem) : Option Nat :=
  let want := if e.ctx = 0 ∧ e.type = 1 then 0 else 1
  (List.range 256).find? (fun r => s.ringOn e.ctx r rkEVENT && s.fld (fRING_CFG_EVENTS e.ctx r) == want)

/-- Table 19.13: plaintext. -/
def EventItem.plain (e : EventItem) (phase : Bool) : Bytes :=
  toLE 1 e.type ++ toLE 1 (if phase then 128 else 0) ++ zeros 30 ++ e.record

/-- Table 19.13: sealed with the context's output counter. (DEDUCED, log entry 62.) -/
def EventItem.sealed (e : EventItem) (phase : Bool) (n : Nat) (ct tag : Bytes) : Bytes :=
  toLE 1 e.type ++ toLE 1 (if phase then 129 else 1) ++ zeros 6 ++ toLE 8 n ++ tag ++ ct

/-- Writes a context's oldest event to its ring, or drops it at a full ring (R383).
(DEDUCED, log entry 68.) -/
def State.writeEvent (s : State) (c : Nat) : State :=
  match s.host.events.find? (fun e => e.ctx == c) with
  | none => s
  | some e => match s.eventRing e with
    | none => s
    | some r =>
      let gone := { s with host := { s.host with events := s.host.events.erase e } }
      let phase := (s.ringPtr c r).phase
      if s.ringError c r then s
      else if !s.ringRoom c r then gone.flag fFLT_STATUS_LOST
      else if c = 0 then gone.writeEntry c r (e.plain phase)
      else match gone.sealOut c e.record with
        | none => s
        | some (n, ct, tag, t) => t.writeEntry c r (e.sealed phase n ct tag)

end Sys2Proof.Machine
end

