-- ==== Sys2Proof/Machine/Rounds.lean ====
section
/-!
DEFINITION. Rounds, the periodic in-service test (R23, R96, R392, R393, Table 17.5).
-/
namespace Sys2Proof.Machine

/-- Every running lane stalls on WORK.GET or on an EWAIT to a hub service, no tile engine has a call in progress, and no
work slot is available (R96). -/
def State.tileIdle (s : State) (t : Nat) : Bool :=
  let r := s.tile t
  let waits := fun (x : Lane) => match x.stall with
    | .workGet _ => true
    | .ewait k => ((Map.find x.tickets k).map (fun tk => decide (0x10 ≤ tk.engine))).getD false
    | _ => false
  r.lanes.vals.all (fun x => x.run != .running || waits x) && r.calls.all (fun c => 0x10 ≤ c.engine)
    && !r.slots.vals.any (fun q => q.taken == 0)

/-- A failed test: FLT_ROUNDS.FAILED and an event of the collector's unit 2. -/
def State.roundsFail (s : State) (cls : FClass) : State := (s.flag fFLT_ROUNDS_FAILED).raise 0 stROUNDS_FAIL 2 noCtx cls

/-- A tile completes a pass. -/
def State.tilePassed (s : State) (t : Nat) : State :=
  let s := s.setFld (fTILE_ROUNDS_LAST_RESULT t) 0
  { s with flt := { s.flt with roundsPass := Map.put s.flt.roundsPass t s.dtime, roundsSlices := Map.del s.flt.roundsSlices t } }

/-- A tile fails: it is fenced with F3 (Table 17.5). (DEDUCED, log entry 34.) -/
def State.tileFailed (s : State) (t : Nat) : State :=
  let s := (s.setFld (fTILE_ROUNDS_LAST_RESULT t) stROUNDS_FAIL.toNat).flag (fTILE_ROUNDS_FAILED t)
  let s := ((s.dropTile t).mapTile t (fun r => { r with slice := none, held := [] })).setTileState t tsFENCED
  s.roundsFail .f3

/-- Time of the latest complete pass; power-up counts as one. -/
def State.passedAt (s : State) (t : Nat) : Nat := Map.getD s.flt.roundsPass t 0

/-- A slice takes the tile, and counts towards the pass. -/
def State.sliceBegun (s : State) (t : Nat) : State :=
  let n := Map.getD s.flt.roundsSlices t 0 + 1
  let s := s.mapTile t (fun r => { r with slice := some s.dtime })
  { s with flt := { s.flt with roundsSlices := Map.put s.flt.roundsSlices t n } }

/-- A slice of an idle seated tile; a full pass takes at most 4,096 slices.
(DEDUCED, log entry 34.) -/
def execRoundsTileSlice (tile : Fin 96) (outcome : RoundsEnd) (s : State) : Step' :=
  act s (fun s =>
    let seated := s.fld (fTILE_STATE_SEATED tile) == 1 && s.tileState tile != tsFENCED
    if !s.tilePresent tile || !seated || (s.tile tile).slice.isSome || !s.tileIdle tile then s
    else
      let s := s.sliceBegun tile
      match outcome with
      | .failed => s.tileFailed tile
      | .complete => s.tilePassed tile
      | .passed => if 4096 ≤ Map.getD s.flt.roundsSlices tile 0 then s.tilePassed tile else s)

/-- Delivers what came during a slice. -/
def State.deliverHeld (s : State) (t : Nat) : List Held → State
  | [] => s
  | .item n w :: r => State.deliverHeld (s.putSlot t n w) t r
  | .done l k len st :: r => State.deliverHeld (s.completeTicket t l k len st) t r

/-- The tile is its own again, and gets work. -/
def State.sliceEnded (s : State) (t : Nat) : State :=
  let s := s.setTile t { s.tile t with slice := none, held := [] }
  { s with flt := { s.flt with withheld := s.flt.withheld.filter (· != t) } }

/-- ROUNDS_SLICE_END (R96). At the end of a Rounds slice, the work items, completions and barrier releases
held during it are delivered. -/
def execRoundsSliceEnd (tile : Fin 96) (s : State) : Step' :=
  act s (fun s =>
    if (s.tile tile).slice.isNone then s else (s.sliceEnded tile).deliverHeld tile (s.tile tile).held)

/-- A seated tile without a pass for 50 min gets no dispatch until a slice has run. -/
def execRoundsDispatchWithhold (tile : Fin 96) (s : State) : Step' :=
  act s (fun s =>
    let seated := s.fld (fTILE_STATE_SEATED tile) == 1 && s.tileState tile != tsFENCED
    if !seated || s.dtime < s.passedAt tile + 50 * 60 * 10 ^ 9 || s.flt.withheld.contains tile.val then s
    else { s with flt := { s.flt with withheld := s.flt.withheld ++ [tile.val] } })

/-- ROUNDS_UNSEATED_TILE_TEST (R392). Rounds tests a tile whenever it is unseated, recording the result in
TILE_ROUNDS. -/
def execRoundsUnseatedTileTest (tile : Fin 96) (ok : Bool) (s : State) : Step' :=
  act s (fun s =>
    if !s.tilePresent tile || s.tileState tile != tsUNSEATED then s
    else if ok then s.tilePassed tile else s.tileFailed tile)

/-- A checker's number in FaultState.checkers; 22 is the SAFE_STOP monitor. -/
def Checker.num : Checker → Nat
  | .dice u => u
  | .hbm n => 4 + n
  | .l2 n => 12 + n
  | .packerShadow => 16
  | .lockstep => 17
  | .crypto => 18
  | .inkEcc => 19
  | .pegEcc => 20
  | .thermalTrip => 21

def State.checkerPassed (s : State) (n : Nat) : State :=
  { s with flt := { s.flt with checkers := Map.put s.flt.checkers n s.dtime } }

/-- Injected errors that a checker answers are not recorded; a checker that stays silent fails (Table 17.5). -/
def execRoundsCheckerTest (checker : Checker) (ok : Bool) (s : State) : Step' :=
  act s (fun s =>
    if ok then s.checkerPassed checker.num
    else match checker with
      | .dice u => (s.roundsFail .f3).fenceDice u
      | .hbm _ => ({ s with flt := { s.flt with fencedSlices := s.flt.fencedSlices ++ [checker.num] } }).roundsFail .f3
      | .l2 _ => ({ s with flt := { s.flt with fencedSlices := s.flt.fencedSlices ++ [checker.num] } }).roundsFail .f3
      | .thermalTrip => s.roundsFail .f5
      | _ => s.roundsFail .f4)

/-- ROUNDS_SAFE_STOP_TEST (R392). Every 10 min Rounds tests the SAFE_STOP monitor on the device side of its
input buffers. -/
def execRoundsSafeStopTest (ok : Bool) (s : State) : Step' :=
  act s (fun s => if ok then s.checkerPassed 22 else s.roundsFail .f5)

/-- FLT_ROUNDS.OLDEST_MIN: whole minutes since the oldest latest pass of a present tile or a checker. -/
def State.oldestMin (s : State) : Nat :=
  let tiles := (List.range s.hw.variant.tiles).map s.passedAt
  let checkers := (List.range 23).map (fun n => Map.getD s.flt.checkers n 0)
  min ((s.dtime - (tiles ++ checkers).foldl min s.dtime) / (60 * 10 ^ 9)) 0xFFFF

end Sys2Proof.Machine
end

