-- ==== Sys2Proof/Machine/Access.lean ====
section
/-!
DEFINITION. Register accesses through the BARs (R8 to R10, R423, R424, R427): what a write does to each field by its
access type, registers whose writes act, reads with the half-read latch and read-clear counters.
-/
namespace Sys2Proof.Machine

/-! ## Where an access falls (Table 19.1, R424) -/

/-- The access lies inside a BAR that the function has. -/
def Access1.inBar (x : Access1) : Bool :=
  match x.bar with
  | .bar0 => x.fn.val == 0 && x.off < 0x10000000
  | .bar2 => x.off < 0x1000
  | .bar4 => if x.fn.val = 0 then x.off < 0x400000 else x.off < 0x10000

/-- Aligned 64-bit accesses, and on BAR0 and BAR4 aligned 32-bit accesses. -/
def Access1.goodForm (x : Access1) : Bool :=
  (x.size == 8 && x.off % 8 == 0) || (x.size == 4 && x.off % 4 == 0 && x.bar != .bar2)

/-- The register an access on BAR0 or BAR4 falls on. -/
def Access1.addr (x : Access1) : Nat :=
  match x.bar with
  | .bar4 => 0x100000000 + x.fn.val * 0x10000 + x.off / 8 * 8
  | _ => x.off / 8 * 8

def Access1.upper (x : Access1) : Bool := x.size == 4 && x.off % 8 == 4

/-- The bits of the register an access covers. -/
def Access1.mask (x : Access1) : Nat :=
  if x.size = 8 then 2 ^ 64 - 1 else if x.upper then (2 ^ 32 - 1) * 2 ^ 32 else 2 ^ 32 - 1

/-- The value of a write, in its place in the register. -/
def Access1.placed (x : Access1) (v : Nat) : Nat :=
  if x.size = 8 then v % 2 ^ 64 else if x.upper then v % 2 ^ 32 * 2 ^ 32 else v % 2 ^ 32

/-- In recovery PF0 reaches GLB, FLT and UPD, and its rings for the opcodes of Table 21.4 (R460).
(DEDUCED, log entry 67.) -/
def Access1.served (x : Access1) (s : State) : Bool :=
  x.inBar && s.reaches x.fn && (!s.mod.recovery || x.bar == .bar2 || (x.bar == .bar4 && 0x1000 ≤ x.off && x.off < 0x3000)
    || (x.bar == .bar0 && (x.off < 0x10000 || (0x20000 ≤ x.off && x.off < 0x30000) || (0x150000 ≤ x.off && x.off < 0x160000))))

/-! ## Fields (Table 0.3) -/

/-- The register after a write of v under a mask to one field. -/
def writeField (old v mask : Nat) (f : FldDef) : Nat :=
  let m := bitsOf mask f.lo f.width
  let o := bitsOf old f.lo f.width
  let x := bitsOf v f.lo f.width &&& m
  match f.acc with
  | .rw => putBits old f.lo f.width (o - (o &&& m) + x)
  | .w1c => putBits old f.lo f.width (o - (o &&& x))
  | .w1s => putBits old f.lo f.width (o ||| x)
  | _ => old

/-- The register after a write, by the access types of its fields. -/
def writtenBy (fields : List FldDef) (old v mask : Nat) : Nat := fields.foldl (fun o f => writeField o v mask f) old

/-- What a read-clear register holds after a read of the bits under a mask.
(DEDUCED, log entry 97.) -/
def clearedBy (fields : List FldDef) (old mask : Nat) : Nat :=
  fields.foldl (fun o f => match f.acc with
    | .rc => let x := bitsOf o f.lo f.width
             putBits o f.lo f.width (x - (x &&& bitsOf mask f.lo f.width))
    | _ => o) old

/-! ## Writes -/

/-- The register's value after a write by the access types of its fields. -/
def State.written (s : State) (a v mask : Nat) : Nat :=
  match regAt a with
  | some r => writtenBy r.fields (s.reg a) v mask
  | none => s.reg a

/-- A write by the access types; an address that holds no register ignores it (R424). -/
def State.plainWrite (s : State) (a v mask : Nat) : State :=
  match regAt a with
  | some r => s.putReg a (writtenBy r.fields (s.reg a) v mask)
  | none => s

/-- A field of a written value, kept as it was when out of range. (DEDUCED, log entry 68.) -/
def State.rangedWrite (s : State) (f : Fld) (new lo hi : Nat) : State :=
  let x := bitsOf new f.lo f.width
  if lo ≤ x ∧ x ≤ hi then s.setFld f x else s

/-- Stages a write to an RWT register in the open transaction of CTX0 (R8, R438).
(DEDUCED, log entry 69.) -/
def State.stageWrite (s : State) (a v mask : Nat) : State :=
  let stage := fun (t : Txn) =>
    let held := (t.items.filter (fun i => match i with | .regWrite _ _ _ => true | _ => false)).length
    if t.state != .open_ then t
    else if held < 1024 then { t with items := t.items ++ [.regWrite a mask v] }
    else { t with marked := true }
  s.setTxns 0 ((s.txnsOf 0).map stage)

/-- Writes of the FLT block (R385, R388, R394). (DEDUCED, log entry 60.) -/
def State.fltWrite (s : State) (a v mask : Nat) : State :=
  let on := fun (i : Nat) => bitOf v i && bitOf mask i
  if a = aFLT_FORCE then
    if bitOf mask 0 then s.forceWrite v else s.disarmPrev.unflag fFLT_CTRL_ARM_F5
  else if a = aFLT_CTRL ∧ on 0 then s.armF5 (on 1)
  else
    let s := s.disarmPrev
    if a = aFLT_STATUS then
      let s := s.plainWrite a v (mask &&& 0x30)
      let s := if on 0 then s.collectorEvent .ackF3 stOK 0 noCtx .f3 false else s
      if on 1 then s.collectorEvent .ackF4 stOK 0 noCtx .f4 false else s
    else if a = aFLT_SAFE_CFG then
      let new := s.written a v mask
      let s := s.rangedWrite fFLT_SAFE_CFG_FILTER_US new 10 1000
      if s.flt.chanA.qualified ∨ s.flt.chanB.qualified then s else s.rangedWrite fFLT_SAFE_CFG_DISCREPANCY_MS new 5 100
    else if a = aFLT_SHADOW_CFG then s.rangedWrite fFLT_SHADOW_CFG_SHADOW_US (s.written a v mask) 100 5000
    else if a = aFLT_CTRL then (s.plainWrite a v mask).showFaultOut
    else s.plainWrite a v mask

/-- The owner selects or leaves debug level OWNER (R380). -/
def State.ownerDebug (s : State) (on : Bool) : State :=
  if s.fld fSEC_STATUS_DEBUG = 2 then s
  else (s.setFld fSEC_DEBUG_CTRL_OWNER_DEBUG (if on then 1 else 0)).setFld fSEC_STATUS_DEBUG (if on then 1 else 0)

/-- A write of the window of context c by a function (R423, R429, Table 15.7). -/
def State.windowWrite (s : State) (fn c a v mask : Nat) : State :=
  let off := a % 0x10000
  let on := fun (i : Nat) => bitOf v i && bitOf mask i
  let ring := (off - 0x1000) / 0x20
  if a = aCTX_CTRL c then (if on 0 then s.resetReq fn c else s)
  else if fn ≠ c then s
  else if a = aCTX_STATUS c then
    let s := s.plainWrite a v (mask &&& 2)
    if on 0 then s.stoppedAck fn c else s
  else if 0x1000 ≤ off ∧ off < 0x3000 then
    if off % 0x20 = 0 then (if s.fld (fRING_CFG_ENABLE c ring) = 1 then s else s.plainWrite a v mask)
    else if off % 0x20 = 8 then s.ringCfgWrite c ring (s.written a v mask)
    else s
  else s.plainWrite a v mask

/-- A write of v under a mask to the register at an address, by a function. -/
def State.writeReg (s : State) (fn a v mask : Nat) : State :=
  if regAbsent s.hw.variant a && !(0x200000 ≤ a && a < 0x280000 && isRwt a) then s
  else if 0x100000000 ≤ a then s.windowWrite fn ((a - 0x100000000) / 0x10000) a v mask
  else if isRwt a then s.stageWrite a v mask
  else if 0x20000 ≤ a ∧ a < 0x30000 then s.fltWrite a v mask
  else if a = aSEC_DEBUG_CTRL then (if bitOf mask 0 then s.ownerDebug (bitOf v 0) else s)
  else if a = aUPD_CFG then
    let new := s.written a v mask
    (s.rangedWrite fUPD_CFG_CONFIRM_S new 60 86400).rangedWrite fUPD_CFG_TRIAL_BOOTS new 1 8
  else if 0x800000 ≤ a ∧ a < 0xE00000 ∧ a % 0x10000 = 0x18 then
    if bitOf v 0 && bitOf mask 0 then s.fenceReq ((a - 0x800000) / 0x10000) else s
  else if 0x800000 ≤ a ∧ a < 0xE00000 ∧ a % 0x10000 = 0x10 then
    let n := (a - 0x800000) / 0x10000
    let s := s.plainWrite a v mask
    if s.fld (fTILE_FAULT_VALID n) = 0 then s.setFld (fTILE_FAULT_STATUS n) 0 else s
  else s.plainWrite a v mask

/-- Every access of a function but the second half of a pair empties its half-read latch (R427). -/
def State.dropLatch (s : State) (fn : Nat) : State := { s with host := { s.host with latches := Map.del s.host.latches fn } }

/-- A write of a function through a BAR. (DEDUCED, log entry 68.) -/
def State.hostWrite (s : State) (x : Access1) (v : Nat) : State :=
  if !x.served s then s
  else
    let s := s.dropLatch x.fn
    if !x.goodForm then s.flag fGLB_STATUS_BAD_ACCESS
    else match x.bar with
      | .bar2 => if x.off < 2048 then s.doorbell x.fn (x.off / 8) v else s
      | _ => s.writeReg x.fn x.addr (x.placed v) x.mask

/-! ## Reads -/

/-- What a register reads as; some follow live values. An offset without a register, and the block of an absent unit, read
0 (R4, R424). -/
def State.readReg (s : State) (a : Nat) : Nat :=
  if (regAt a).isNone || regAbsent s.hw.variant a then 0
  else if a = aGLB_DTIME then s.dtime % 2 ^ 64
  else if a = aINK_FREE then s.freeCount 0 * 2 ^ 35 + s.freeCount 1 * 2 ^ 17 + s.freeCount 2
  else if a = aDICE_STATUS then
    putBits (s.reg a) 0 4 ((List.range 4).foldl (fun m u => if s.dice.any (fun j => j.unit == u) then m + 2 ^ u else m) 0)
  else if 0xE00040 ≤ a ∧ a < 0xE00080 then
    let n := (a - 0xE00040) / 8
    putBits (putBits (s.reg a) 34 1 (s.bankBound (2 * n)).toNat) 46 1 (s.bankBound (2 * n + 1)).toNat
  else if a = aFLT_ROUNDS then putBits (s.reg a) 0 16 s.oldestMin
  else if a = aSTEP_UNCERT then
    putBits (s.reg a) 32 32 (min (s.stepUncert (s.fld fSTEP_LAST_STEP + 1)) (2 ^ 32 - 1))
  else s.reg a

/-- Clears the read-clear fields under a mask. (DEDUCED, log entry 97.) -/
def State.clearRead (s : State) (a mask : Nat) : State :=
  match regAt a with
  | some r => s.putReg a (clearedBy r.fields (s.reg a) mask)
  | none => s

def State.returned (s : State) (fn v : Nat) : State := s.emit (.readData fn v)

/-- In the safe state only the FLT block reads normally (R397). -/
def Access1.readable (x : Access1) (s : State) : Bool :=
  !s.safe || (x.bar == .bar0 && 0x20000 ≤ x.off && x.off < 0x30000)

/-- A read of a function through a BAR. (DEDUCED, log entry 97.) -/
def State.hostRead (s : State) (x : Access1) : State :=
  if !x.served s then s
  else
    let latch := Map.find s.host.latches x.fn
    let t := s.dropLatch x.fn
    if !x.readable s then t.returned x.fn 0
    else if !x.goodForm then (t.flag fGLB_STATUS_BAD_ACCESS).returned x.fn 0
    else if x.bar == .bar2 then t.returned x.fn 0
    else
      let a := x.addr
      let v := s.readReg a
      let t := t.clearRead a x.mask
      if x.size = 8 then t.returned x.fn v
      else if x.upper then
        let half := match latch with
          | some l => if l.addr = a then l.upper else v / 2 ^ 32
          | none => v / 2 ^ 32
        t.returned x.fn half
      else
        let t := { t with host := { t.host with latches := Map.put t.host.latches x.fn { addr := a, upper := v / 2 ^ 32 } } }
        t.returned x.fn (v % 2 ^ 32)

/-! ## Commands -/

/-- Every write of a host; those that have a row of their own act here as there. -/
def execRegisterWrite (access : Access1) (value : BitVec 64) (s : State) : Step' :=
  act s (fun s => s.hostWrite access value.toNat)

/-- A write to an RWT register. -/
def execRwtRegisterWrite (access : Access1) (value : BitVec 64) (s : State) : Step' :=
  act s (fun s => if isRwt access.addr then s.hostWrite access value.toNat else s)

/-- A read of a register, whole or in halves; read-clear fields read are cleared. -/
def execRcRegisterRead (access : Access1) (s : State) : Step' := always s (fun s => s.hostRead access)

/-- A 32-bit read of the lower half of the register at an offset. -/
def execLowerHalfRead (fn : Fin 64) (bar : Bar) (off : Nat) (s : State) : Step' :=
  always s (fun s => s.hostRead { fn := fn, bar := bar, off := off / 8 * 8, size := 4 })

/-- UPPER_HALF_READ (R427). A 32-bit read of an upper half returns the latched half when the latch names this
register, otherwise the live half, and empties the latch. -/
def execUpperHalfRead (fn : Fin 64) (bar : Bar) (off : Nat) (s : State) : Step' :=
  always s (fun s => s.hostRead { fn := fn, bar := bar, off := off / 8 * 8 + 4, size := 4 })

/-- OWNER_DEBUG_WRITE (R380). Writing SEC_DEBUG_CTRL.OWNER_DEBUG from PF0 selects or leaves debug level OWNER.
-/
def execOwnerDebugWrite (fn : Fin 64) (value : Bool) (s : State) : Step' :=
  act s (fun s => if fn ≠ 0 ∨ !s.reaches fn ∨ s.mod.recovery then s else s.ownerDebug value)

/-- A BAR2 write. -/
def execDoorbellWrite (fn : Fin 64) (off size : Nat) (value : BitVec 64) (s : State) : Step' :=
  act s (fun s => s.hostWrite { fn := fn, bar := .bar2, off := off, size := size } value.toNat)

/-- A write to RING_CFG r of the function's own window. -/
def execRingCfgWrite (fn : Fin 64) (ring : Fin 256) (value : BitVec 64) (s : State) : Step' :=
  act s (fun s => s.hostWrite { fn := fn, bar := .bar4, off := 0x1008 + ring * 0x20, size := 8 } value.toNat)

end Sys2Proof.Machine
end

