-- ==== Sys2Proof/Machine/Update.lean ====
section
/-!
DEFINITION. Firmware update (spec/21: R461 to R467): images, the update opcodes, switches, the end of a trial, and MCTP
requests (R397, R462).
-/
namespace Sys2Proof.Machine

/-! ## Images (R461, Table 21.3) -/

def fwHeaderLen : Nat := 4928

/-- Largest image of a component (Table 21.1). -/
def fwLargest (comp : Nat) : Nat :=
  if comp = fcLOADER then 2 ^ 20 else if comp = fcMP_HUB then 32 * 2 ^ 20 else if comp = fcNET then 8 * 2 ^ 20 else 16 * 2 ^ 20

def hdrBlocks (h : Bytes) : Nat := fieldAt h 28 4
def hdrTarget (h : Bytes) : Nat := fieldAt h 32 4
def hdrPayload (h : Bytes) : Nat := fieldAt h 36 4
def hdrDelta (h : Bytes) : Bool := fieldAt h 7 1 == 1

/-- The block-table entry of a block. -/
def hdrEntry (h : Bytes) (i : Nat) : Bytes := slice h (fwHeaderLen + 64 * i) 64

/-- Bytes of a target block: 65,536, but for the last. -/
def blockLen (h : Bytes) (i : Nat) : Nat := min 65536 (hdrTarget h - 65536 * i)

/-- The levels of a header, for an image with this digest. -/
def hdrImage (h digest : Bytes) : FwImage :=
  { version := fieldAt h 8 4, content := fieldAt h 16 2, compat := fieldAt h 18 2, sv := fieldAt h 20 2,
    settings := fieldAt h 22 2, wireMin := fieldAt h 24 2, wireMax := fieldAt h 26 2, targetLen := hdrTarget h,
    digest := digest }

def entryOk (h : Bytes) (i : Nat) : Bool :=
  let e := hdrEntry h i
  let enc := fieldAt e 8 1
  fieldAt e 0 4 + fieldAt e 4 4 ≤ hdrPayload h && (enc == 0 || (hdrDelta h && enc ≤ 2))
    && (enc != 0 || fieldAt e 4 4 == blockLen h i) && (enc != 1 || fieldAt e 4 4 == 0)

/-- Fields and lengths of a header with its block table. -/
def headerOk (h : Bytes) : Bool :=
  fieldAt h 0 4 == 0x5746464F && fieldAt h 4 2 == 1 && fieldAt h 6 1 < 4 && fieldAt h 7 1 ≤ 1 && fieldAt h 20 2 ≤ 255
    && hdrTarget h ≤ fwLargest (fieldAt h 6 1) && hdrBlocks h == ceilDiv (hdrTarget h) 65536
    && h.length == fwHeaderLen + 64 * hdrBlocks h && (hdrDelta h || (fieldAt h 12 4 == 0 && allZero (slice h 48 48)))
    && (List.range (hdrBlocks h)).all (entryOk h)

/-- Both signatures and TABLE_DIGEST. -/
def signed (h : Bytes) : Bool :=
  Config.ecdsaVerify Config.updateKeys.1 (h.take 144) (slice h 144 96)
    && Config.mldsaVerify Config.updateKeys.2 (h.take 144) (slice h 240 4627)
    && sha384 (h.take 96 ++ h.drop fwHeaderLen) == slice h 96 48

/-- Delta operations; none: bytes that are no operation, or a range outside the base. -/
def runDelta (base : Bytes) : Nat → Bytes → Option Bytes
  | 0, ops => if ops.isEmpty then some [] else none
  | n + 1, ops =>
    if ops.isEmpty then some []
    else
      let len := fieldAt ops 1 3
      match fieldAt ops 0 1 with
      | 1 =>
        let off := fieldAt ops 4 4
        if ops.length < 8 ∨ base.length < off + len then none
        else (runDelta base n (ops.drop 8)).map (slice base off len ++ ·)
      | 2 =>
        if ops.length < 4 + len then none else (runDelta base n (ops.drop (4 + len))).map (slice ops 4 len ++ ·)
      | _ => none

/-- The target block that an encoding gives. -/
def decodeBlock (h base enc : Bytes) (i : Nat) : Option Bytes :=
  match fieldAt (hdrEntry h i) 8 1 with
  | 0 => some enc
  | 1 => some (slice base (65536 * i) (blockLen h i))
  | _ => runDelta base enc.length enc

/-- A target block matches its CHECK. -/
def blockPasses (h b : Bytes) (i : Nat) : Bool := b.length == blockLen h i && sha384 b == slice (hdrEntry h i) 16 48

/-! ## The staging bank -/

/-- The bytes of the image a component runs: as downloaded, else as the factory installed it. -/
def State.activeBytes (s : State) (comp : Nat) : Bytes :=
  let a := s.activeBank comp
  let b := s.bank comp a
  if b.blocks.isEmpty then Config.storedImage (comp * 2 + a) else (b.blocks.vals).flatten

/-- The encoding of a block, once all of it is stored. -/
def Bank.encoding (b : Bank) (i : Nat) : Option Bytes :=
  let e := hdrEntry b.header i
  let xs := (List.range (fieldAt e 4 4)).filterMap (fun k => Map.find b.payload (fieldAt e 0 4 + k))
  if xs.length = fieldAt e 4 4 then some xs else none

/-- First byte of the first target block that does not pass yet. -/
def Bank.resumeAt (b : Bank) : Nat :=
  match (List.range (hdrBlocks b.header)).find? (fun i => !Map.has b.blocks i) with
  | some i => fieldAt (hdrEntry b.header i) 0 4
  | none => hdrPayload b.header

/-- First payload byte not stored, from n on. (DEDUCED, log entry 86.) -/
def Bank.missingFrom (b : Bank) : Nat → Nat → Nat
  | 0, n => n
  | k + 1, n => if Map.has b.payload n then Bank.missingFrom b k (n + 1) else n

/-- Forgets payload from an offset on. -/
def Bank.dropFrom (b : Bank) (n : Nat) : Bank := { b with payload := b.payload.filter (fun e => decide (e.1 < n)) }

/-- Checks the blocks whose encodings are complete, in order; the first that fails its CHECK is given back. -/
def Bank.checkBlocks (b : Bank) (base : Bytes) : List Nat → Bank × Option Nat
  | [] => (b, none)
  | i :: is =>
    if Map.has b.blocks i then b.checkBlocks base is
    else match b.encoding i with
      | none => b.checkBlocks base is
      | some enc =>
        match (decodeBlock b.header base enc i).filter (fun x => blockPasses b.header x i) with
        | some x => Bank.checkBlocks { b with blocks := Map.put b.blocks i x } base is
        | none => (b, some i)

/-- NEXT_OFFSET of a download. -/
def State.showNext (s : State) (comp : Nat) : State :=
  let b := s.bank comp (1 - s.activeBank comp)
  s.setFld (fUPD_STATEn_NEXT_OFFSET comp) (b.missingFrom (hdrPayload b.header - b.resumeAt) b.resumeAt)

/-! ## Levels (R457, R463) -/

def State.newContent (s : State) (comp content : Nat) : Nat :=
  let other := fun (c : Nat) => ((s.running c).map (·.content)).getD 0
  if comp = fcMP_HUB then max content (other fcTILE)
  else if comp = fcTILE then max content (other fcMP_HUB)
  else s.fld fGLB_FW_CONTENT_LEVEL

/-- Pipeline images in effect or pending. -/
def State.liveImages (s : State) : List ImageRec := ((s.data.keys.map s.neededImages).flatten).filterMap s.imageRec

def FwFit.bad (f : FwFit) (i : FwImage) : Bool :=
  !f.readable || (match f.wire with | some w => w < i.wireMin || i.wireMax < w | none => false)

/-- R461's floor, then R463. (DEDUCED, log entry 86.) -/
def State.levelStatus (s : State) (comp : Nat) (i : FwImage) (fit : FwFit) : Option Status := firstErr [
  (i.sv < s.fw.floor, stUPD_SECURITY),
  (s.anySeatedRun && s.newContent comp i.content != s.fld fGLB_FW_CONTENT_LEVEL, stUPD_CONTENT),
  (s.liveImages.any (fun p => i.compat < p.compat) || fit.bad i, stUPD_COMPAT)]

/-! ## The update opcodes (Table 21.4) -/

/-- The component that downloads, is verified, switches or is in trial. -/
def State.updComp (s : State) : Option Nat := (List.range 4).find? (fun c => s.updState c != usIDLE)

/-- The component in one of the listed states. -/
def State.updIn (s : State) (states : List Nat) : Option Nat :=
  match s.updComp with
  | some c => if states.contains (s.updState c) then some c else none
  | none => none

def State.staging (s : State) (comp : Nat) : Bank := s.bank comp (1 - s.activeBank comp)
def State.setStaging (s : State) (comp : Nat) (b : Bank) : State := (s.setBank comp (1 - s.activeBank comp) b).showVersions comp

/-- What an update opcode leads to: a status, with a state that differs only where the opcode has an effect, and the
component whose switch the request waits for. -/
abbrev UpdRes := Status × State × Option Nat

def State.upd (s : State) (st : Status) : UpdRes := (st, s, none)

/-- A failed signature: F1, counted. -/
def State.badSignature (s : State) : UpdRes :=
  ((s.flag fUPD_ERR_SIGNATURE).raise srcMP stUPD_SIGNATURE 0 noCtx .f1).upd stUPD_SIGNATURE

/-- UPD_BEGIN: the buffer holds header and block table. (DEDUCED, log entry 86.) -/
def State.updBegin (s : State) (h : Bytes) (fit : FwFit) : UpdRes :=
  if !headerOk h then s.upd stUPD_ARGS
  else
    let c := fieldAt h 6 1
    let free : Bool := match s.updComp with
      | none => true
      | some k => k == c && (s.updState c == usDOWNLOADING || s.updState c == usVERIFIED)
    if !free then s.upd stUPD_STATE
    else if !signed h then s.badSignature
    else match s.levelStatus c (hdrImage h []) fit with
      | some st => s.upd st
      | none =>
        if hdrDelta h && ((s.running c).map (·.digest)) != some (slice h 48 48) then s.upd stUPD_BASE
        else
          let s := s.setStaging c { Bank.empty with header := h }
          ((s.setUpd c usDOWNLOADING).showNext c).upd stOK

/-- UPD_WRITE: payload at an offset; blocks that complete are checked, and a block that fails is written again from its
start. (DEDUCED, log entry 86.) -/
def State.updWrite (s : State) (off : Nat) (d : Bytes) : UpdRes :=
  match s.updIn [usDOWNLOADING] with
  | none => s.upd stUPD_STATE
  | some c =>
    let b := s.staging c
    if d.isEmpty ∨ hdrPayload b.header < off + d.length then s.upd stUPD_ARGS
    else
      let stored := (List.range d.length).foldl (fun m i => Map.put m (off + i) (d.getD i 0#8)) b.payload
      let (b', bad) := ({ b with payload := stored }).checkBlocks (s.activeBytes c) (List.range (hdrBlocks b.header))
      match bad with
      | none => ((s.setStaging c b').showNext c).upd stOK
      | some i => ((s.setStaging c (b'.dropFrom (fieldAt (hdrEntry b.header i) 0 4))).showNext c).upd stUPD_BLOCK

/-- UPD_VERIFY: every block reads back and passes, and R463 holds. -/
def State.updVerify (s : State) (bad : Option Nat) (fit : FwFit) : UpdRes :=
  match s.updIn [usDOWNLOADING] with
  | none => s.upd stUPD_STATE
  | some c =>
    let b := match bad with
      | some i => { s.staging c with blocks := Map.del (s.staging c).blocks i }
      | none => s.staging c
    let whole := (List.range (hdrBlocks b.header)).all (fun i => Map.has b.blocks i)
    if !whole then ((s.setStaging c (b.dropFrom b.resumeAt)).showNext c).upd stUPD_BLOCK
    else
      let i := hdrImage b.header (sha384 (b.blocks.vals).flatten)
      match s.levelStatus c i fit with
      | some st => s.upd st
      | none => ((s.setStaging c { b with image := some i }).setUpd c usVERIFIED).upd stOK

/-- A component enters TRIAL. -/
def State.enterTrial (s : State) (comp : Nat) : State :=
  (s.setUpd comp usTRIAL).setFw { s.fw with trialAt := Map.put s.fw.trialAt comp s.dtime }

/-- The selector record names a bank as active in trial. -/
def State.selectTrial (s : State) (comp bank : Nat) (readBack : Bool) : State :=
  s.setFw (s.fw.writeSelector (fun r => { r with
    active := Map.put r.active comp bank, trial := Map.put r.trial comp true, count := Map.put r.count comp 0 }) (!readBack))

/-- UPD_ACTIVATE: LOADER runs from the next module reset on; TILE without a seated run switches at once. -/
def State.updActivate (s : State) (fit : FwFit) (readBack : Bool) : UpdRes :=
  match s.updIn [usVERIFIED] with
  | none => s.upd stUPD_STATE
  | some c =>
    let b := 1 - s.activeBank c
    match (s.staging c).image with
    | none => s.upd stUPD_STATE
    | some i =>
      if s.fw.switching.isSome then s.upd stUPD_STATE
      else match s.levelStatus c i fit with
        | some st => s.upd st
        | none =>
          let s := s.selectTrial c b readBack
          if c = fcLOADER ∨ (c = fcTILE ∧ !s.anySeatedRun) then ((s.flipBank c b).enterTrial c).upd stOK
          else
            let s := if c = fcMP_HUB then s.keepSettings else s
            (stOK, (s.setUpd c usACTIVATING).beginSwitch c false, some c)

/-- UPD_CONFIRM: the floor rises, the record's trial is cleared, and the previous bank is the staging bank. -/
def State.updConfirm (s : State) (readBack : Bool) : UpdRes :=
  match s.updIn [usTRIAL] with
  | none => s.upd stUPD_STATE
  | some c =>
    let sv := ((s.running c).map (·.sv)).getD 0
    let floor := max s.fw.floor sv
    let s := (s.setFw { s.fw with floor := floor }).setFld fUPD_STATUS_FUSED_SV floor
    let s := s.setFw (s.fw.writeSelector (fun r => { r with
      trial := Map.put r.trial c false, count := Map.put r.count c 0 }) (!readBack))
    let a := s.activeBank c
    let s := s.setBank c a { s.bank c a with header := [] }
    let s := s.setFw { s.fw with
      trialAt := Map.del s.fw.trialAt c
      kept := if c = fcMP_HUB then [] else s.fw.kept }
    (((s.setFld (fUPD_STATEn_TRIAL_COUNT c) 0).setUpd c usIDLE).showVersions c).upd stOK

def State.updAbort (s : State) : UpdRes :=
  match s.updIn [usDOWNLOADING, usVERIFIED] with
  | none => s.upd stUPD_STATE
  | some c => (((s.setStaging c Bank.empty).setFld (fUPD_STATEn_NEXT_OFFSET c) 0).setUpd c usIDLE).upd stOK

def State.updRevert (s : State) : UpdRes :=
  match s.updIn [usTRIAL] with
  | none => s.upd stUPD_STATE
  | some c =>
    let s := s.rollback c
    (stOK, s, if (s.fw.switching.map (·.1)) = some c then some c else none)

/-- LAST_STATUS shows the status of the latest update opcode. -/
def State.showStatus (x : UpdRes) : UpdRes := (x.1, x.2.1.setFld fUPD_STATUS_LAST_STATUS x.1.toNat, x.2.2)

def State.runUpd (s : State) (op : UpdOp) : UpdRes := State.showStatus (match op with
  | .begin h fit => s.updBegin h fit
  | .write off d => s.updWrite off d
  | .verify bad fit => s.updVerify bad fit
  | .activate fit readBack => s.updActivate fit readBack
  | .confirm readBack => s.updConfirm readBack
  | .abort => s.updAbort
  | .revert => s.updRevert)

/-- An update opcode of the owner on a CTX0 ring; one that starts a switch completes at its end. -/
def State.onUpd (s : State) (sq opcode : Nat) (wellSized : HostReq → Bool) (op : UpdOp) : State :=
  s.onReq 0 sq opcode (fun s r =>
    if !wellSized r then s.answer r stHOST_ARGS
    else match s.runUpd op with
      | (_, s, some c) => s.await r (.update c)
      | (st, s, none) => s.answer r st)

/-- UPD_BEGIN (R461). The UPD_BEGIN opcode checks an image's header, signatures, levels and base, and erases
the staging bank. -/
def execUpdBegin (sq : Fin 256) (buf : Bytes) (fit : FwFit) (s : State) : Step' :=
  act s (fun s => s.onUpd sq 0xF0 (fun r => r.len == buf.length) (.begin buf fit))

/-- UPD_WRITE (R461). The UPD_WRITE opcode stores payload and checks each target block as it completes. -/
def execUpdWrite (sq : Fin 256) (offset : Nat) (buf : Bytes) (s : State) : Step' :=
  act s (fun s => s.onUpd sq 0xF1 (fun r => r.len == buf.length) (.write offset buf))

/-- UPD_VERIFY (R463). The UPD_VERIFY opcode rereads the staging bank and checks every block and the
compatibility rules. -/
def execUpdVerify (sq : Fin 256) (bad : Option Nat) (fit : FwFit) (s : State) : Step' :=
  act s (fun s => s.onUpd sq 0xF2 (fun _ => true) (.verify bad fit))

/-- UPD_ACTIVATE (R464). The UPD_ACTIVATE opcode writes a trial selector record and switches the component,
which then enters TRIAL. -/
def execUpdActivate (sq : Fin 256) (fit : FwFit) (readBack : Bool) (s : State) : Step' :=
  act s (fun s => s.onUpd sq 0xF3 (fun _ => true) (.activate fit readBack))

/-- UPD_CONFIRM (R466). The UPD_CONFIRM opcode raises the fused floor if needed and clears the trial. -/
def execUpdConfirm (sq : Fin 256) (readBack : Bool) (s : State) : Step' :=
  act s (fun s => s.onUpd sq 0xF4 (fun _ => true) (.confirm readBack))

/-- UPD_ABORT (R462). The UPD_ABORT opcode discards the staging bank and returns the component to IDLE. -/
def execUpdAbort (sq : Fin 256) (s : State) : Step' := act s (fun s => s.onUpd sq 0xF5 (fun _ => true) .abort)
/-- UPD_REVERT (R465). The UPD_REVERT opcode rolls a component in TRIAL back to its previous bank. -/
def execUpdRevert (sq : Fin 256) (s : State) : Step' := act s (fun s => s.onUpd sq 0xF6 (fun _ => true) .revert)

/-! ## Switches and trials (R464, R465) -/

/-- The new image runs: MP_HUB reads the settings, the component is in TRIAL, or rolls back when its self-check fails.
(DEDUCED, log entry 86.) -/
def State.finishSwitch (s : State) (comp lowest : Nat) (selfCheck : Bool) : State :=
  let s := s.flipBank comp (1 - s.activeBank comp)
  let s := if comp = fcMP_HUB then s.defaultGroups lowest s.fw.keptFormats else s
  let s := s.enterTrial comp
  if selfCheck then s.wake (.update comp) stOK else (s.rollback comp).wake (.update comp) stUPD_ROLLED_BACK

/-- The pause of MP_HUB, of one NET port group, or of TILE's changeover ends. `lowest`: the lowest settings format that the
new MP_HUB reads; `selfCheck`: whether the new component passes its self-check. -/
def execUpdSwitchComplete (lowest : Nat) (selfCheck : Bool) (s : State) : Step' :=
  act s (fun s => match s.fw.switching with
    | none => s
    | some (c, left, back) =>
      let due := match s.fw.switchStep with
        | some e => decide (e ≤ s.lastStep + s.leadOf 0) || !s.anySeatedRun
        | none => true
      if !due then s
      else if 1 < left then s.setFw { s.fw with switching := some (c, left - 1, back) }
      else
        let s := s.setFw { s.fw with switching := none, switchStep := none }
        if back then
          let s := if c = fcTILE then s.flipBank c (1 - s.activeBank c) else s
          s.wake (.update c) stOK
        else s.finishSwitch c lowest selfCheck)

/-- CONFIRM_S seconds in TRIAL. -/
def execTrialTimeout (component : Fin 4) (s : State) : Step' :=
  act s (fun s => match Map.find s.fw.trialAt component with
    | none => s
    | some t =>
      if s.updState component ≠ usTRIAL ∨ s.dtime < t + s.fld fUPD_CFG_CONFIRM_S * 10 ^ 9 then s
      else s.rollback component)

/-! ## MCTP over I3C -/

/-- The management processor answers MCTP: P12V_AUX stands, MP_HUB or recovery runs, and no MP_HUB switch pauses it.
(DEDUCED, log entry 87.) -/
def State.mctpServed (s : State) : Bool :=
  s.mod.p12v && (3 ≤ s.mod.booted || s.mod.recovery) && (s.fw.switching.map (·.1)) != some 1

/-- Fault records go out as Table 17.2 lays them out; the spec lays out no other reply (free bytes). In F5 and in recovery
(updates only in the latter) requests are answered too. (DEDUCED, log entry 87.) -/
def State.mctp (s : State) : McMsg → State
  | .faultRecords => s.emit (.i3c ((s.flt.records.map FaultRec.bytes).flatten))
  | .inventory => s.used.emit (.i3c (toLE 64 (s.free 512)))
  | .health => s.used.emit (.i3c (toLE 64 (s.free 512)))
  | .update op =>
    if s.safe then s
    else match s.runUpd op with
      | (st, s, _) => s.emit (.i3c (toLE 2 st.toNat))

/-- MCTP_REQUEST (R397). An MCTP request over I3C for inventory, health, fault records or an update opcode is
answered, also in F5 and recovery. -/
def execMctpRequest (msg : McMsg) (s : State) : Step' :=
  always s (fun s => if s.mctpServed then s.mctp msg else s)

end Sys2Proof.Machine
end

