-- ==== Sys2Proof/Machine/Boot.lean ====
section
/-!
DEFINITION. Boot (spec/21: R458 to R460, R467, R468): the reset pins and the boot stages of Table 21.2.
-/
namespace Sys2Proof.Machine

/-- PERST_N rises. -/
def execPerstNRelease (s : State) : Step' := act s (fun s => s.setMod { s.mod with perst := false })

/-- MOD_RESET_N rises: boot stage 0 may start (the stages' times are not modelled). -/
def execModResetNRelease (s : State) : Step' :=
  act s (fun s => if s.mod.modReset then s.setMod { s.mod with modReset := false } else s)

/-! ## Banks at boot (R460) -/

/-- The image a bank holds at boot: what an update installed, unless it is corrupt, or what the factory did; a bank under
download holds none. -/
def Bank.bootImage (b : Bank) (found : Option FwImage) : Option FwImage :=
  match b.image, found with
  | some i, some _ => some i
  | none, some i => if b.header.isEmpty then some i else none
  | _, none => none

/-- A bank that passes R461, its SECURITY_VERSION at or above the floor.
(DESIGN CHOICE, log entry 14.) -/
def State.bankPasses (s : State) (comp b : Nat) (f : BootFacts) : Option FwImage :=
  ((s.bank comp b).bootImage (if b = 0 then f.bank0 else f.bank1)).filter (fun i => decide (s.fw.floor ≤ i.sv))

/-- The stage runs a bank. -/
def State.runBank (s : State) (comp b : Nat) (i : FwImage) : State :=
  (s.setBank comp b { s.bank comp b with image := some i }).flipBank comp b

/-- A stage verifies the selected bank of a component, else takes its previous or other bank; none: neither passes. -/
def State.verifyBank (s : State) (comp : Nat) (f : BootFacts) : Option State :=
  let a := s.activeBank comp
  match s.bankPasses comp a f with
  | some i => some (s.runBank comp a i)
  | none =>
    let trial := s.inTrial comp
    let s := if trial then s.rollback comp else s
    match s.bankPasses comp (1 - a) f with
    | some i => some ((if trial then s else s.flag fUPD_ERR_BANK_CORRUPT).runBank comp (1 - a) i)
    | none => none

/-! ## Stage 0: the selector record (R467) and the state of updates (Table 21.5) -/

/-- The record chosen at boot stands again as the next one in the other cell, and names the active banks. -/
def State.chooseSelector (s : State) : State :=
  let s := if (s.fw.selector).isSome then s.select id else s
  let r := (s.fw.selector).getD SelRec.first
  (List.range 4).foldl (fun s c => s.setFld (fUPD_STATEn_ACTIVE_BANK c) (Map.getD r.active c 0)) s

/-- Every boot in trial counts; one beyond TRIAL_BOOTS rolls back. -/
def State.countTrials (s : State) : State :=
  match s.fw.selector with
  | none => s
  | some r =>
    let ts := (List.range 4).filter (fun c => Map.getD r.trial c false)
    let spent := ts.filter (fun c => s.fld fUPD_CFG_TRIAL_BOOTS ≤ Map.getD r.count c 0)
    let s := if ts.isEmpty then s else s.select (fun r => { r with
      count := ts.foldl (fun m c => Map.put m c (Map.getD r.count c 0 + 1)) r.count })
    spent.foldl State.rollback s

/-- UPD_STATE of a component as the firmware store has it. -/
def State.showUpdate (s : State) (comp : Nat) : State :=
  let r := (s.fw.selector).getD SelRec.first
  let a := s.activeBank comp
  let b := s.bank comp (1 - a)
  if Map.getD r.trial comp false then
    let s := (s.setFld (fUPD_STATEn_TRIAL_COUNT comp) (Map.getD r.count comp 0)).setUpd comp usTRIAL
    s.setFw { s.fw with trialAt := Map.put s.fw.trialAt comp s.dtime }
  else if b.header.isEmpty then s.setUpd comp usIDLE
  else if b.image.isSome then s.setUpd comp usVERIFIED
  else
    let s := s.setBank comp (1 - a) (b.dropFrom b.resumeAt)
    (s.setUpd comp usDOWNLOADING).showNext comp

/-- The key vault's self-test: SELFTEST_OK, or the vault stays out of service with F4 (the spec names no status).
(DEDUCED, log entry 87.) -/
def State.selfTested (s : State) (ok : Bool) : State :=
  if ok then s.flag fSEC_STATUS_SELFTEST_OK
  else ((s.unflag fSEC_STATUS_SELFTEST_OK).flag fSEC_ERR_SELFTEST_FAIL).used.raise 0x0002 (BitVec.ofNat 16 (s.free 16)) 0 noCtx .f4

def State.stageRom (s : State) (f : BootFacts) : State :=
  let s := s.selfTested f.selfTest
  let s := (s.chooseSelector).countTrials
  let s := (List.range 4).foldl State.showUpdate s
  let s := s.setFld fUPD_STATUS_FUSED_SV s.fw.floor
  let s := s.setFld fSEC_STATUS_SEAL_EPOCH s.fw.sealEpoch
  s.setFld fSEC_STATUS_DECOMMISSIONED (if s.fw.decommissioned then 1 else 0)

/-! ## Stages 1 to 4 -/

/-- The boot measurement (R459). -/
def State.measureBoot (s : State) : State :=
  match s.running fcLOADER with
  | some i => { s with sec := { s.sec with measurement := i.digest ++ toLE 2 i.sv } }
  | none => s

/-- Keys held and output counters as the key store has them; a counter advances by 2^20 at each boot (R379). -/
def State.openKeyStore (s : State) (copyLost : Bool) : State :=
  let cs := s.sec.roots.keys
  let s := s.setFld fSEC_KEYS_HELD (cs.foldl (fun m c => putBits m c 1 1) 0)
  let s := { s with sec := { s.sec with
    outCtr := cs.foldl (fun m c => Map.put m c (Map.getD m c 0 + 2 ^ 20)) s.sec.outCtr } }
  if copyLost then s.flag fSEC_ERR_KEYSTORE_COPY_LOST else s

/-- Contexts that the store has defined: ACTIVE with their keys, else DEFINED (R359, R367).
(DEDUCED, log entry 64.) -/
def State.restoreContexts (s : State) : State :=
  s.fw.contexts.foldl (fun s c =>
    if s.ctxState c ≠ csFREE then s else s.setCtxState c (if s.keysHeld c then csACTIVE else csDEFINED)) s

/-- MP_HUB: collector, vault and Logbook writer in service, settings, keys, contexts, and the start of media.
(DEDUCED, log entry 85.) -/
def State.stageHub (s : State) (f : BootFacts) : State :=
  let s := (s.flag fCLK_STATUS_HUB_LOCK).flag fFLT_STATUS_READY
  let s := if s.fld fSEC_STATUS_SELFTEST_OK = 1 then s.flag fSEC_STATUS_READY else s
  let s := if s.fld fSEC_STATUS_DEBUG = 2 then s else s.setFld fSEC_STATUS_DEBUG 0
  let s := (s.flag fLOG_STATUS_READY).setFld fLOG_STATUS_HBM_ONLY (if s.hw.variant.hasMedia then 0 else 1)
  let s := s.openKeyStore f.copyLost
  let s := s.loadSettings f.lowest s.fw.saved s.fw.formats s.fw.shapers
  (s.restoreContexts).startMedia f.dies f.uniform

/-- TILE: every present quarter has its microcode, and its PLL is locked.
(DEDUCED, log entry 85.) -/
def State.stageTile (s : State) : State :=
  (s.setFld fCLK_STATUS_PLL_LOCK (2 ^ s.hw.variant.quarters - 1)).flag fGLB_STATUS_READY

/-- The stage that runs: its own action. -/
def State.stageAction (s : State) (n : Nat) (f : BootFacts) : State :=
  if n = 0 then s.stageRom f
  else if n = 1 then s.measureBoot
  else if n = 2 then s.stageHub f
  else if n = 3 then s
  else s.stageTile

/-- After its action, stages 0 to 3 verify the next component; LOADER's failure stops the start, another's leads to
recovery. -/
def State.bootStage (s : State) (f : BootFacts) : State :=
  let n := s.mod.booted
  let s := s.stageAction n f
  let done := s.setMod { s.mod with booted := n + 1 }
  if n = 4 then done.showFaultOut
  else match s.verifyBank n f with
    | some t => (t.setMod { t.mod with booted := n + 1 }).showFaultOut
    | none => 
      (s.setMod (if n = 0 then { s.mod with stopped := true } else { s.mod with recovery := true })).showFaultOut

/-- The next stage of boot: rails in order, PWR_GOOD, no module reset. -/
def execBootStage (facts : BootFacts) (s : State) : Step' :=
  act s (fun s =>
    let m := s.mod
    if m.held || !m.pwrGood || m.modReset || m.recovery || m.stopped || 5 ≤ m.booted then s else s.bootStage facts)

end Sys2Proof.Machine
end

