-- ==== Sys2Proof/Machine/Clock.lean ====
section
/-!
DEFINITION. Commands of clocks and crossings (spec/20: R452 to R455): quarter power states, clock profiles, PLLs, the time
pins, and the quarter links.
-/
namespace Sys2Proof.Machine

def State.setClock (s : State) (c : ClockState) : State := { s with clock := c }

/-- Source ID of the link and PLL of a quarter (Table 17.1). -/
def srcQUARTER (q : Nat) : Nat := 0x0030 + q

def State.quarterPresent (s : State) (q : Nat) : Bool := q < s.hw.variant.quarters

def State.setQps (s : State) (q v : Nat) : State := s.setFld fCLK_STATUS_QPS (putBits (s.fld fCLK_STATUS_QPS) (2 * q) 2 v)

/-- The quarter's clock runs `wait` ns from now on. -/
def State.clockFrom (s : State) (q wait : Nat) : State :=
  s.setClock { s.clock with clockAt := Map.put s.clock.clockAt q (s.dtime + wait) }

/-! ## Quarter power states (R452) -/

def tilesOfQuarter (q : Nat) : List Nat := (List.range 24).map (q * 24 + ·)

/-- Each tile is UNSEATED or idle, no Rounds slice runs or is due, and both directions of the crossing are empty. -/
def State.quarterIdle (s : State) (q : Nat) : Bool :=
  (tilesOfQuarter q).all (fun t => (s.tileState t == tsUNSEATED || s.tileIdle t) && (s.tile t).slice.isNone
    && !s.flt.withheld.contains t)
  && (List.range 3).all (fun vc => (Map.getD s.clock.fifos (fifoKey q true vc) []).isEmpty
    && (Map.getD s.clock.fifos (fifoKey q false vc) []).isEmpty)

def State.quarterUnseated (s : State) (q : Nat) : Bool := (tilesOfQuarter q).all (fun t => s.tileState t == tsUNSEATED)

/-- Power goes: the tile stores are lost, and the link has to resynchronise. -/
def State.quarterOff (s : State) (q : Nat) : State :=
  let s := (tilesOfQuarter q).foldl (fun s t => if s.tilePresent t then s.setTile t TileRec.off else s) s
  s.setClock { s.clock with links := s.clock.links.filter (· != q) }

/-- A quarter that has met its conditions for `idle` ns enters its next lower state. -/
def execQuarterIdleEntry (quarter : Fin 4) (idle : Nat) (s : State) : Step' :=
  act s (fun s =>
    let q := quarter.val
    let idle1 := s.fld fCLK_QPS_CFG_IDLE1_US
    let idle2 := s.fld fCLK_QPS_CFG_IDLE2_MS
    let idle3 := s.fld fCLK_QPS_CFG_IDLE3_S
    let low := s.quarterIdle q && s.quarterUnseated q && idle1 != 0 && idle2 != 0
    if !s.quarterPresent q then s
    else match s.qps q with
      | 0 => if s.quarterIdle q ∧ idle1 ≠ 0 ∧ idle1 * 1000 ≤ idle then s.setQps q 1 else s
      | 1 => if low ∧ idle2 * 1000000 ≤ idle then (s.setQps q 2).unflag (fCLK_STATUS_PLL_LOCK.bit q) else s
      | 2 => if low ∧ idle3 ≠ 0 ∧ idle3 * 1000000000 ≤ idle then (s.setQps q 3).quarterOff q else s
      | _ => s)

/-- Exit latencies of Table 20.4 in ns. -/
def exitLatency : Nat → Nat
  | 1 => 2000
  | 2 => 50000
  | _ => 2000000

/-- An event for the quarter wakes it. -/
def execQuarterWake (quarter : Fin 4) (s : State) : Step' :=
  act s (fun s =>
    let q := quarter.val
    if !s.quarterPresent q ∨ s.qps q = 0 then s
    else ((s.clockFrom q (exitLatency (s.qps q))).setQps q 0).flag (fCLK_STATUS_PLL_LOCK.bit q))

/-! ## Profiles and PLLs (R453) -/

/-- CLOCK_PROFILE of the owner: each quarter relocks in turn, within 200 µs.
(DEDUCED, log entry 85.) -/
def execClockProfile (sq : Fin 256) (profile : Nat) (s : State) : Step' :=
  act s (fun s => s.onReq 0 sq 0x4A (fun s r =>
    if 2 < profile then s.answer r stHOST_ARGS
    else if s.anySeatedRun then s.answer r stCLK_BUSY
    else
      let qs := (List.range s.hw.variant.quarters).filter (fun q => s.qps q ≤ 1)
      let s := qs.foldl (fun s q => s.clockFrom q (200000 * (q + 1))) s
      (s.setFld fCLK_STATUS_PROFILE profile).answer r stOK))

/-- Unlock of a quarter's PLL fences the quarter, unless the safe state has stopped everything. -/
def State.lockLost (s : State) (q : Nat) : State := if s.safe then s else s.fenceQuarter q

/-- A PLL loses lock: of a quarter, or the hub's (F4; the spec names no source for it).
(DEDUCED, log entry 85.) -/
def execPllUnlock (quarter : Option (Fin 4)) (s : State) : Step' :=
  always s (fun s => match quarter with
    | some q =>
      if !s.quarterPresent q ∨ s.fld (fCLK_STATUS_PLL_LOCK.bit q) = 0 then s
      else
        let s := (s.unflag (fCLK_STATUS_PLL_LOCK.bit q)).flag fCLK_ERR_PLL_UNLOCK
        (s.lockLost q).raise (srcQUARTER q) stPLL_UNLOCK 1 noCtx .f3
    | none =>
      if s.fld fCLK_STATUS_HUB_LOCK = 0 then s
      else ((s.unflag fCLK_STATUS_HUB_LOCK).flag fCLK_ERR_PLL_UNLOCK).used.raise (s.free 16) stPLL_UNLOCK 0 noCtx .f4)

/-! ## Time pins (R454) -/

/-- An edge is stamped, and its offset is the servo's. (DEDUCED, log entry 85.) -/
def State.ppsTaken (s : State) (offset : Int) : State :=
  let s := (s.putReg aCLK_PPS_IN_STAMP s.dtime).setClock { s.clock with ppsMissed := false }
  State.recomputeUncert { s with clk := { s.clk with servoOffset := offset.natAbs } }

/-- A rising edge of PPS_IN; `offset`: ns between its phase and PTP's. -/
def execPpsInEdge (offset : Int) (s : State) : Step' :=
  act s (fun s =>
    if s.fld fCLK_PPS_CFG_PPS_IN_EN = 0 then s
    else s.ppsTaken offset)

/-- PPS_IN_MISSING (R454). No PPS_IN edge for 1.5 s raises F0, and the servo uses PTP alone.
(DEDUCED, log entry 85.) -/
def execPpsInMissing (s : State) : Step' :=
  act s (fun s =>
    if s.fld fCLK_PPS_CFG_PPS_IN_EN = 0 ∨ s.clock.ppsMissed ∨ s.dtime < s.reg aCLK_PPS_IN_STAMP + 1500000000 then s
    else
      let s := (s.setClock { s.clock with ppsMissed := true }).flag fCLK_ERR_PPS_IN_MISSING
      s.used.raise (s.free 16) stPPS_IN_MISSING 0 noCtx .f0)

/-- PPS_OUT rises on the second of DTIME, and falls OUT_WIDTH_MS later. -/
def execPpsOutPulse (s : State) : Step' :=
  act s (fun s => match s.clock.ppsOutAt with
    | some t =>
      if t + s.fld fCLK_PPS_CFG_OUT_WIDTH_MS * 1000000 ≤ s.dtime then
        (s.setClock { s.clock with ppsOutAt := none }).emit (.pin .ppsOut false)
      else s
    | none =>
      if s.fld fCLK_PPS_CFG_PPS_OUT_EN = 1 ∧ s.fld fSTEP_STATUS_TIME ≤ 1 ∧ s.dtime % 10 ^ 9 = 0 then
        (s.setClock { s.clock with ppsOutAt := some s.dtime }).emit (.pin .ppsOut true)
      else s)

/-! ## Quarter links (R455) -/

/-- The hub sends a sync entry to a quarter whose link carries nothing yet; the quarter's echo enables the link. -/
def execCdcResync (quarter : Fin 4) (echo : Bool) (s : State) : Step' :=
  act s (fun s =>
    let q := quarter.val
    if !s.quarterPresent q ∨ s.clock.links.contains q ∨ s.clock.fenced.contains q ∨ !s.clockRuns q then s
    else match Map.find s.clock.syncAt q with
      | none => if echo then s else s.setClock { s.clock with syncAt := Map.put s.clock.syncAt q s.dtime }
      | some t =>
        if echo ∧ s.dtime < t + 10000 then
          s.setClock { s.clock with syncAt := Map.del s.clock.syncAt q, links := s.clock.links ++ [q] }
        else s)

/-- The quarter is fenced, with F3. -/
def State.linkFault (s : State) (q : Nat) (flag : Fld) (st : Status) : State :=
  let s := s.setClock { s.clock with syncAt := Map.del s.clock.syncAt q }
  ((if s.safe then s else s.fenceQuarter q).flag flag).raise (srcQUARTER q) st 0 noCtx .f3

/-- CDC_SYNC_TIMEOUT (R455). No echo within 10 µs fences the quarter with F3 CDC_SYNC. -/
def execCdcSyncTimeout (quarter : Fin 4) (s : State) : Step' :=
  always s (fun s => match Map.find s.clock.syncAt quarter with
    | some t => if t + 10000 ≤ s.dtime then s.linkFault quarter fCLK_ERR_CDC_SYNC stCDC_SYNC else s
    | none => s)

/-- CDC_UNCORRECTED (R455). An uncorrectable crossing entry fences the quarter with F3. -/
def execCdcUncorrected (quarter : Fin 4) (s : State) : Step' :=
  always s (fun s =>
    if s.quarterPresent quarter then s.linkFault quarter fCLK_ERR_CDC_UNCORRECTED stCDC_UNCORRECTED else s)

/-- The oldest entry of a crossing is read: 6 hub cycles (3.75 ns) after the later of its write and the restart of the
reading clock. `up`: towards the hub, whose clock runs; `vc`: 0 control, 1 request, 2 data.
(DESIGN CHOICE, log entry 65.) -/
def execCdcEntryRead (quarter : Fin 4) (up : Bool) (vc : Fin 3) (s : State) : Step' :=
  act s (fun s =>
    let k := fifoKey quarter up vc
    let q := quarter.val
    match Map.getD s.clock.fifos k [] with
    | [] => s
    | t :: rest =>
      let ready := if up then t else max t (Map.getD s.clock.clockAt q 0)
      if (!up ∧ !s.quarterRuns q) ∨ s.dtime < ready + 4 then s
      else s.setClock { s.clock with fifos := Map.setD [] s.clock.fifos k rest })

end Sys2Proof.Machine
end

