-- ==== Sys2Proof/Machine/Secrets.lean ====
section
/-!
DEFINITION. The key vault (spec/16): attestation and key delivery (R368 to R370), sealed blobs (R371, R372), zeroisation and
the debug levels (R380, R381).
-/
namespace Sys2Proof.Machine

/-! ## Device keys (Table 16.2) -/

def State.deviceIdSeed (s : State) : Bytes := kmac256 (Config.deviceSecret s.hw.serial) [] 512 (ascii "Onafold DeviceID v1")

/-- The alias pair's seed: the CDI of the boot measurement. -/
def State.cdi (s : State) : Bytes :=
  kmac256 (Config.deviceSecret s.hw.serial) s.sec.measurement 512 (ascii "Onafold CDI v1")

/-! ## Attestation (R368, Table 16.3) -/

def State.measured (s : State) (comp : Nat) : Bytes := ((s.running comp).map (·.digest)).getD (zeros 48)

/-- FLAGS of a report. -/
def State.reportFlags (s : State) (c : Nat) : Nat :=
  let debug := s.fld fSEC_STATUS_DEBUG
  (if debug = 1 then 1 else 0) + (if debug = 2 then 2 else 0) + (if s.keysHeld c then 4 else 0)
    + 8 * s.fld fSEC_STATUS_DECOMMISSIONED

/-- Report bytes 0 to 2,015. -/
def State.reportBody (s : State) (c : Nat) (nonce ecdh kem : Bytes) : Bytes :=
  let keyCheck := ((s.rootKey c).map (fun k => kmac256 k [] 384 (ascii "Onafold Key Check v1"))).getD (zeros 48)
  let seed := ((s.ctxData c).seed.map seedCheck).getD (zeros 16)
  padTo 2016 (toLE 4 0x5241464F ++ toLE 2 1 ++ toLE 1 c ++ toLE 1 (s.reportFlags c) ++ toLE 8 s.hw.serial ++ nonce
    ++ sha384 (Config.ecdsaPublic s.deviceIdSeed) ++ s.measured fcMP_HUB ++ s.measured fcNET ++ s.measured fcTILE
    ++ toLE 2 (s.fld fGLB_FW_CONTENT_LEVEL) ++ toLE 2 (s.fld fGLB_FW_SECURITY_VERSION) ++ toLE 1 (s.fld fGLB_ID_VARIANT)
    ++ toLE 1 (s.fld fGLB_ID_STEPPING) ++ toLE 2 s.fw.sealEpoch ++ keyCheck ++ seed ++ zeros 8
    ++ padTo 97 (Config.ecdhPublic ecdh) ++ padTo 1568 (Config.mlkemPublic kem))

/-- The report with its two signatures. -/
def State.signedReport (s : State) (body : Bytes) : Bytes :=
  body ++ padTo 96 (Config.ecdsaSign s.cdi (sha384 body)) ++ padTo 4627 (Config.mldsaSign s.cdi body)

/-- A report on the nonce in buf, with fresh ephemeral keys: it is kept, and written to the request's buffer. -/
def State.attested (s : State) (ctx : Nat) (r : HostReq) (buf : Bytes) : State :=
  let held := Map.getD s.sec.reports ctx []
  let a := toLE 48 (s.free 384)
  let s := s.used
  let b := toLE 64 (s.free 512)
  let s := s.used
  let body := s.reportBody ctx (buf.take 48) a b
  let chains := Config.certChains s.hw.serial (Config.ecdsaPublic s.cdi) (Config.mldsaPublic s.cdi)
  let rec' : Report := { digest := sha384 body, ecdhSeed := a, kemSeed := b, made := s.dtime }
  let s := { s with sec := { s.sec with reports := Map.put s.sec.reports ctx (held ++ [rec']) } }
  s.writeBuf r (s.signedReport body ++ chains)

/-- The nonce comes in the buffer; report and chains go out to it. The ephemeral seeds are free draws.
(DEDUCED, log entry 76.) -/
def execAttest (ctx : Fin 64) (sq : Fin 256) (buf : Bytes) (s : State) : Step' :=
  act s (fun s => s.onReq ctx sq 0x03 (fun s r =>
    let held := Map.getD s.sec.reports ctx []
    if buf.length ≠ r.len ∨ buf.length < 48 then s.answer r stHOST_ARGS
    else if 4 ≤ held.length then s.answer r stSEC_REPORT_BUSY
    else (s.attested ctx r buf).answer r stOK))

def Report.expired (r : Report) (now : Nat) : Bool := r.made + 60 * 10 ^ 9 ≤ now

/-- REPORT_EXPIRY (R368). A report's ephemeral private keys are zeroised 60 s after the report. -/
def execReportExpiry (ctx : Fin 64) (s : State) : Step' :=
  act s (fun s =>
    let left := (Map.getD s.sec.reports ctx []).filter (fun r => !r.expired s.dtime)
    { s with sec := { s.sec with reports := Map.put s.sec.reports ctx left } })

/-! ## Key delivery (R369, R370, Table 16.4) -/

/-- The root key a delivery record carries, opened with a report's ephemeral keys. -/
def Report.unwrap (r : Report) (buf : Bytes) : Option Bytes :=
  match Config.ecdhShared r.ecdhSeed (slice buf 56 97), Config.mlkemDecap r.kemSeed (slice buf 160 1568) with
  | some ze, some zk =>
    gcmOpen (kmac256 (ze ++ zk) r.digest 256 (ascii "Onafold Key Delivery v1")) (zeros 12) (buf.take 56) (slice buf 1728 32)
      (slice buf 1760 16)
  | _, _ => none

/-- A root key is held: its key-store record is written, and a DEFINED context is ACTIVE. -/
def State.holdKey (s : State) (c : Nat) (key : Bytes) : State :=
  let s := { s with sec := { s.sec with roots := Map.put s.sec.roots c key } }
  let s := s.setFld fSEC_KEYS_HELD (putBits (s.fld fSEC_KEYS_HELD) c 1 1)
  if s.ctxState c = csDEFINED then s.setCtxState c csACTIVE else s

/-- A delivery spends its report. -/
def State.spendReport (s : State) (c : Nat) (x : Report) : State :=
  let left := (Map.getD s.sec.reports c []).filter (fun y => y.digest != x.digest)
  { s with sec := { s.sec with reports := Map.put s.sec.reports c left } }

/-- KEY_DELIVER (R369). The KEY_DELIVER opcode derives the KEK, opens the root key and writes the key-store
record, moving the context to ACTIVE. (DEDUCED, log entry 76.) -/
def execKeyDeliver (ctx : Fin 64) (sq : Fin 256) (buf : Bytes) (s : State) : Step' :=
  act s (fun s => s.onReq ctx sq 0x04 (fun s r =>
    let reports := Map.getD s.sec.reports ctx []
    if buf.length ≠ r.len ∨ buf.length ≠ 1776 then s.answer r stHOST_ARGS
    else if s.keysHeld ctx then s.answer r stCTX_STATE
    else if fieldAt buf 0 4 ≠ 0x444B464F ∨ fieldAt buf 4 2 ≠ 1 ∨ fieldAt buf 6 1 ≠ ctx.val then s.answer r stSEC_ARGS
    else match reports.find? (fun x => x.digest == slice buf 8 48) with
      | none => s.answer r stSEC_DELIVERY
      | some x =>
        let s := s.spendReport ctx x
        if x.expired s.dtime then s.answer r stSEC_DELIVERY
        else match x.unwrap buf with
          | none => (s.bump fSEC_AUTH_FAIL_COUNT_BLOB 1).answer r stSEC_DELIVERY
          | some k => (s.holdKey ctx k).answer r stOK))

/-! ## Sealed blobs (R371, R372) -/

def blobKind (buf : Bytes) : Nat := fieldAt buf 6 1

/-- The header check; `kinds` are those the opcode and role may carry. -/
def blobHeaderOk (c : Nat) (kinds : List Nat) (len : Nat) (buf : Bytes) : Bool :=
  48 ≤ buf.length && buf.length == len && fieldAt buf 0 4 == 0x4C42464F && fieldAt buf 4 2 == 1 && kinds.contains (blobKind buf)
    && fieldAt buf 7 1 == c && fieldAt buf 16 4 ≤ 2 ^ 30 && fieldAt buf 16 4 + 48 == buf.length && allZero (slice buf 20 12)

/-- The plaintext of a blob under a context's root key, or none when the tag fails. -/
def openBlob (key : Bytes) (serial : Nat) (buf : Bytes) : Option Bytes :=
  let n := fieldAt buf 16 4
  gcmOpen (kBlob key serial) (slice buf 8 8 ++ zeros 4) (buf.take 32) (slice buf 32 n) (slice buf (32 + n) 16)

/-- SEQUENCE is above the last one accepted. -/
def State.freshSeq (s : State) (c n : Nat) : Bool :=
  match Map.find s.sec.blobSeq c with
  | some m => m < n
  | none => true

def State.acceptSeq (s : State) (c n : Nat) : State :=
  { s with sec := { s.sec with blobSeq := Map.put s.sec.blobSeq c n } }

/-- Opens a blob whose header has passed: refused with a status, failing its tag (none), or accepted with its plaintext. -/
def State.takeBlob (s : State) (c : Nat) (buf : Bytes) : Except Status (Option Bytes × State) :=
  match s.rootKey c with
  | none => .error stSEC_NO_KEYS
  | some k => match openBlob k s.hw.serial buf with
    | none => .ok (none, s)
    | some plain =>
      let n := fieldAt buf 8 8
      if s.freshSeq c n then .ok (some plain, s.acceptSeq c n) else .error stSEC_REPLAY

/-- A blob that fails its tag: counted, and an F1 of the crypto engine that opened it. -/
def State.blobAuth (s : State) (c engine : Nat) (st : Status) : State :=
  ((s.flag fSEC_ERR_BLOB_AUTH).bump fSEC_AUTH_FAIL_COUNT_BLOB 1).raise 0x0003 st engine c .f1

/-- Opens a request's blob and goes on with its plaintext; a tag failure ends it with `bad`. -/
def State.withBlob (s : State) (c engine : Nat) (kinds : List Nat) (r : HostReq) (buf : Bytes) (bad : Status)
    (body : State → Bytes → State) : State :=
  if !blobHeaderOk c kinds r.len buf then s.answer r stSEC_ARGS
  else match s.takeBlob c buf with
    | .error st => s.answer r st
    | .ok (none, s) => (s.blobAuth c engine bad).answer r bad
    | .ok (some plain, s) => body s plain

/-! ## Zeroisation and debug (R380, R381, Table 16.8) -/

/-- Every context's keys go, and the next SEAL_EPOCH fuse burns. (DEDUCED, log entry 78.) -/
def State.zeroiseAll (s : State) : State :=
  let s := (List.range 64).foldl State.destroyKeys s
  let s := { s with sec := { s.sec with link := none } }
  let e := min 64 (s.fw.sealEpoch + 1)
  ((s.setFw { s.fw with sealEpoch := e }).setFld fSEC_STATUS_SEAL_EPOCH e).unflag fSEC_STATUS_LINK_KEY

/-- Every context is torn down. (DEDUCED, log entry 78.) -/
def State.tearDownAll (s : State) : State :=
  ((List.range 64).filter (fun c => c ≠ 0 ∧ s.ctxState c ≠ csFREE ∧ s.ctxState c ≠ csTEARDOWN)).foldl State.tearDown s

/-- DECOMMISSION (R381). The DECOMMISSION opcode zeroises every key, tears down every context and sets
DECOMMISSIONED. -/
def execDecommission (sq : Fin 256) (s : State) : Step' :=
  act s (fun s => s.onReq 0 sq 0x47 (fun s r =>
    let s := (s.tearDownAll).zeroiseAll
    ((s.setFw { s.fw with decommissioned := true }).flag fSEC_STATUS_DECOMMISSIONED).answer r stOK))

/-- The nonce of a debug token to come. -/
def State.challenged (s : State) (n : Bytes) : State := { s with sec := { s.sec with challenge := some (n, s.dtime) } }

/-- The device draws a nonce of 48 bytes and writes it to the buffer. -/
def execDebugChallenge (sq : Fin 256) (s : State) : Step' :=
  act s (fun s => s.onReq 0 sq 0x48 (fun s r =>
    if r.len < 48 then s.answer r stHOST_ARGS
    else
      let n := toLE 48 (s.free 384)
      ((s.used.challenged n).writeBuf r n).answer r stOK))

/-- The bytes a token's signatures cover: what it binds, in the order R380 gives.
(DESIGN CHOICE, log entry 77.) -/
def DebugToken.bytes (t : DebugToken) : Bytes := toLE 8 t.level ++ toLE 8 t.serial ++ t.nonce ++ toLE 8 t.notAfter

/-- The token binds LEVEL 2, this device, the latest nonce within 600 s and a time not passed; both signatures verify.
(DESIGN CHOICE, log entry 77.) -/
def State.tokenOk (s : State) (t : DebugToken) : Bool :=
  let fresh := match s.sec.challenge with
    | some (n, at_) => n == t.nonce && s.dtime ≤ at_ + 600 * 10 ^ 9
    | none => false
  t.level == 2 && t.serial == s.hw.serial && fresh && s.dtime ≤ t.notAfter && s.fw.sealEpoch < 64
    && Config.ecdsaVerify Config.debugKeys.1 t.bytes t.sigEcdsa && Config.mldsaVerify Config.debugKeys.2 t.bytes t.sigMldsa

/-- An accepted token: every secret goes before the port opens. (DESIGN CHOICE, log entry 77.) -/
def State.unlocked (s : State) : State :=
  let s := s.zeroiseAll
  { s with sec := { s.sec with portOpen := true, challenge := none } }

/-- DEBUG_UNLOCK (R380). The DEBUG_UNLOCK opcode verifies a vendor token, zeroises keys, burns a SEAL_EPOCH
fuse and opens the debug port. -/
def execDebugUnlock (sq : Fin 256) (token : DebugToken) (s : State) : Step' :=
  act s (fun s => s.onReq 0 sq 0x49 (fun s r =>
    if !s.tokenOk token then s.answer r stSEC_DEBUG_TOKEN
    else (s.unlocked.setFld fSEC_STATUS_DEBUG 2).answer r stOK))

end Sys2Proof.Machine
end

