-- ==== Sys2Proof/Machine/Ingest.lean ====
section
/-!
DEFINITION. Ingest (R48 to R54, R59, R61, R112, R302): seek tables, source objects, closing an ingest stream; the opcodes
INGEST_OPEN and INGEST_CLOSE.
-/
namespace Sys2Proof.Machine

/-! ## Seek tables (R53, Table 2.4) -/

/-- Raw bytes that hold the last n bytes of an entropy-coded segment, read backwards: a stuffed zero goes with its FF, a
fill FF holds none. -/
def rawBack : List Byte → Nat → Nat
  | _, 0 => 0
  | 0#8 :: 255#8 :: r, n + 1 => 2 + rawBack r n
  | b :: r, n + 1 => if b = 255#8 then 1 + rawBack r (n + 1) else 1 + rawBack r n
  | [], _ + 1 => 0

/-- The entry of an MCU row at the place a scan has reached. -/
def jpegEntry (payload : Bytes) (row : Nat) (r : JRun) : Bytes :=
  let e := payload.length - r.jb.rest.length
  let off := e - rawBack (payload.take e).reverse (ceilDiv r.jb.bits.length 8)
  let pred : Nat → Int := fun i => ((r.sels[i]?).map (fun (x : JSel) => x.pred)).getD 0
  toLE 4 off ++ toLE 1 ((8 - r.jb.bits.length % 8) % 8) ++ zeros 1 ++ toLE 2 row ++ zeros 2
    ++ (List.range 3).flatMap (fun i => toLE 2 (pred i % 2 ^ 16).toNat)

/-- Entries of the MCU rows from one on, by decoding them. -/
def jpegRows (payload : Bytes) (fr : JFrame) (sc : JScan) (ri : Nat) : Nat → Nat → JRun → Except Status (List Bytes)
  | 0, _, _ => .ok []
  | n + 1, row, r => do
    let i := row * fr.mcux
    let r ← (if ri ≠ 0 ∧ i ≠ 0 ∧ i % ri = 0 then jRestart (i / ri - 1) r else .ok r)
    let e := jpegEntry payload row r
    let r ← jMcus fr sc ri fr.mcux (decide (r.sels.length = 1)) fr.mcux i i r
    let es ← jpegRows payload fr sc ri n (row + 1) r
    return e :: es

/-- Header and entropy-coded bytes of the first scan. -/
def firstScan : Nat → Bytes → Option (Bytes × Bytes)
  | 0, _ => none
  | fuel + 1, 255#8 :: m :: rest =>
    if m = 255#8 then firstScan fuel (m :: rest)
    else
      let len := beNat (rest.take 2)
      if m = 218#8 then some ((rest.drop 2).take (len - 2), rest.drop len) else firstScan fuel (rest.drop len)
  | _ + 1, _ => none

/-- Kind 1 entries of a baseline JPEG of one scan; none for any other, or one that does not decode.
(DEDUCED, log entry 79.) -/
def jpegSeek (payload : Bytes) : List Bytes :=
  match jRun payload (fun _ => .info), firstScan payload.length (payload.drop 2) with
  | .ok st, some (hdr, body) => match st.frame with
    | none => []
    | some fr =>
      let n := fieldAt hdr 0 1
      if fr.progressive ∨ n ≠ fr.comps.length then []
      else
        let sels := (List.range n).map (fun i =>
          let cid := fieldAt hdr (1 + 2 * i) 1
          let tt := fieldAt hdr (2 + 2 * i) 1
          ({ idx := fr.comps.findIdx (fun c => c.id = cid), dc := st.tables.dc.getD (tt / 16) none,
             ac := st.tables.ac.getD (tt % 16) none, pred := 0 } : JSel))
        match jpegRows payload fr ⟨0, 63, 0, 0⟩ st.tables.ri fr.mcuy 0 ⟨fr.comps, sels, jStart body, 0⟩ with
        | .ok es => es
        | .error _ => []
  | _, _ => []

/-- The seek tables of a payload by its media type; empty: none. -/
def seekTables (media : Nat) (payload : Bytes) : Bytes :=
  if media = 2 then
    (let es := jpegSeek payload
     if es.isEmpty then [] else seekTable 1 es)
  else if media = 6 ∨ media = 7 ∨ media = 8 then
    let frames := (Config.videoFrames payload).map (fun e => toLE 8 e.1 ++ toLE 4 e.2.1 ++ toLE 2 (if e.2.2 then 1 else 0) ++ zeros 2)
    let tiles := (Config.videoTiles payload).map (fun e => toLE 4 e.1 ++ toLE 2 e.2.1 ++ toLE 2 e.2.2.1 ++ toLE 8 e.2.2.2)
    seekTable 2 frames ++ (if tiles.isEmpty then [] else seekTable 3 tiles)
  else []

/-! ## Source objects (R61) -/

/-- The plain length of a payload under its codec. -/
def plainLength (codec : Nat) (payload : Bytes) : Except Status Nat :=
  let limit := 2 ^ 30
  let out := if codec = 1 then rawDeflate payload limit
    else if codec = 2 then zlibDecode payload limit
    else if codec = 3 then gzipDecode payload limit
    else zstdDecode none payload limit
  if codec = 0 then .ok payload.length
  else match out with
    | .ok d => .ok d.length
    | .error (.full _) => .error stINGEST_TOO_LARGE
    | .error (.bad _) => .error stINGEST_MALFORMED

/-- Bytes of an extent that holds these records (R48). -/
def extentUse (records : List Bytes) : Nat :=
  64 + (records.map List.length).foldl (· + ·) 0 + 4 * (records.length + 1)

/-- The current extent as it closes: its entry and its plaintext. -/
def IngestRec.closed (g : IngestRec) : ExtentEnt × Bytes :=
  ({ first := g.first, count := g.records.length, used := extentUse g.records },
   buildExtent g.dataset g.sizeLog2 g.extents.length g.gen g.first g.records)

/-- Takes a source object: a refusal, or the stream with one more record. -/
def IngestRec.take (g : IngestRec) (source : Bytes) : Except Status IngestRec :=
  match Config.sourceType source with
  | none => .error stINGEST_TYPE
  | some (codec, media) =>
    let payload := Config.sourcePayload source
    if 4 < codec ∨ 9 < media then .error stINGEST_TYPE
    else if 2 ^ 30 < payload.length then .error stINGEST_TOO_LARGE
    else match plainLength codec payload with
      | .error st => .error st
      | .ok plain =>
        let rec' := buildRecord g.next plain codec media payload (seekTables media payload)
        if 2 ^ g.sizeLog2 < extentUse [rec'] then .error stINGEST_TOO_LARGE
        else if extentUse (g.records ++ [rec']) ≤ 2 ^ g.sizeLog2 then .ok { g with next := g.next + 1, records := g.records ++ [rec'] }
        else .ok { g with next := g.next + 1, extents := g.extents ++ [g.closed], first := g.next, records := [rec'] }

def State.setIngest (s : State) (c n : Nat) (g : IngestRec) : State :=
  let d := s.ctxData c
  s.setData c { d with ingest := Map.put d.ingest n g }

/-- A source object of a stream, in the order of sequence numbers; one not above the latest taken is refused.
(DEDUCED, log entry 79.) -/
def State.ingestObject (s : State) (c stream seq : Nat) (source : Bytes) (r : HostReq) : State :=
  match Map.find (s.ctxData c).ingest stream with
  | none => s.answer r stHOST_ARGS
  | some g =>
    let late : Bool := match g.lastSeq with | some m => seq ≤ m | none => false
    if late then s.answer r stHOST_ARGS
    else
      let g := { g with lastSeq := some seq }
      match g.take source with
      | .error st => (s.setIngest c stream g).answer r st
      | .ok g => (s.setIngest c stream g).answer r stOK

/-! ## Opening and closing a stream -/

/-- The ingest parameters (KIND 10), laid out as the dataset entry of Table 2.5 has them: u8 DATASET_ID, u8 SIZE_LOG2,
u16 POD_COUNT, u32 reserved, then the pod list of Table 2.6 (log entry 71).
(DESIGN CHOICE, log entry 71.) -/
def ingestParams (b : Bytes) : Option (Nat × Nat × List PodEnt) :=
  let n := fieldAt b 2 2
  let pods := readPods b 8 n
  let x := fieldAt b 1 1
  if b.length = 8 + 8 * n ∧ 22 ≤ x ∧ x ≤ 31 ∧ podsOk pods then some (fieldAt b 0 1, x, pods.map (·.1)) else none

/-- A stream number that is not open. (DEDUCED, log entry 79.) -/
def freeStream (open_ : List Nat) (start : Nat) : Nat :=
  (((List.range (open_.length + 1)).map (fun i => (start + i) % 2 ^ 32)).find? (fun n => !open_.contains n)).getD start

/-- Stream n of a context opens, on the next generation of a dataset. -/
def State.openStream (s : State) (c n ds x : Nat) (pods : List PodEnt) : State :=
  let d := s.ctxData c
  let gen := Map.getD d.gens ds 0 + 1
  let g : IngestRec := { dataset := ds, sizeLog2 := x, pods := pods, gen := gen, next := 0, extents := [], first := 0,
                         records := [], lastSeq := none }
  s.setData c { d with gens := Map.put d.gens ds gen, ingest := Map.put d.ingest n g }

/-- RESULT0 is the stream; the dataset's next generation (R61, Table 2.1).
(DEDUCED, log entry 79.) -/
def execIngestOpen (ctx : Fin 64) (sq : Fin 256) (engine : Fin 65536) (buf : Bytes) (s : State) : Step' :=
  act s (fun s => s.onReq ctx sq 0x18 (fun s r =>
    if !s.hw.variant.hasMedia then s.answer r stUNIT_ABSENT
    else s.withBlob ctx engine [10] r buf stSEC_BLOB_AUTH (fun s plain =>
      match ingestParams plain with
      | none => s.answer r stSEC_ARGS
      | some (ds, x, pods) =>
        let n := freeStream ((s.ctxData ctx).ingest.map (·.1)) (s.free 32)
        let s := s.used.openStream ctx n ds x pods
        s.used.finish r stOK n (s.free 32))))

/-- All fragments of a stripe from its data fragments; the missing ones count as zero. -/
def stripeFrags (size : Nat) (data : List Bytes) : List Bytes :=
  let full := data ++ List.replicate (10 - data.length) (zeros size)
  data ++ List.replicate (10 - data.length) [] ++ [parityP full, parityQ full]

/-- The fragments this device keeps of a dataset, by R59. (UNVERIFIED, log entry 80.) -/
def IngestRec.frags (g : IngestRec) (ctx self tag : Nat) (cipher : List Bytes) : List Frag :=
  let d : DatasetEnt := { id := g.dataset, sizeLog2 := g.sizeLog2, gen := g.gen, count := g.next, base := 0, extents := [], pods := g.pods }
  (List.range (ceilDiv cipher.length 10)).flatMap (fun st =>
    (numbered (stripeFrags (2 ^ g.sizeLog2) ((cipher.drop (10 * st)).take 10))).filterMap (fun e =>
      if d.holder st e.1 = self ∧ !e.2.isEmpty then
        some { tag := tag, stripe := st, num := e.1, ctx := ctx, dataset := g.dataset, gen := g.gen, pods := g.pods,
               extents := cipher.length, data := e.2, lost := [] }
      else none))

/-- The manifest parts: dataset entry, extent table, pod list. BASE and the two offsets follow from the manifest they go into. -/
def IngestRec.parts (g : IngestRec) (base extentsAt podsAt : Nat) : Bytes :=
  let entry := padTo 64 (toLE 1 g.dataset ++ toLE 1 g.sizeLog2 ++ toLE 2 g.pods.length ++ toLE 4 g.gen ++ toLE 8 g.next ++ toLE 8 base
    ++ toLE 4 g.extents.length ++ toLE 4 extentsAt ++ toLE 4 podsAt)
  entry ++ g.extents.flatMap (fun e => toLE 8 e.1.first ++ toLE 4 e.1.count ++ toLE 4 e.1.used)
    ++ g.pods.flatMap (fun p => toLE 1 p.pod ++ toLE 1 (maskBits p.mask 32).length ++ zeros 2 ++ toLE 4 p.mask)

def State.closeIngest (s : State) (c stream : Nat) (g : IngestRec) (r : HostReq) : State :=
  match s.rootKey c with
  | none => s.answer r stSEC_NO_KEYS
  | some trk =>
    let g := if g.records.isEmpty then g else { g with extents := g.extents ++ [g.closed], records := [] }
    let key := kDataset trk g.dataset g.gen
    let cipher := (numbered g.extents).map (fun e => encryptExtent key g.gen e.1 e.2.2)
    let frags := g.frags c s.self (s.free 64) cipher
    let s := s.used
    let parts := g.parts (s.free 64) (s.used.free 32) (s.used.used.free 32)
    let s := s.used.used.used
    let need := (frags.map (fun f => f.data.length)).foldl (· + ·) 0
    if !s.mediaFits c need then s.answer r stLDG_NO_SPACE
    else if r.len < parts.length + 24 then s.answer r stHOST_ARGS
    else match s.sealOut c parts with
      | none => s.answer r stSEC_NO_KEYS
      | some (n, ct, tag, s) =>
        let d := s.ctxData c
        let s := s.setData c { d with ingest := Map.del d.ingest stream }
        let s := s.setMedia { s.media with frags := s.media.frags ++ frags }
        let s := frags.foldl (fun s f =>
          s.pushWb { stream := .frag f.tag f.stripe f.num, bytes := f.data.length, queue := none, tag := 0, cmd := none }) s
        (s.writeBuf r (sealedBytes n ct tag)).answer r stOK

/-- INGEST_CLOSE (R61). The INGEST_CLOSE opcode writes the parity fragments, encrypts and places the extents,
and returns the sealed manifest parts. -/
def execIngestClose (ctx : Fin 64) (sq : Fin 256) (stream : Nat) (s : State) : Step' :=
  act s (fun s => s.onReq ctx sq 0x19 (fun s r =>
    match Map.find (s.ctxData ctx).ingest stream with
    | none => s.answer r stHOST_ARGS
    | some g => s.closeIngest ctx stream g r))

end Sys2Proof.Machine
end

