-- ==== Sys2Proof/Machine/TxnOps.lean ====
section
/-!
DEFINITION. Configuration transactions (R438 to R441): what images a context needs, binding and placing an image (R151, R153,
R180), what a commit checks (R232, R234, R244, R322, R352), and how items apply.
-/
namespace Sys2Proof.Machine

/-! ## Binding and placing an image -/

/-- The bank a digest binds to: READY, in a slot of the context, the lowest slot, then bank. -/
def State.bankFor (s : State) (c : Nat) (digest : Bytes) : Option Nat :=
  (List.range 16).find? (fun k =>
    s.fld (fVOC_SLOTn_ASSIGNED (k / 2)) == 1 && s.fld (fVOC_SLOTn_CONTEXT (k / 2)) == c
      && s.fld (fBankState (k / 2) (k % 2)) == vbREADY && ((Map.find s.vocs k).map (·.digest)) == some digest)

def State.bankWidth (s : State) (k : Nat) : Nat := ((Map.find s.vocs k).map (fun b => fieldAt b.image 6 1)).getD 0

/-- R153; none: VOC_BIND. -/
def State.bindImage (s : State) (c : Nat) (i : ImageRec) : Option (List Nat) :=
  match allSome (i.vocabs.map (s.bankFor c)) with
  | none => none
  | some ks =>
    if !i.tensorRow ∧ ((ks.map s.bankWidth).eraseDups).length > 1 then none else some ks

def CtxData.regionInUse (d : CtxData) (needed : List Nat) (r : Nat) : Bool :=
  needed.any (fun i => Map.find d.imageRegion i == some r)

/-- R180: the region for an image's MXU settings block, and the regions after; none: MODEL_REGION_BUSY. -/
def CtxData.placeModel (d : CtxData) (needed : List Nat) (block : Bytes) : Option (Nat × Map Bytes) :=
  match [0, 1].find? (fun r => d.regionInUse needed r && Map.getD d.regions r [] == block) with
  | some r => some (r, d.regions)
  | none => match [0, 1].find? (fun r => !d.regionInUse needed r) with
    | some r => some (r, Map.put d.regions r block)
    | none => none

/-- What R98 asks of the firmware, the run's profiles and the units present; none: the image passes.
(DEDUCED, log entry 28.) -/
def State.imageStatus (s : State) (c : Nat) (i : ImageRec) : Option Status :=
  let clock := bitOf i.profiles (s.fld fCLK_STATUS_PROFILE)
  let profiles := match s.runOf c with
    | some r => clock && bitOf i.profiles (4 + r.cfg.power)
    | none => true
  if s.fld fGLB_FW_COMPAT_LEVEL < i.compat ∨ !profiles then some stIMG_COMPAT
  else if callsEngine i 0x15 && !s.hw.variant.hasVdc then some stUNIT_ABSENT
  else none

/-- Entries of the vocabulary in a bank. -/
def State.bankEntries (s : State) (k : Nat) : Nat := ((Map.find s.vocs k).map (fun b => fieldAt b.image 8 4)).getD 0

/-- An image and its banks fit the pack settings of a run (R192). -/
def State.fitsPack (s : State) (p : PackCfg) (i : ImageRec) (ks : List Nat) : Bool :=
  i.tensorRow == (p.layout == 2) && (p.layout == 2 || ks.all (fun k => p.padId < s.bankEntries k))

/-- R347: during a replay an input at or before the last imported step must be the one the imported log names. -/
def State.replayRefuses (s : State) (c e kind : Nat) (body : Bytes) : Bool :=
  match s.runOf c with
  | none => false
  | some r =>
    let last := (r.imported.map (·.eff)).foldl max 0
    r.cfg.replay && e ≤ last && !((kind == 2 || kind == 3) && r.imported.any (fun x => x.kind == kind && x.eff == e && x.body == body))

/-- An input joins the set of its step, with Logbook space for its record (R341, R342). -/
def State.acceptInput (s : State) (c : Nat) (rec : LogRec) : Except Status State :=
  let d := s.ctxData c
  if s.replayRefuses c rec.eff rec.kind rec.body then .error stREPRO_MISMATCH
  else if !d.logRoom rec.body.length then .error stLOG_FULL
  else .ok (s.setData c { d with logSet := d.logSet ++ [rec] })

/-- A content item at commit: the item as it will apply, and the state that holds what it needs. -/
def State.admitItem (s : State) (c e num : Nat) (item : TxnItem) : Except Status (TxnItem × State) :=
  match item with
  | .image b => match parseImage b with
    | .error st => .error st
    | .ok i => match s.imageStatus c i with
      | some st => .error st
      | none => match s.bindImage c i with
        | none => .error stVOC_BIND
        | some ks =>
          if !(((s.runOf c).map (fun r => s.fitsPack r.cfg.pack i ks)).getD true) then .error stPACK_CONFIG else
          let d := s.ctxData c
          let n := s.work.images.length
          let placed := if i.models.isEmpty then some (none, d.regions)
            else (d.placeModel (s.neededImages c) i.models).map (fun p => (some p.1, p.2))
          match placed with
          | none => .error stMODEL_REGION_BUSY
          | some (region, regions) =>
            let d := { d with
              binds := Map.put d.binds n ks
              regions := regions
              imageRegion := match region with | some r => Map.put d.imageRegion n r | none => d.imageRegion }
            let t := { s with work := { s.work with images := Map.put s.work.images n i } }.setData c d
            if e = 0 then .ok (.placed n, t)
            else match t.acceptInput c { kind := 3, eff := e, key := num, body := i.digest } with
              | .error st => .error st
              | .ok t => .ok (.placed n, t)
  | .table b => match s.acceptInput c { kind := 4, eff := e, key := num, body := b } with
    | .error st => .error st
    | .ok t => .ok (.table b, t)
  | other => .ok (other, s)

/-- Every item of a transaction, in order; each image admitted counts as pending for the next. -/
def State.admitItems (s : State) (c e num : Nat) : List TxnItem → List TxnItem → Except Status (List TxnItem × State)
  | [], done => .ok (done.reverse, s)
  | i :: is, done => match s.admitItem c e num i with
    | .error st => .error st
    | .ok (x, t) => State.admitItems t c e num is (x :: done)

/-! ## Registers, shares and shapers -/

/-- Writes an RWT register's fields under a mask. -/
def State.applyReg (s : State) (a mask v : Nat) : State :=
  match regAt a with
  | some r => s.putReg a (writtenBy (r.fields.map (fun f => { f with acc := if f.acc = .rwt then .rw else f.acc })) (s.reg a) v mask)
  | none => s

/-- Shaper entries that follow a share record (Table 9.4): port, class, context, RATE, BURST. -/
def shaperEntries (b : Bytes) : List (Nat × Nat × Nat × Nat × Nat) :=
  (List.range ((b.length - 64) / 8)).map (fun i =>
    let x := b.drop (64 + 8 * i)
    (fieldAt x 0 1, fieldAt x 1 1, fieldAt x 2 1, fieldAt x 4 2, fieldAt x 6 2))

def State.applyShare (s : State) (b : Bytes) : State :=
  let c := fieldAt b 0 1
  let s := (((s.putReg (aCTX_SHARE0 c) (fieldAt b 0 8)).putReg (aCTX_SHARE1 c) (fieldAt b 8 8)).putReg (aCTX_SHARE2 c)
    (fieldAt b 16 7)).putReg (aCTX_SHARE3 c) (fieldAt b 24 4)
  let cfg := (shaperEntries b).foldl (fun m e =>
    Map.put m (shaperKey e.1 0 e.2.1 e.2.2.1) { rate := e.2.2.2.1, burst := e.2.2.2.2 }) s.net.shaperCfg
  { s with net := { s.net with shaperCfg := cfg } }

def State.applyDevice (s : State) (item : TxnItem) : State :=
  match item with
  | .regWrite a m v => s.applyReg a m v
  | .share b => s.applyShare b
  | _ => s

/-- Ascending (E, NUM) (R441). -/
def insertTxn (t : Txn) : List Txn → List Txn
  | [] => [t]
  | x :: xs => if t.eff < x.eff ∨ (t.eff = x.eff ∧ t.num ≤ x.num) then t :: x :: xs else x :: insertTxn t xs

def sortTxns (ts : List Txn) : List Txn := ts.foldr insertTxn []

/-- The device's settings as they will stand at E with this transaction (R439). -/
def State.atStep (s : State) (t : Txn) (e : Nat) : State :=
  let before := sortTxns ((s.txnsOf 0).filter (fun x => x.state != .open_ && x.eff ≤ e))
  let p := before.foldl (fun p x => x.items.foldl State.applyDevice p) s
  t.items.foldl State.applyDevice p

/-! ### Gate plan (R232) -/

/-- Two intervals [a, a + n) and [b, b + m) of a step overlap. -/
def spansMeet (a n b m : Nat) : Bool := a < b + m && b < a + n

def State.gateEntriesOk (p : State) : Bool :=
  let es := (List.range 32).filterMap (fun n => (p.gateEntry n).map (fun e => (n, e)))
  es.all (fun x =>
    let e := x.2
    (e.cls == 1 || e.cls == 2 || e.cls == 3 || e.cls == 5) && e.len != 0 && e.start + e.len ≤ 60000000
      && e.ports < 2 ^ p.hw.variant.ports
      && es.all (fun y => x.1 == y.1 || e.ports &&& y.2.ports == 0 || !spansMeet e.start e.len y.2.start y.2.len))

/-! ### Shapers (R234) -/

def State.shapersOk (p : State) (t : Txn) : Bool :=
  let entries := t.items.flatMap (fun i => match i with | .share b => shaperEntries b | _ => [])
  let sum := fun port cls =>
    ((p.net.shaperCfg.filter (fun e => e.1 / 2048 == port && e.1 / 64 % 8 == cls)).map (·.2.rate)).foldl (· + ·) 0
  entries.all (fun e =>
      p.portPresent e.1 && (e.2.1 == 1 || e.2.1 == 2 || e.2.1 == 3 || e.2.1 == 5) && e.2.2.1 < 64 && 1 ≤ e.2.2.2.1
        && 1 ≤ e.2.2.2.2 && e.2.2.2.2 ≤ 1024)
    && (List.range 32).all (fun port => [1, 2, 3, 5].all (fun cls =>
        sum port cls ≤ 256 * (p.portRate port * 1000 / 34816)))

/-! ### Ports (R244, Tables 10.10 and 10.11) -/

def State.portsOk (s p : State) (t : Txn) : Bool :=
  let named := t.items.all (fun i => match i with
    | .regWrite a _ _ => !(0x200000 ≤ a && a < 0x280000) || (a - 0x200000) / 0x4000 < s.hw.variant.ports
    | _ => true)
  named
    && (List.range s.hw.variant.ports).all (fun n =>
        p.fld (fNET_PORT_CFG_VID n) ≤ 4094 && p.fld (fNET_PORT_CFG_REPLAY_LOG2 n) ≤ 30 && p.fld (fNET_PORT_CFG_MODE n) ≤ 2
          && (p.fld (fNET_PORT_CFG_MODE n) == s.fld (fNET_PORT_CFG_MODE n) || s.net.qps.all (fun e => e.2.port != n)))
    && (List.range 8).all (fun i => bitsOf (p.reg aNET_TC_PCP) (4 * i) 4 < 8 && bitsOf (p.reg aNET_TC_DSCP) (8 * i) 8 < 64)

/-! ### Bookings and caps (R322, R324) -/

/-- The control bookings lie in range, and no cap lies below its booking. -/
def State.capsOk (p : State) : Bool :=
  16 ≤ p.fld fINK_CTRL_BOOK_EGRESS && 16 ≤ p.fld fINK_CTRL_BOOK_INGRESS
    && (List.range 64).all (fun c => [0, 1, 2].all (fun cls => p.bookOf c cls ≤ p.capOf c cls))

/-- Bookings fit the pools, and a raised booking's unfilled part fits what is free beyond the others' bookings.
(DEDUCED, log entry 72.) -/
def State.bookingsOk (s p : State) : Bool :=
  [0, 1, 2].all (fun cls =>
    ((List.range 64).map (fun c => p.bookOf c cls)).foldl (· + ·) 0 + p.ctrlBook cls ≤ poolSize cls
      && (List.range 64).all (fun c => p.bookOf c cls ≤ s.bookOf c cls
          || p.bookOf c cls - s.useOf c cls + p.heldFor c cls ≤ s.freeCount cls + (s.pool cls).scrub.length))

/-! ### Shares (R352, Table 15.4) -/

/-- Fields of a share record in range; U in GB. -/
def shareRangesOk (b : Bytes) (user : Nat) : Bool :=
  let f := fieldAt b
  f 0 1 < 64 && f 1 1 ≤ 32 && f 2 1 ≤ 96 && f 3 1 ≤ 64 && f 4 2 ≤ 16384 && f 8 4 ≤ 65536 && f 12 2 ≤ 256
    && ((10 ≤ f 14 2 && f 14 2 ≤ 1000) || (f 0 1 == 0 && f 14 2 == 0)) && f 16 2 ≤ 16383 && f 18 2 ≤ 16384
    && f 20 1 ≤ 90 && f 21 1 ≤ 90 && f 22 1 ≤ 100 && f 24 4 ≤ user

/-- A field of every context's share, summed. -/
def shareSum (f : Nat → Nat) : Nat := ((List.range 64).map f).foldl (· + ·) 0

/-- Queue pairs, task slots that serve the device itself. -/
def State.deviceQps (s : State) : Nat := (s.net.qps.filter (fun e => e.2.serves)).length
def State.deviceSlots (s : State) : Nat := ((s.ledger.filter (fun e => e.2.recovery)).map (·.2.count)).foldl (· + ·) 0

def State.sharesOk (s p : State) (t : Txn) : Bool :=
  let user := if s.hw.variant.hasMedia then userGB (s.diesPerChannel * s.hw.variant.channels) else 0
  let recs := t.items.filterMap (fun i => match i with | .share b => some b | _ => none)
  let live := (List.range s.hw.variant.tiles).filter (fun n => s.tileState n != tsFENCED)
  let byte := fun (r : Nat → Nat) (lo w : Nat) (c : Nat) => bitsOf (p.reg (r c)) lo w
  recs.all (fun b => shareRangesOk b user)
    && 4 ≤ p.shareVectors 0
    && shareSum p.shareVectors ≤ 2048 && shareSum p.shareTiles ≤ live.length
    && shareSum (byte aCTX_SHARE0 24 8) ≤ (if s.hw.variant.hasVdc then 64 else 0)
    && shareSum p.shareQps + s.deviceQps ≤ 16384 && shareSum p.shareWindows ≤ 65536
    && shareSum p.sharePegs ≤ 65536 && shareSum p.shareDbars ≤ 1024
    && shareSum p.slotCount + s.deviceSlots ≤ 16384
    && shareSum (byte aCTX_SHARE2 32 8) ≤ 90 && shareSum p.mediaWrPct ≤ 90 && shareSum (byte aCTX_SHARE2 48 8) ≤ 100
    && shareSum (fun c => p.fld (fCTX_SHARE3_MEDIA_GB c)) ≤ user
    && (List.range 64).all (fun c =>
        p.slotBase c + p.slotCount c ≤ 16384
          && (List.range c).all (fun d =>
              p.slotCount c == 0 || p.slotCount d == 0 || !spansMeet (p.slotBase c) (p.slotCount c) (p.slotBase d) (p.slotCount d))
          && s.ledger.all (fun e => e.2.ctx != c || e.2.recovery
              || (p.slotBase c ≤ e.2.base && e.2.base + e.2.count ≤ p.slotBase c + p.slotCount c)))

/-! ### Ranges of other RWT fields, for which the spec names no status -/

def inRange (lo x hi : Nat) : Bool := lo ≤ x && x ≤ hi

def State.rangesOk (p : State) : Bool :=
  inRange 1 (p.fld fSTEP_CFG_BEACON_TOL) 10000 && inRange 50 (p.fld fSTEP_CFG_GRACE) 30000
    && p.fld fSTEP_CFG_EXTRAP_MAX ≤ 8 && p.fld fSTEP_CFG_LATE_LIMIT ≤ 3 && inRange 2 (p.fld fSTEP_CFG_ACQ_BEACONS) 9
    && inRange 1 (p.fld fSTEP_TIME_CFG_U_MAX) 1000 && inRange 1 (p.fld fSTEP_TIME_CFG_U_WARN) (p.fld fSTEP_TIME_CFG_U_MAX)
    && (p.fld fLDG_PS_CFG_IDLE2_MS == 0 || 10 ≤ p.fld fLDG_PS_CFG_IDLE2_MS)
    && (p.fld fLDG_PS_CFG_IDLE1_US == 0 || inRange 10 (p.fld fLDG_PS_CFG_IDLE1_US) 10000000)
    && (!p.hw.variant.hasMedia || (inRange 10 (p.fld fMED_CFG_READ_LIMIT_K) 1000 && inRange 1 (p.fld fMED_CFG_RETENTION_DAYS) 30
        && inRange 5 (p.fld fMED_CFG_REBUILD_PCT) 100 && inRange 50 (p.fld fMED_CFG_WEAR_WARN_PCT) 100
        && inRange 5 (p.fld fMED_CFG_SPARE_WARN_PCT) 90))
    && 1 ≤ p.fld fNET_RC_CFG0_BETA_Q8 && 1 ≤ p.fld fNET_RC_CFG0_AI_MBPS && inRange 1000 (p.fld fNET_RC_CFG0_TARGET_NS) 1000000
    && p.fld fNET_RC_CFG1_ACK_LOG2 ≤ 6 && inRange 100 (p.fld fNET_RC_CFG1_MIN_MBPS) 100000
    && inRange (p.fld fNET_RC_CFG1_MIN_MBPS) (p.fld fNET_RC_CFG1_START_MBPS) 800000
    && inRange 100 (p.fld fNET_LAN_CFG_HANG_MS) 60000
    && 1 ≤ p.fld fPWR_CFG_TACH_PPL && inRange 1200 (p.fld fPWR_CFG_BUDGET_W) 2500
    && p.fld fCLK_QPS_CFG_IDLE1_US != 1 && inRange 1 (p.fld fCLK_PPS_CFG_OUT_WIDTH_MS) 900

/-- The first check that the device's settings fail, for a transaction of CTX0.
(DEDUCED, log entry 72.) -/
def State.deviceStatus (s p : State) (t : Txn) : Option Status :=
  firstErr [(!p.gateEntriesOk, stGATE_PLAN), (!p.shapersOk t, stSHAPER_CONFIG), (!s.portsOk p t, stNET_PORT_CONFIG),
    (!p.capsOk, stINK_ARGS), (!s.bookingsOk p, stINK_BOOK_SHORT), (!s.sharesOk p t, stCTX_SHARE),
    (!p.rangesOk, BitVec.ofNat 16 (s.free 16))]

/-! ## Application (R241, Table 19.16) -/

/-- Items that apply from T(E); the others apply at the changeover of E. (DEDUCED, log entry 72.) -/
def TxnItem.atStart : TxnItem → Bool
  | .regWrite a _ _ => (0x130000 ≤ a && a < 0x140000) || (0x100000 ≤ a && a < 0x110000) || (0x200000 ≤ a && a < 0x280000)
  | .share _ => true
  | _ => false

/-- Decision-table entries of a THRESHOLD body: model × 16 + score, and the entry. -/
def tableEntries (b : Bytes) : List (Nat × Decision) :=
  (List.range (b.length / 8)).map (fun i =>
    let x := b.drop (8 * i)
    (fieldAt x 0 1 * 16 + fieldAt x 1 1, { threshold := toSigned 32 (fieldAt x 4 4), mode := fieldAt x 2 1 }))

/-- A FREE context whose share takes effect or is committed is DEFINED (Table 15.1).
(DEDUCED, log entry 72.) -/
def State.defineContext (s : State) (item : TxnItem) : State :=
  match item with
  | .share b => if s.ctxState (fieldAt b 0 1) = csFREE then s.setCtxState (fieldAt b 0 1) csDEFINED else s
  | _ => s

/-- Applies an item of a context's transaction at step e (0: before any run). -/
def State.applyItem (s : State) (c e : Nat) (item : TxnItem) : State :=
  let d := s.ctxData c
  match item with
  | .placed n => s.setData c { d with images := if e = 0 then [(0, n)] else d.images ++ [(e, n)] }
  | .table b => s.setData c { d with
      tables := d.tables ++ (tableEntries b).map (fun x => { step := e, entry := x.1, value := x.2 }) }
  | item => ((s.applyDevice item).defineContext item).showVectors

/-- Whether an item of a fixed transaction applies now. (DEDUCED, log entry 72.) -/
def State.itemDue (s : State) (c e : Nat) (item : TxnItem) : Bool :=
  if e = 0 then (s.runOf c).isNone
  else if item.atStart then
    match s.startOf e with
    | some t => t ≤ s.dtime
    | none => e ≤ s.lastStep
  else e ≤ s.lastStep + s.leadOf c

/-- Applies every item due of a context's fixed transactions, in ascending (E, NUM); one with no item left is APPLIED.
(DEDUCED, log entry 72.) -/
def State.applyTxns (s : State) (c : Nat) : State :=
  let ts := sortTxns (s.txnsOf c)
  let s := ts.foldl (fun s t =>
    if t.state != .fixed then s
    else (t.items.filter (s.itemDue c t.eff)).foldl (fun s i => s.applyItem c t.eff i) s) s
  s.setTxns c (ts.filterMap (fun t =>
    if t.state != .fixed then some t
    else
      let left := t.items.filter (fun i => !s.itemDue c t.eff i)
      if left.isEmpty ∧ t.eff ≤ s.lastStep + s.leadOf c then none else some { t with items := left }))

end Sys2Proof.Machine
end

