-- ==== Sys2Proof/Machine/Runs.lean ====
section
/-!
DEFINITION. Seating and ending a run (R62, R192, R210, R327, R340, R437), replay (R346, R347), the Logbook opcodes (R343 to
R345, R443) and the load split's configuration (R103).
-/
namespace Sys2Proof.Machine

/-! ## Imported frames (R346) -/

/-- A record of an imported frame: its frame's and header's SEQUENCE, PREV_DIGEST, bytes and content. -/
structure Imported where
  frameSeq : Nat
  seq : Nat
  prev : Bytes
  bytes : Bytes
  content : LogRec
  deriving DecidableEq, Repr

/-- Splits frames that stand back to back; none: a frame is malformed. (DEDUCED, log entry 81.) -/
def splitFrames : Nat → Bytes → Option (List Bytes)
  | 0, b => if b.isEmpty then some [] else none
  | fuel + 1, b =>
    let n := 32 + fieldAt b 24 4 + 16
    if b.isEmpty then some []
    else if b.length < n ∨ fieldAt b 24 4 < 128 then none
    else (splitFrames fuel (b.drop n)).map (b.take n :: ·)

/-- Opens a frame of a run; none: LOG_AUTH. -/
def openFrame (key : Bytes) (runId : Nat) (b : Bytes) : Option Imported :=
  let n := fieldAt b 24 4
  if fieldAt b 0 4 ≠ 0x464C464F ∨ fieldAt b 4 2 ≠ 1 ∨ fieldAt b 8 8 ≠ runId then none
  else (gcmOpen key (slice b 16 8 ++ zeros 4) (b.take 32) (slice b 32 n) (slice b (32 + n) 16)).map (fun p =>
    { frameSeq := fieldAt b 16 8, seq := fieldAt p 8 8, prev := slice p 48 48, bytes := p,
      content := { kind := fieldAt p 6 1, eff := fieldAt p 16 8, key := fieldAt p 24 8, body := p.drop 128 } })

/-- SEQUENCE runs from n without gaps and every PREV_DIGEST matches. -/
def chainOk : List Imported → Nat → Bytes → Bool
  | [], _, _ => true
  | x :: xs, n, prev => x.frameSeq == n && x.seq == n && x.prev == prev && chainOk xs (n + 1) (sha384 x.bytes)

/-- The RUN_START body as modified by the records of kinds 2 and 3 up to a step. -/
def bodyAt (start : Bytes) (recs : List LogRec) (step : Nat) : Bytes :=
  (recs.filter (fun r => r.eff ≤ step)).foldl (fun b r =>
    if r.kind = 2 then putAt (putAt b 72 (slice r.body 16 48)) 120 (r.body.take 4)
    else if r.kind = 3 then putAt b 24 (r.body.take 48)
    else b) start

/-- Items 1 to 9 of Table 14.1 in a RUN_START body. -/
def startItems (b : Bytes) : List Bytes :=
  [slice b 24 48, slice b 128 16, slice b 0 8, slice b 72 52, slice b 144 2 ++ slice b 152 48, slice b 200 32, slice b 124 2,
   slice b 126 1, slice b 127 1]

/-- The first unequal item. -/
def unequalItem (a b : Bytes) : Option Nat :=
  ((List.range 9).find? (fun i => (startItems a).getD i [] != (startItems b).getD i [])).map (· + 1)

/-- R346, in its order: the imported records, or a status with the item of RESULT0.
(DEDUCED, log entry 81.) -/
def checkReplay (trk frames own : Bytes) (replayFrom : Nat) : Except (Status × Nat) (List LogRec) :=
  let runId := fieldAt frames 8 8
  match splitFrames (frames.length + 1) frames with
  | none => .error (stLOG_AUTH, 0)
  | some fs => match allSome (fs.map (openFrame (kRun trk runId) runId)) with
    | none => .error (stLOG_AUTH, 0)
    | some xs =>
      let recs := xs.map (·.content)
      if !chainOk xs 0 (zeros 48) then .error (stLOG_CHAIN, 0)
      else match recs with
        | [] => .error (stLOG_CHAIN, 0)
        | start :: _ =>
          if start.kind ≠ 1 ∨ start.body.length ≠ 256 then .error (stLOG_CHAIN, 0)
          else match unequalItem (bodyAt start.body recs replayFrom) own with
            | some n => .error (stREPRO_MISMATCH, n)
            | none => .ok recs

/-! ## What a configuration finds -/

/-- The image in effect at a step, with what fixed or pending transactions make effective by then. -/
def State.imageAt (s : State) (c step : Nat) : Option Nat :=
  let later := (sortTxns ((s.txnsOf c).filter (fun t => !(t.state == .open_)))).flatMap (fun t =>
    t.items.filterMap (fun i => (i.placedImage).map (fun n => (t.eff, n))))
  inEffect ((s.ctxData c).images ++ later) step

/-- R55 and R57 as far as a run decides them. (DESIGN CHOICE, log entry 55.) -/
def State.manifestFits (s : State) (cfg : RunCfg) (m : ManifestRec) : Option Status :=
  let self := m.ranks.contains s.self
  if !m.ranks.all cfg.ranks.contains ∨ (self ∧ !s.hw.variant.hasMedia) then some stMAN_PLACEMENT
  else if cfg.pack.batch = 0 ∨ m.total < cfg.pack.batch then some stRUN_GEOMETRY
  else none

/-- Pegs of the exchange range. -/
def RunCfg.pegs (cfg : RunCfg) : List Nat := (List.range ((cfg.pack.lead + 1) * cfg.gMax)).map (cfg.pegBase + ·)

/-- Queue pairs that count against the share: TC1 to each peer, one for each consumer this device owns groups of. -/
def RunCfg.pairsNeeded (cfg : RunCfg) (self : Nat) : Nat :=
  let owned := cfg.consumers.filter (fun k => (List.range cfg.pack.owners).any (fun j => cfg.ownerAt k.num j == self))
  (cfg.ranks.filter (· != self)).length + owned.length

/-- The first check a configuration fails, given the image in effect and its banks; the statuses for a run without an image
or with too little media for its Logbook are not the spec's, and free.
(DEDUCED, log entry 82.) (DESIGN CHOICE, log entry 96.) -/
def State.runStatus (s : State) (c : Nat) (cfg : RunCfg) (at_ : Nat) : Option Status :=
  let d := s.ctxData c
  let p := cfg.pack
  let open_ := BitVec.ofNat 16 (s.free 16)
  match d.manifestAt at_, s.imageAt c at_ with
  | none, _ => some stRUN_GEOMETRY
  | _, none => some open_
  | some m, some n => match s.imageRec n with
    | none => some open_
    | some i =>
      let ks := Map.getD d.binds n []
      let w := s.bankWidth (ks.headD 16)
      firstErr [(!packOk p cfg.ranks.length || !s.fitsPack p i ks, stPACK_CONFIG),
        (8192 < (p.lead + 1) * cfg.gMax, stPACK_GROUPS),
        (!bitOf i.profiles (s.fld fCLK_STATUS_PROFILE) || !bitOf i.profiles (4 + cfg.power), stIMG_COMPAT),
        (!consumersOk p w cfg.consumers, stCONS_FORMAT),
        ((s.manifestFits cfg m).isSome, (s.manifestFits cfg m).getD stOK),
        (cfg.pegs.any (fun v => 16384 ≤ v || (s.peg c v).isSome), stPEG_RANGE),
        (s.sharePegs c < (s.pegsOf c).length + cfg.pegs.length || 65536 < s.mappedPegs + cfg.pegs.length, stPEG_EXHAUSTED),
        (s.shareQps c < s.qpsOf c + cfg.pairsNeeded s.self || 16384 < s.net.qps.length + 2 * cfg.ranks.length, stNET_QP_EXHAUSTED),
        (s.shareWindows c ≤ s.windowsOf c, stNET_WINDOW_EXHAUSTED),
        (s.hw.variant.hasMedia && !s.mediaFits c logRegion, open_)]

/-! ## Seating -/

/-- The RUN_START body of a configuration on this device. (DEDUCED, log entry 81.) -/
def State.startBody (s : State) (c : Nat) (cfg : RunCfg) (at_ replayOf : Nat) (seed : Bytes) : Bytes :=
  let d := s.ctxData c
  let image := (((s.imageAt c at_).bind s.imageRec).map (·.digest)).getD (zeros 48)
  let m := d.manifestAt at_
  runStartBody cfg replayOf image ((m.map (·.digest)).getD (zeros 48)) ((m.map (·.version)).getD 0)
    (s.fld fGLB_FW_CONTENT_LEVEL) (s.fld fCLK_STATUS_PROFILE) seed

def RunRec.start (cfg : RunCfg) (self at_ : Nat) (imported : List LogRec) : RunRec :=
  let epochs := (imported.filter (fun r => r.kind == 7 && fieldAt r.body 8 8 ≤ at_ - cfg.firstStep)).map (fun r =>
    ({ num := fieldAt r.body 0 8, start := fieldAt r.body 8 8, count := fieldAt r.body 16 8, k := fieldAt r.body 24 1 } : Epoch))
  { cfg := cfg, epochs := epochs, carries := cfg.ranks.filter (· == self), carriers := [], nextPlan := at_, nextSet := at_,
    fetches := [], groups := [], rows := [], credits := [], landing := [], landingKey := 0, peerKeys := [], peers := [],
    peers0 := [], delivery := [], nextCommit := at_, reported := [], late := [], missed := [], restarts := 0, aborted := none,
    abortAt := 0, exempt := 0, imported := imported }

/-- Imported records of kinds 4 and 5 stand for their steps; those of steps before the replay's first are written again at
once (R347). (DEDUCED, log entry 81.) -/
def State.importRec (s : State) (c at_ : Nat) (x : LogRec) : State :=
  let d := s.ctxData c
  if x.kind ≠ 4 ∧ x.kind ≠ 5 then s
  else
    let d := if x.kind = 4 then { d with
        tables := d.tables ++ (tableEntries x.body).map (fun y => { step := x.eff, entry := y.1, value := y.2 }) }
      else { d with mixes := d.mixes ++ [{ seq := x.key, step := x.eff, entries := mixEntries x.body, raw := x.body }] }
    if x.eff < at_ then (s.setData c d).writeRec c x else s.setData c { d with logSet := d.logSet ++ [x] }

/-- Seats a run that has passed its checks: content that waits for a run applies, its Logbook opens with RUN_START, its pegs,
windows and queue pairs open. -/
def State.seatRun (s : State) (c : Nat) (cfg : RunCfg) (at_ replayOf : Nat) (seed : Bytes) (imported : List LogRec) : State :=
  let body := s.startBody c cfg at_ replayOf seed
  let s := s.applyTxns c
  let d := s.ctxData c
  let s := s.setData c { d with
    minRunId := cfg.runId + 1
    logSet := d.logSet.filter (fun x => at_ < x.eff || x.kind == 4)
    logs := Map.put d.logs cfg.runId (Logbook.new cfg.runId)
    run := some (RunRec.start cfg s.self at_ imported) }
  let s := s.openLog c cfg.runId
  let s := s.writeRec c { kind := 1, eff := cfg.firstStep, key := 0, body := body }
  let s := imported.foldl (fun s x => s.importRec c at_ x) s
  let s := cfg.pegs.foldl (fun s v => s.used.setPegs c (Map.put (s.pegsOf c) v { phys := s.freePhys, value := 0 })) s
  let s := match s.openWindow c 0 .landing (2 ^ 64) true false with
    | .ok (key, t) => t.mapRun c (fun r => { r with landingKey := key })
    | .error _ => s
  let s := (s.openPeers c).openConsumers c
  s.setLan { s.lan with journal := Map.put s.lan.journal c (JEntry.new cfg.runId at_ 0), dirty := true }

/-- Every queue pair of a run lies on a subport with MACsec enabled (R248).
(DEDUCED, log entry 82.) -/
def State.runSecure (s : State) (c : Nat) : Bool :=
  s.net.qps.all (fun e => e.2.ctx != c || e.2.kind == .client || s.fld (fNET_PORT_CFG_MACSEC_EN e.2.port) == 1)

/-- A run configuration: refused with a status and RESULT0, or seated. -/
def State.configRun (s : State) (c : Nat) (plain : Bytes) : Except (Status × Nat) State :=
  let d := s.ctxData c
  match parseRunCfg plain, s.rootKey c with
  | .error st, _ => .error (st, 0)
  | _, none => .error (stSEC_NO_KEYS, 0)
  | .ok cfg, some trk =>
    let at_ := if cfg.replay then cfg.replayFrom else cfg.firstStep
    if cfg.runId < d.minRunId then .error (stLOG_ARGS, 0)
    else match d.seed with
      | none => .error (BitVec.ofNat 16 (s.free 16), 0)
      | some seed => match s.runStatus c cfg at_ with
        | some st => .error (st, 0)
        | none =>
          let src := if cfg.replay then fieldAt cfg.frames 8 8 else 0
          let imported := if cfg.replay then checkReplay trk cfg.frames (s.startBody c cfg at_ src seed) at_ else .ok []
          match imported with
          | .error x => .error x
          | .ok recs =>
            let t := s.seatRun c cfg at_ src seed recs
            if !t.runSecure c then .error (stNET_INSECURE, 0) else .ok t

/-- RESULT0 of a refused replay is the item; the other results of a refusal, and those of a seated run, are free. -/
def execRunConfig (ctx : Fin 64) (sq : Fin 256) (engine : Fin 65536) (buf : Bytes) (s : State) : Step' :=
  act s (fun s => s.onReq ctx sq 0x10 (fun s r =>
    if (s.runOf ctx).isSome then s.answer r stCTX_STATE
    else s.withBlob ctx engine [9] r buf stSEC_BLOB_AUTH (fun s plain =>
      match s.configRun ctx plain with
      | .error (st, n) =>
        let s := s.used
        if st = stREPRO_MISMATCH then s.finish r st n (s.free 32) else s.answer r st
      | .ok t => (t.answer r stOK).planReady ctx 16)))

/-! ## Ending -/

/-- Frees everything a run holds on this device. (DEDUCED, log entry 82.) -/
def State.unseatRun (s : State) (c : Nat) (r : RunRec) : State :=
  let s := s.discardLeg c
  let mine := (s.net.qps.filter (fun e => e.2.ctx == c && e.2.kind != .client)).map (·.1)
  let s := mine.foldl State.destroyQp s
  let landing := (s.net.windows.filter (fun e => e.2.ctx == c && e.2.isOpen && e.2.kind == .landing)).map (·.1)
  let s := landing.foldl State.revoke s
  let s := r.cfg.pegs.foldl (fun s v => s.setPegs c (Map.del (s.pegsOf c) v)) s
  let d := s.ctxData c
  let s := s.setData c { d with run := none, tables := [], mixes := [], mixing := [], logSet := [] }
  s.setLan { s.lan with journal := Map.del s.lan.journal c, dirty := true }

/-- RUN_END (R340). The RUN_END opcode unseats the run and writes its RUN_END record.
(DEDUCED, log entry 82.) -/
def execRunEnd (ctx : Fin 64) (sq : Fin 256) (s : State) : Step' :=
  act s (fun s => s.onReq ctx sq 0x11 (fun s r =>
    match s.runOf ctx with
    | none => s.answer r stCTX_STATE
    | some run =>
      let last := run.nextCommit - 1
      let s := s.writeRec ctx { kind := 9, eff := last, key := 0, body := toLE 8 last }
      (s.unseatRun ctx run).answer r stOK))

/-! ## Logbook opcodes -/

/-- The frames of one run from a first to a last SEQUENCE. -/
def execLogExport (ctx : Fin 64) (sq : Fin 256) (runId first last : Nat) (s : State) : Step' :=
  act s (fun s => s.onReq ctx sq 0x12 (fun s r =>
    match Map.find (s.ctxData ctx).logs runId with
    | none => s.answer r stLOG_ARGS
    | some l =>
      let out := ((l.frames.drop first).take (last + 1 - first)).flatten
      if last < first ∨ l.frames.length ≤ last then s.answer r stLOG_ARGS
      else if r.len < out.length then s.answer r stHOST_ARGS
      else (s.writeBuf r out).answer r stOK))

/-- LOG_DELETE (R344). The LOG_DELETE opcode deletes a run's Logbook unless the run is seated. -/
def execLogDelete (ctx : Fin 64) (sq : Fin 256) (runId : Nat) (s : State) : Step' :=
  act s (fun s => s.onReq ctx sq 0x13 (fun s r =>
    let d := s.ctxData ctx
    if !Map.has d.logs runId ∨ (s.runWithId ctx runId).isSome then s.answer r stLOG_ARGS
    else
      let s := s.dropStreams (fun st => match st with | .log c n _ => c == ctx.val && n == runId | _ => false)
      (s.setData ctx { d with logs := Map.del d.logs runId }).answer r stOK))

/-- The digest of the seated run's latest record, sealed; without a run the spec names no status.
(DESIGN CHOICE, log entry 96.) -/
def execLogDigest (ctx : Fin 64) (sq : Fin 256) (s : State) : Step' :=
  act s (fun s => s.onReq ctx sq 0x14 (fun s r =>
    match s.runOf ctx with
    | none => s.used.answer r (BitVec.ofNat 16 (s.free 16))
    | some run =>
      let digest := ((Map.find (s.ctxData ctx).logs run.cfg.runId).map (·.lastDigest)).getD (zeros 48)
      if r.len < 72 then s.answer r stHOST_ARGS
      else match s.sealOut ctx digest with
        | none => s.answer r stSEC_NO_KEYS
        | some (n, ct, tag, s) => (s.writeBuf r (sealedBytes n ct tag)).answer r stOK))

/-! ## The load split (R103) -/

/-- `level`: the emulation compatibility level the endpoint attests. The setting takes effect at the next step boundary.
(DEDUCED, log entry 82.) -/
def execSplitConfig (ctx : Fin 64) (sq : Fin 256) (qpn : Nat) (enable : Bool) (level : Nat) (s : State) : Step' :=
  act s (fun s => s.onReq ctx sq 0x07 (fun s r =>
    let mine : Bool := match s.findQpn qpn with
      | some (_, q) => q.ctx == ctx.val && q.kind == .client
      | none => false
    let need := (((s.targetImage ctx).bind s.imageRec).map (·.compat)).getD 0
    let sp := s.splitRec ctx
    if !enable then (s.setSplit ctx { sp with pendingOn := some false }).answer r stOK
    else if !mine then s.answer r stHOST_ARGS
    else if !Map.has s.sec.sessions ctx then s.answer r stSEC_NO_KEYS
    else if level < need then (s.setSplit ctx { sp with pendingOn := some false }).answer r stSPLIT_COMPAT
    else (s.setSplit ctx { sp with level := level, pendingOn := some true }).answer r stOK))

end Sys2Proof.Machine
end

