-- ==== Sys2Proof/Machine/Seats.lean ====
section
/-!
DEFINITION. The owner's opcodes that seat tiles (R101) and assign vocabulary slots (R149, R151), and what ends a vocabulary
load (R148, R150, Table 6.3).
-/
namespace Sys2Proof.Machine

/-! ## Tiles -/

/-- Tiles of a mask. -/
def tilesIn (mask : Nat) : List Nat := (List.range 96).filter (fun t => bitOf mask t)

/-- The quarters of a mask's tiles have their clocks (R452): a request waits for a quarter's wake.
(DEDUCED, log entry 74.) -/
def State.awake (s : State) (mask : Nat) : Bool :=
  (tilesIn mask).all (fun t => s.clockRuns (quarterOf t))

/-- Keeps a request at the front of its submission queue. (DEDUCED, log entry 74.) -/
def State.holdReq (s : State) (r : HostReq) : State := { s with host := { s.host with started := r :: s.host.started } }

/-- The check of R101 that a TILE_SEAT fails first. -/
def State.seatStatus (s : State) (c mask : Nat) : Option Status :=
  let ts := tilesIn mask
  firstErr [(!ts.all s.tilePresent, stUNIT_ABSENT), (ts.any (fun t => s.tileState t == tsFENCED), stTILE_FENCED),
    (ts.any (fun t => s.tileState t != tsUNSEATED), stTILE_SEAT_BUSY),
    (s.shareTiles c < (s.tilesOf c).length + ts.length, stCTX_SHARE_EXCEEDED)]

def State.seatTile (s : State) (c t : Nat) : State :=
  ((s.setTileState t tsSEATED).flag (fTILE_STATE_SEATED t)).setFld (fTILE_STATE_CONTEXT t) c

/-- A context in teardown is given nothing (R350). (DEDUCED, log entries 17, 74.) -/
def execTileSeat (sq : Fin 256) (ctx mask : Nat) (s : State) : Step' :=
  act s (fun s => s.onReq 0 sq 0x41 (fun s r =>
    if 64 ≤ ctx ∨ 2 ^ 96 ≤ mask then s.answer r stHOST_ARGS
    else if s.ctxState ctx = csTEARDOWN then s.answer r stCTX_STATE
    else match s.seatStatus ctx mask with
      | some st => s.answer r st
      | none => if !s.awake mask then s.holdReq r else ((tilesIn mask).foldl (fun s t => s.seatTile ctx t) s).answer r stOK))

/-- TILE_UNSEAT (R101). The TILE_UNSEAT opcode starts draining a mask of tiles seated to the named context, or
refuses the whole request. (DEDUCED, log entry 74.) -/
def execTileUnseat (sq : Fin 256) (ctx mask : Nat) (s : State) : Step' :=
  act s (fun s => s.onReq 0 sq 0x42 (fun s r =>
    let ts := tilesIn mask
    if 64 ≤ ctx ∨ 2 ^ 96 ≤ mask then s.answer r stHOST_ARGS
    else if !ts.all s.tilePresent then s.answer r stUNIT_ABSENT
    else if !ts.all (s.seatedTo ctx) then s.answer r stTILE_NOT_SEATED
    else if !s.awake mask then s.holdReq r
    else (ts.foldl State.unseatTile s).answer r stOK))

/-! ## Vocabulary slots -/

def execVocAssign (sq : Fin 256) (slot ctx : Nat) (s : State) : Step' :=
  act s (fun s => s.onReq 0 sq 0x43 (fun s r =>
    if 8 ≤ slot ∨ 64 ≤ ctx then s.answer r stHOST_ARGS
    else if s.ctxState ctx = csTEARDOWN then s.answer r stCTX_STATE
    else if s.fld (fVOC_SLOTn_ASSIGNED slot) = 1 then s.answer r stVOC_SLOT_BUSY
    else ((s.flag (fVOC_SLOTn_ASSIGNED slot)).setFld (fVOC_SLOTn_CONTEXT slot) ctx).answer r stOK))

/-- A slot that is not assigned has nothing to zeroise. -/
def execVocUnassign (sq : Fin 256) (slot : Nat) (s : State) : Step' :=
  act s (fun s => s.onReq 0 sq 0x44 (fun s r =>
    let held := [0, 1].any (fun b => s.bankBound (bankNum slot b) || s.fld (fBankState slot b) == vbLOADING)
    if 8 ≤ slot then s.answer r stHOST_ARGS
    else if held then s.answer r stVOC_SLOT_BUSY
    else (s.unassignSlot slot).answer r stOK))

/-- The slot is assigned to the context. -/
def State.slotOf (s : State) (c slot : Nat) : Bool :=
  s.fld (fVOC_SLOTn_ASSIGNED slot) == 1 && s.fld (fVOC_SLOTn_CONTEXT slot) == c

/-- VOC_DISCARD (R150). The VOC_DISCARD opcode zeroises a bank that is not bound, or is refused with
VOC_SLOT_BUSY. -/
def execVocDiscard (ctx : Fin 64) (sq : Fin 256) (slot bank : Nat) (s : State) : Step' :=
  act s (fun s => s.onReq ctx sq 0x06 (fun s r =>
    let st := s.fld (fBankState slot bank)
    if 8 ≤ slot ∨ 2 ≤ bank then s.answer r stHOST_ARGS
    else if !s.slotOf ctx slot then s.answer r stVOC_SLOT_DENIED
    else if st = vbEMPTY then s.answer r stOK
    else if st = vbLOADING ∨ (st = vbREADY ∧ s.bankBound (bankNum slot bank)) then s.answer r stVOC_SLOT_BUSY
    else (s.emptyBank slot bank).answer r stOK))

/-- Starts a load into a slot's lower EMPTY bank. `plain` is none where the blob's tag failed: that is the load's outcome.
(DEDUCED, log entry 75.) -/
def State.startLoad (s : State) (c slot len : Nat) (plain : Option Bytes) (r : HostReq) : State :=
  if 8 ≤ slot then s.answer r stHOST_ARGS
  else if !s.slotOf c slot then s.answer r stVOC_SLOT_DENIED
  else match [0, 1].find? (fun b => s.fld (fBankState slot b) == vbEMPTY) with
    | none => s.answer r stVOC_SLOT_BUSY
    | some b =>
      let v : VocBank := { image := plain.getD [], digest := (plain.map sha384).getD [], loader := c }
      let s := (s.setFld (fBankState slot b) vbLOADING).setFld (fBankMib slot b) (ceilDiv len (2 ^ 20))
      ({ s with vocs := Map.put s.vocs (bankNum slot b) v }).await r (.bank (bankNum slot b))

/-- Completes a load's request, with the bank in RESULT0 (R150). -/
def State.endLoad (s : State) (slot bank : Nat) (st : Status) : State :=
  let w := WaitFor.bank (bankNum slot bank)
  let rs := s.host.waiting.filter (fun e => e.1 == w)
  let s := { s with host := { s.host with waiting := s.host.waiting.filter (fun e => e.1 != w) } }
  rs.foldl (fun s e => if st = stOK then s.used.finish e.2 st bank (s.free 32) else s.answer e.2 st) s

/-- The outcome of a load: VOC_AUTH, VOC_FORMAT or READY; `engine` opened the blob.
(DEDUCED, log entry 75.) -/
def execVocabLoadComplete (slot : Fin 8) (bank : Fin 2) (engine : Fin 65536) (s : State) : Step' :=
  act s (fun s =>
    match Map.find s.vocs (bankNum slot bank) with
    | none => s
    | some v =>
      if s.fld (fBankState slot bank) ≠ vbLOADING then s
      else if v.digest = [] then ((s.blobAuth v.loader engine stVOC_AUTH).emptyBank slot bank).endLoad slot bank stVOC_AUTH
      else if (parseVocab v.image).isNone then (s.emptyBank slot bank).endLoad slot bank stVOC_FORMAT
      else (s.setFld (fBankState slot bank) vbREADY).endLoad slot bank stOK)

/-- A READY bank fails: no tile keeps its pages, and its context faults. -/
def State.loseBank (s : State) (slot bank hbm channel : Nat) : State :=
  let k := bankNum slot bank
  let s := (s.setFld (fBankState slot bank) vbFAILED).setFld fVOC_STATUS_BANK_FAILED
    (putBits (s.fld fVOC_STATUS_BANK_FAILED) k 1 1)
  (s.dropCached k).raise (0x0014 + hbm) stVOC_FAILED channel (s.fld (fVOC_SLOTn_CONTEXT slot)) .f2

/-- An uncorrectable HBM error in a bank (Table 6.3). The F2's source is the bank's HBM controller.
(DEDUCED, log entry 75.) -/
def execVocabBankHbmError (slot : Fin 8) (bank : Fin 2) (hbm : Fin 8) (channel : Fin 65536) (s : State) : Step' :=
  act s (fun s =>
    let st := s.fld (fBankState slot bank)
    if st = vbLOADING then (s.emptyBank slot bank).endLoad slot bank stVOC_FAILED
    else if st = vbREADY then s.loseBank slot bank hbm channel
    else s)

end Sys2Proof.Machine
end

