-- ==== Sys2Proof/Machine/Txns.lean ====
section
/-!
DEFINITION. Commands of configuration transactions (R438 to R441) and the staged opcode SHARE (R352).
-/
namespace Sys2Proof.Machine

def Txn.isOpen (t : Txn) : Bool := t.state == .open_

def State.openTxn (s : State) (c : Nat) : Option Txn := (s.txnsOf c).find? Txn.isOpen

def State.dropOpen (s : State) (c : Nat) : State := s.setTxns c ((s.txnsOf c).filter (fun t => !t.isOpen))

/-- E and NUM stand in EFFECTIVE_STEP and ARGS bytes 0 to 3. -/
def execTxnBegin (ctx : Fin 64) (sq : Fin 256) (s : State) : Step' :=
  act s (fun s => s.onReq ctx sq 0x38 (fun s r =>
    let num := fieldAt r.args 0 4
    let above : Bool := match Map.find s.host.lastNum ctx with
      | some n => n < num
      | none => true
    if !allZero (r.args.drop 4) then s.answer r stHOST_ARGS
    else if (s.openTxn ctx).isSome ∨ !above then s.answer r stTXN_STATE
    else
      let t : Txn := { num := num, eff := r.effStep, state := .open_, marked := false, staged := 0, items := [] }
      (s.setTxns ctx (s.txnsOf ctx ++ [t])).answer r stOK))

/-- A staged descriptor joins the open transaction, or marks it. -/
def State.stage (s : State) (c : Nat) (item : TxnItem) : Status × State :=
  match s.openTxn c with
  | none => (stTXN_STATE, s)
  | some t =>
    let t' : Txn := if t.staged < 64 then { t with staged := t.staged + 1, items := t.items ++ [item] } else { t with marked := true }
    (if t.staged < 64 then stOK else stTXN_LIMIT, s.setTxns c ((s.txnsOf c).map (fun x => if x.isOpen then t' else x)))

/-- The earliest effective step that is not late (R240). -/
def State.earliest (s : State) (c : Nat) : Nat := s.lastStep + s.leadOf c + 2

/-- A committed transaction: CFG_STATUS and CFG_EFFECTIVE show CTX0's. -/
def State.committed (s : State) (c num e : Nat) : State :=
  let s := { s with host := { s.host with lastNum := Map.put s.host.lastNum c num } }
  if c = 0 then (s.setFld fCFG_STATUS_LAST_NUM num).putReg aCFG_EFFECTIVE e else s

/-- The commit of an open transaction, removed from the context's list already. With the timeline NONE device-level items
apply at once, and content items when the context has no run (R440). (DEDUCED, log entry 72.) -/
def State.commitTxn (s : State) (c : Nat) (t : Txn) : Except (Status × Nat) (Nat × State) :=
  let unset := s.timeline = tlNONE
  let e := if unset then 0 else if t.eff = 0 then s.earliest c else t.eff
  if t.marked ∨ 16 ≤ ((s.txnsOf c).filter (fun x => !x.isOpen)).length then .error (stTXN_LIMIT, s.used.free 64)
  else if !unset ∧ e < s.earliest c then .error (stSTEP_COMMIT_LATE, s.lastStep)
  else
    let bad := if c = 0 then s.deviceStatus (s.atStep t e) t else none
    match bad with
    | some st => .error (st, s.used.free 64)
    | none => match s.admitItems c e t.num t.items [] with
      | .error st => .error (st, s.used.free 64)
      | .ok (items, s) =>
        let s := (items.foldl State.defineContext s).committed c t.num e
        if unset then
          let s := s.setTxns c (s.txnsOf c ++ [{ t with eff := 0, state := .fixed, items := items.filter (fun _ => c ≠ 0) }])
          let s := if c = 0 then items.foldl (fun s i => s.applyItem 0 0 i) s else s
          .ok (e, s.applyTxns c)
        else .ok (e, s.setTxns c (s.txnsOf c ++ [{ t with eff := e, state := .pending, items := items }]))

/-- TXN_COMMIT (R439). The TXN_COMMIT opcode checks every item against the state at E, resolves E and reserves
Logbook space, making the transaction PENDING, or discards it. -/
def execTxnCommit (ctx : Fin 64) (sq : Fin 256) (s : State) : Step' :=
  act s (fun s => s.onReq ctx sq 0x39 (fun s r =>
    match s.openTxn ctx with
    | none => s.answer r stTXN_STATE
    | some t =>
      let s := s.dropOpen ctx
      match s.commitTxn ctx t with
      | .error (st, r0) => s.used.used.finish r st r0 (s.free 32)
      | .ok (e, s) => s.finish r stOK e t.num))

/-- TXN_ROLLBACK (R438). The TXN_ROLLBACK opcode discards the open transaction. -/
def execTxnRollback (ctx : Fin 64) (sq : Fin 256) (s : State) : Step' :=
  act s (fun s => s.onReq ctx sq 0x3A (fun s r =>
    if (s.openTxn ctx).isNone then s.answer r stTXN_STATE else (s.dropOpen ctx).answer r stOK))

/-- Undoes what a commit reserved: Logbook records, and the definition of a context that had no other share. -/
def State.releaseTxn (s : State) (c : Nat) (t : Txn) : State :=
  let d := s.ctxData c
  let s := s.setData c { d with logSet := d.logSet.filter (fun x => !((x.kind == 3 || x.kind == 4) && x.key == t.num && x.eff == t.eff)) }
  let others := (s.txnsOf c).flatMap (fun x => x.items)
  t.items.foldl (fun s i => match i with
    | .share b =>
      let n := fieldAt b 0 1
      let again := others.any (fun j => match j with | .share b' => fieldAt b' 0 1 == n | _ => false)
      if s.ctxState n = csDEFINED ∧ s.reg (aCTX_SHARE0 n) = 0 ∧ s.reg (aCTX_SHARE1 n) = 0 ∧ !again then s.setCtxState n csFREE else s
    | _ => s) s

/-- TXN_CANCEL (R438). The TXN_CANCEL opcode discards a pending transaction before its cutoff, or is refused
with TXN_CANCEL_LATE. -/
def execTxnCancel (ctx : Fin 64) (sq : Fin 256) (num : Nat) (s : State) : Step' :=
  act s (fun s => s.onReq ctx sq 0x3B (fun s r =>
    match (s.txnsOf ctx).find? (fun t => !t.isOpen && t.num == num) with
    | none => s.answer r stTXN_STATE
    | some t =>
      if t.state = .fixed then s.answer r stTXN_CANCEL_LATE
      else ((s.setTxns ctx ((s.txnsOf ctx).erase t)).releaseTxn ctx t).answer r stOK))

/-- What is due of a context's fixed transactions applies; work that waited for content is planned. -/
def execTxnApply (ctx : Fin 64) (s : State) : Step' :=
  act s (fun s => (s.applyTxns ctx).planReady ctx 16)

/-- The staged share record, then shaper entries. -/
def execShare (sq : Fin 256) (buf : Bytes) (s : State) : Step' :=
  act s (fun s => s.onReq 0 sq 0x40 (fun s r =>
    if buf.length < 64 ∨ buf.length % 8 ≠ 0 ∨ buf.length ≠ r.len then s.answer r stHOST_ARGS
    else
      let (st, t) := s.stage 0 (.share buf)
      t.answer r st))

end Sys2Proof.Machine
end

