-- ==== Sys2Proof/Machine/Content.lean ====
section
/-!
DEFINITION. The opcode BLOB (R371, R372, Table 16.5): what each KIND does with its plaintext.
-/
namespace Sys2Proof.Machine

/-! ## Manifests (R55 to R57, R442) -/

/-- Whether a manifest that changes the sample space takes effect at an epoch's first step. -/
def CtxData.epochStart (d : CtxData) (r : RunRec) (e : Nat) : Bool :=
  let u := e - r.cfg.firstStep
  u == 0 || (epochOf (d.epochsTo r u (u + 2) r.epochs) u).any (fun x => x.start == u)

/-- The first check that a manifest fails. With the timeline NONE no step has been accepted, and any may be named.
(DESIGN CHOICE, log entry 55.) -/
def State.manifestStatus (s : State) (c e : Nat) (m : ManifestRec) : Option Status :=
  let d := s.ctxData c
  let newest := (d.manifests.map (·.2.version)).foldl max 0
  let changes := match d.manifestAt e with
    | some old => !m.sameSpace old
    | none => false
  firstErr [(s.timeline != tlNONE && e < s.earliest c, stSTEP_COMMIT_LATE),
    (!d.manifests.isEmpty && m.version ≤ newest, stMAN_COUNT),
    ((d.run.bind (fun r => s.manifestFits r.cfg m)).isSome, (d.run.bind (fun r => s.manifestFits r.cfg m)).getD stOK),
    ((d.run.map (fun r => changes && !d.epochStart r e)).getD false, stMAN_EPOCH)]

def State.takeManifest (s : State) (c : Nat) (r : HostReq) (plain : Bytes) : State :=
  match parseManifest plain with
  | .error st => s.answer r st
  | .ok m => match s.manifestStatus c r.effStep m with
    | some st => if st = stSTEP_COMMIT_LATE then s.used.finish r st s.lastStep (s.free 32) else s.answer r st
    | none => match s.acceptInput c { kind := 2, eff := r.effStep, key := m.version, body := manifestBody m } with
      | .error st => s.answer r st
      | .ok s =>
        let d := s.ctxData c
        (s.setData c { d with manifests := d.manifests ++ [(r.effStep, m)] }).answer r stOK

/-! ## The other kinds -/

/-- Decision-table entries: 1 to 64 of 8 bytes, model, score and MODE in range (R186).
(DEDUCED, log entry 78.) -/
def tableOk (b : Bytes) : Bool :=
  b.length % 8 == 0 && 8 ≤ b.length && b.length ≤ 512
    && (List.range (b.length / 8)).all (fun i => fieldAt b (8 * i) 1 < 4 && fieldAt b (8 * i + 1) 1 < 16 && fieldAt b (8 * i + 2) 1 ≤ 2)

def State.stageBlob (s : State) (c : Nat) (r : HostReq) (item : TxnItem) : State :=
  let (st, s) := s.stage c item
  s.answer r st

/-- K_link and the 16-byte CKN (R374). (DEDUCED, log entry 78.) -/
def State.holdLink (s : State) (plain : Bytes) : State :=
  ({ s with sec := { s.sec with link := some plain } }).flag fSEC_STATUS_LINK_KEY

/-- What an opened blob of each KIND does. KIND 3 does not come here. -/
def State.blobEffect (s : State) (c kind : Nat) (r : HostReq) (plain : Bytes) : State :=
  if kind = 1 then s.takeManifest c r plain
  else if kind = 2 then
    match parseImage plain with
    | .error st => s.answer r st
    | .ok _ => s.stageBlob c r (.image plain)
  else if kind = 4 then (if tableOk plain then s.stageBlob c r (.table plain) else s.answer r stSEC_ARGS)
  else if kind = 5 then
    if plain.length ≠ 32 then s.answer r stSEC_ARGS
    else if (s.runOf c).isSome then s.answer r stCTX_STATE
    else (s.setData c { s.ctxData c with seed := some plain }).answer r stOK
  else if kind = 6 then s.ingestObject c (fieldAt r.args 0 4) (fieldAt r.args 4 8) plain r
  else if kind = 7 then
    if plain.length ≠ 32 then s.answer r stSEC_ARGS
    else ({ s with sec := { s.sec with sessions := Map.put s.sec.sessions c plain } }).answer r stOK
  else if plain.length ≠ 48 then s.answer r stSEC_ARGS
  else (s.holdLink plain).answer r stOK

/-- KINDs a context may carry with BLOB (Table 19.14). -/
def blobKinds (c : Nat) : List Nat := if c = 0 then [8] else [1, 2, 3, 4, 5, 6, 7]

/-- STAGED exactly for KIND 2 and 4, EFFECTIVE_STEP only with KIND 1, ARGS only where the KIND takes them. -/
def blobArgsOk (kind : Nat) (r : HostReq) : Bool :=
  let used := if kind = 3 then 1 else if kind = 6 then 12 else 0
  r.staged == (kind == 2 || kind == 4) && (kind == 1 || r.effStep == 0) && allZero (r.args.drop used)

/-- `engine`: the crypto engine that opens the blob. A vocabulary image whose tag fails ends its load (Table 6.3).
(DEDUCED, log entry 17.) -/
def execBlob (ctx : Fin 64) (sq : Fin 256) (engine : Fin 65536) (buf : Bytes) (s : State) : Step' :=
  act s (fun s => s.onReq ctx sq 0x05 (fun s r =>
    let kind := blobKind buf
    let bad := if kind = 2 then stIMG_AUTH else if kind = 3 then stVOC_AUTH else stSEC_BLOB_AUTH
    if !blobHeaderOk ctx (blobKinds ctx) r.len buf then s.answer r stSEC_ARGS
    else if !blobArgsOk kind r then s.answer r stHOST_ARGS
    else if kind = 3 then
      match s.takeBlob ctx buf with
      | .error st => s.answer r st
      | .ok (plain, s) => s.startLoad ctx (fieldAt r.args 0 1) (buf.length - 48) plain r
    else s.withBlob ctx engine (blobKinds ctx) r buf bad (fun s plain => s.blobEffect ctx kind r plain)))

end Sys2Proof.Machine
end

