-- ==== Sys2Proof/Machine/HostRes.lean ====
section
/-!
DEFINITION. Host opcodes that open and close what a context uses: CLIENT queue pairs (R251 to R253), windows (R260, R262),
pegs (R326), device barriers (R330) and Ledger queues (R264).
-/
namespace Sys2Proof.Machine

/-! ## Queue pairs -/

/-- Attributes of Table 10.4 in range, for a CLIENT queue pair of R252. -/
def State.qpArgsOk (s : State) (cls pd port sub pmtu timeout retry initD respD : Nat) : Bool :=
  (cls == 0 || cls == 3 || cls == 5) && pd < 256 && s.subPresent port sub && (pmtu == 1024 || pmtu == 2048 || pmtu == 4096)
    && 6 ≤ timeout && timeout ≤ 14 && retry ≤ 7 && 1 ≤ initD && initD ≤ 16 && 1 ≤ respD && respD ≤ 16

/-- RESULT0 is the queue pair number. (DEDUCED, log entries 17, 70.) -/
def execQpOpen (ctx : Fin 64) (sq : Fin 256) (cls pd port sub pmtu timeout retry initDepth respDepth : Nat) (s : State) :
    Step' :=
  act s (fun s => s.onReq ctx sq 0x20 (fun s r =>
    if !s.qpArgsOk cls pd port sub pmtu timeout retry initDepth respDepth then s.answer r stNET_QP_ARGS
    else match s.openQp false .client cls ctx pd port sub pmtu timeout retry initDepth respDepth with
      | .error st => s.answer r st
      | .ok (i, t) =>
        let gen := ((t.qp i).map (·.gen)).getD 0
        t.used.finish r stOK (qpnOf i gen) (t.free 32)))

/-- A CLIENT queue pair of the context in its current generation. -/
def State.clientQp (s : State) (c qpn : Nat) : Option (Nat × Qp) :=
  match s.findQpn qpn with
  | some (i, q) => if q.ctx = c ∧ q.kind = .client then some (i, q) else none
  | none => none

/-- The responder starts, then the requester: INIT to RTR to RTS. -/
def execQpConnect (ctx : Fin 64) (sq : Fin 256) (qpn : Nat) (peerGid : BitVec 128) (peerQpn sqPsn ePsn : Nat) (s : State) :
    Step' :=
  act s (fun s => s.onReq ctx sq 0x21 (fun s r =>
    match s.clientQp ctx qpn with
    | some (i, q) =>
      if q.state ≠ .init ∨ 2 ^ 24 ≤ peerQpn ∨ 2 ^ 24 ≤ sqPsn ∨ 2 ^ 24 ≤ ePsn then s.answer r stNET_QP_ARGS
      else (s.setQp i (q.connect (toBE 16 peerGid.toNat) peerQpn sqPsn ePsn)).answer r stOK
    | none => s.answer r stNET_QP_ARGS))

/-- QP_CLOSE (R253). The QP_CLOSE opcode moves the queue pair to ERR and begins its flush. -/
def execQpClose (ctx : Fin 64) (sq : Fin 256) (qpn : Nat) (s : State) : Step' :=
  act s (fun s => s.onReq ctx sq 0x22 (fun s r =>
    match s.clientQp ctx qpn with
    | some (i, q) =>
      if q.state = .err then s.answer r stNET_QP_ARGS else (s.qpError i stNET_FLUSHED true).answer r stOK
    | none => s.answer r stNET_QP_ARGS))

/-- QP_DESTROY (R253). The QP_DESTROY opcode advances the generation of a flushed queue pair and frees its
index. -/
def execQpDestroy (ctx : Fin 64) (sq : Fin 256) (qpn : Nat) (s : State) : Step' :=
  act s (fun s => s.onReq ctx sq 0x23 (fun s r =>
    match s.clientQp ctx qpn with
    | some (i, q) =>
      if q.state = .err ∧ q.flushed then (s.destroyQp i).answer r stOK else s.answer r stNET_QP_ARGS
    | none => s.answer r stNET_QP_ARGS))

/-! ## Windows -/

/-- The kind a request names, when the context may open it with this length and these permissions (Table 10.6). -/
def State.winKindOk (s : State) (c kind handle len : Nat) (w r : Bool) : Option WinKind :=
  if kind = 2 ∧ c = 0 ∧ w ∧ !r ∧ 1 ≤ len ∧ len ≤ 2048 then some .beacon
  else if kind = 3 ∧ c ≠ 0 ∧ w ∧ !r ∧ 1 ≤ len ∧ len ≤ 131072 then some .mailbox
  else if kind = 4 ∧ c ≠ 0 ∧ w ∧ !r ∧ 1 ≤ len ∧ len ≤ s.slotCount c * 128 then some .ledger
  else if kind = 5 ∧ c ≠ 0 ∧ (w ∨ r) ∧ 1 ≤ len then
    match s.findChain c handle none with
    | .ok _ => if len ≤ s.handleSize handle then some (.handle handle) else none
    | .error _ => none
  else none

/-- RESULT0 is the remote key. (DEDUCED, log entry 70.) -/
def execWindowOpen (ctx : Fin 64) (sq : Fin 256) (kind pd len handle : Nat) (write read : Bool) (s : State) : Step' :=
  act s (fun s => s.onReq ctx sq 0x24 (fun s r =>
    match s.winKindOk ctx kind handle len write read with
    | none => s.answer r stNET_WINDOW_ARGS
    | some k =>
      if 256 ≤ pd then s.answer r stNET_WINDOW_ARGS
      else match s.openWindow ctx pd k len write read with
        | .error st => s.answer r st
        | .ok (key, t) => t.used.finish r stOK key (t.free 32)))

/-- The window is revoked at once; the request completes when the close does.
(DEDUCED, log entry 70.) -/
def execWindowClose (ctx : Fin 64) (sq : Fin 256) (key : Nat) (s : State) : Step' :=
  act s (fun s => s.onReq ctx sq 0x25 (fun s r =>
    match s.windowAt key with
    | some w =>
      if w.ctx ≠ ctx ∨ w.kind = .landing then s.answer r stNET_WINDOW_ARGS
      else (s.revoke (key / 2 ^ 16)).await r (.window (key / 2 ^ 16))
    | none => s.answer r stNET_WINDOW_ARGS))

/-- No placement through a revoked window remains: a packet is placed in one command, with its check. -/
def execWindowCloseComplete (window : Fin 65536) (s : State) : Step' :=
  act s (fun s => match Map.find s.net.windows window with
    | some w =>
      if w.closing.isNone then s
      else
        let ws := Map.put s.net.windows window { w with closing := none }
        ({ s with net := { s.net with windows := ws } }).wake (.window window) stOK
    | none => s)

/-! ## Pegs -/

/-- Maps a virtual peg at value 0; one that is mapped keeps its physical peg.
(DEDUCED, log entry 70.) -/
def execPegMap (ctx : Fin 64) (sq : Fin 256) (peg : Nat) (s : State) : Step' :=
  act s (fun s => s.onReq ctx sq 0x28 (fun s r =>
    if 16384 ≤ peg then s.answer r stHOST_ARGS
    else match s.peg ctx peg with
      | some _ => (s.setPeg ctx peg 0).answer r stOK
      | none =>
        if 65536 ≤ s.mappedPegs ∨ s.sharePegs ctx ≤ (s.pegsOf ctx).length then s.answer r stPEG_EXHAUSTED
        else (s.used.setPegs ctx (Map.put (s.pegsOf ctx) peg { phys := s.freePhys, value := 0 })).answer r stOK))

/-- PEG_UNMAP (R326). The PEG_UNMAP opcode completes the peg's waiters with PEG_UNMAPPED and zeroes the peg.
(DEDUCED, log entry 70.) -/
def execPegUnmap (ctx : Fin 64) (sq : Fin 256) (peg : Nat) (s : State) : Step' :=
  act s (fun s => s.onReq ctx sq 0x29 (fun s r =>
    if 16384 ≤ peg then s.answer r stHOST_ARGS
    else match s.peg ctx peg with
      | none => s.answer r stPEG_UNMAPPED
      | some _ =>
        let s := s.endWaits ctx (fun w => w.peg == peg) stPEG_UNMAPPED
        (s.setPegs ctx (Map.del (s.pegsOf ctx) peg)).answer r stOK))

/-! ## Device barriers -/

/-- The spec names no status for an open beyond the share or the device's 1,024: it is free.
(DESIGN CHOICE, log entry 11.) (DEDUCED, log entry 70.) -/
def execDbarOpen (ctx : Fin 64) (sq : Fin 256) (barrier mode : Nat) (s : State) : Step' :=
  act s (fun s => s.onReq ctx sq 0x2A (fun s r =>
    let all := (s.sync.bars.map (fun e => e.2.length)).foldl (· + ·) 0
    if 256 ≤ barrier ∨ 2 ≤ mode ∨ Map.has (s.barsOf ctx) barrier then s.answer r stHOST_ARGS
    else if 1024 ≤ all ∨ s.shareDbars ctx ≤ (s.barsOf ctx).length then s.used.answer r (BitVec.ofNat 16 (s.free 16))
    else
      let b : Dbar := { stepMode := mode == 1, sense := false, gen := 0, members := s.readyTiles ctx, arrived := [],
                        gate := false, waiters := [] }
      (s.setBar ctx barrier b).answer r stOK))

/-- DBAR_CLOSE (R330). The DBAR_CLOSE opcode closes a device barrier. (DEDUCED, log entry 70.) -/
def execDbarClose (ctx : Fin 64) (sq : Fin 256) (barrier : Nat) (s : State) : Step' :=
  act s (fun s => s.onReq ctx sq 0x2B (fun s r =>
    match Map.find (s.barsOf ctx) barrier with
    | none => s.answer r stHOST_ARGS
    | some b =>
      let s := { s with sync := { s.sync with bars := Map.put s.sync.bars ctx (Map.del (s.barsOf ctx) barrier) } }
      (b.waiters.foldl (fun s w => s.completeTicket w.1 w.2.1 w.2.2.1 0 stDBAR_NOT_MEMBER) s).answer r stOK))

/-! ## Ledger queues -/

/-- Slots [a, a + n) and [b, b + m) overlap. -/
def slotsMeet (a n b m : Nat) : Bool := a < b + m && b < a + n

/-- Parameters of Table 11.1 that R264 accepts; QP is the index of the queue pair named. -/
def State.queueOk (s : State) (c queue mode base count entries cplAddr : Nat) (qp : Option (Nat × Qp)) : Bool :=
  queue < 1024 && !Map.has s.ledger queue && mode ≤ 2 && 2 ≤ count && count ≤ 1024
    && s.slotBase c ≤ base && base + count ≤ s.slotBase c + s.slotCount c
    && s.ledger.all (fun e => e.2.ctx != c || !slotsMeet base count e.2.base e.2.count)
    && (match qp with
        | some (_, q) => q.cls == 3 && q.state != .err
        | none => false)
    && cplAddr % 32 == 0 && count ≤ entries && entries ≤ 65536 && 2 ^ Nat.log2 entries == entries

/-- A queue that nothing has been submitted to. -/
def LedgerQueue.fresh (ctx mode base count qp addr key entries : Nat) : LedgerQueue :=
  { ctx := ctx, mode := mode, base := base, count := count, qp := qp, cplAddr := addr, cplKey := key, cplEntries := entries,
    recovery := false, expected := 0, posted := 0, written := 0, cmds := [], deferred := [], deferredSince := false,
    reset := none, cpls := [] }

/-- LDG_QUEUE_OPEN (R264). The LDG_QUEUE_OPEN opcode opens a Ledger queue over a slot range of the context and
a TC3 client queue pair. (DEDUCED, log entry 70.) -/
def execLdgQueueOpen (ctx : Fin 64) (sq : Fin 256) (queue mode slotBase slotCount qpn cplAddr cplKey cplEntries : Nat)
    (s : State) : Step' :=
  act s (fun s => s.onReq ctx sq 0x2C (fun s r =>
    let qp := s.clientQp ctx qpn
    if 1024 ≤ s.ledger.length then s.answer r stLDG_QUEUE_EXHAUSTED
    else if !s.queueOk ctx queue mode slotBase slotCount cplEntries cplAddr qp then s.answer r stLDG_QUEUE_CONFIG
    else
      (s.setQueue queue (LedgerQueue.fresh ctx mode slotBase slotCount ((qp.map (·.1)).getD 0) cplAddr cplKey cplEntries)).answer
        r stOK))

/-- The commands of a closed queue end as under a reset; what it still had to write is dropped.
(DEDUCED, log entry 70.) -/
def execLdgQueueClose (ctx : Fin 64) (sq : Fin 256) (queue : Nat) (s : State) : Step' :=
  act s (fun s => s.onReq ctx sq 0x2D (fun s r =>
    match s.queue queue with
    | none => s.answer r stLDG_QUEUE_CONFIG
    | some q =>
      if q.ctx ≠ ctx ∨ q.recovery then s.answer r stLDG_QUEUE_CONFIG
      else
        let s := s.abortQueue queue
        ({ s with ledger := Map.del s.ledger queue }).answer r stOK))

end Sys2Proof.Machine
end

