-- ==== Sys2Proof/Machine/Lanes.lean ====
section
/-!
DEFINITION. Lane instructions that compute, load, store and branch (R74 to R79, R89). A result that the spec leaves open
is a free value (log entry 4): a shift by the width or more, a minimum or maximum of a NaN, a conversion out of range,
the upper half of a g register after a floating-point result, an element a permute or a widening leaves unnamed.
-/
namespace Sys2Proof.Machine

/-! ## Integer -/

def bit64 (b : Bool) : BitVec 64 := if b then 1#64 else 0#64

/-- Trailing zeros among the low w bits. -/
def trailing : Nat → Nat → Nat
  | 0, _ => 0
  | w + 1, x => if x % 2 = 1 then 0 else 1 + trailing w (x / 2)

/-- Leading zeros among the low w bits. -/
def leading : Nat → Nat → Nat
  | 0, _ => 0
  | w + 1, x => if bitOf x w then 0 else 1 + leading w x

def byteReverse (x : BitVec 64) : BitVec 64 := BitVec.ofNat 64 (beNat (toLE 8 x.toNat))

/-- Quotient and remainder toward zero; by zero all ones and the dividend (R76). -/
def divS64 (a b : BitVec 64) : BitVec 64 := if b = 0#64 then BitVec.allOnes 64 else BitVec.ofInt 64 (a.toInt.tdiv b.toInt)
def remS64 (a b : BitVec 64) : BitVec 64 := if b = 0#64 then a else BitVec.ofInt 64 (a.toInt.tmod b.toInt)
def divU64 (a b : BitVec 64) : BitVec 64 := if b = 0#64 then BitVec.allOnes 64 else BitVec.ofNat 64 (a.toNat / b.toNat)
def remU64 (a b : BitVec 64) : BitVec 64 := if b = 0#64 then a else BitVec.ofNat 64 (a.toNat % b.toNat)

/-- A shift; none: the amount is the width or more, for which the spec states no result. -/
def shift64 (f : BitVec 64 → Nat → BitVec 64) (a : BitVec 64) (n : Nat) : Option (BitVec 64) :=
  if n < 64 then some (f a n) else none

/-- Class integer; none: an open result. (DEDUCED, log entry 18.) -/
def intResult (op : IntOp) (a b : BitVec 64) : Option (BitVec 64) :=
  match op with
  | .add => some (a + b)
  | .sub => some (a - b)
  | .and => some (a &&& b)
  | .or => some (a ||| b)
  | .xor => some (a ^^^ b)
  | .sll => shift64 (fun x n => x <<< n) a b.toNat
  | .srl => shift64 (fun x n => x >>> n) a b.toNat
  | .sra => shift64 (fun x n => x.sshiftRight n) a b.toNat
  | .mulLow => some (a * b)
  | .mulHighS => some (BitVec.ofInt 64 (a.toInt * b.toInt / (2 ^ 64 : Nat)))
  | .mulHighU => some (BitVec.ofNat 64 (a.toNat * b.toNat / 2 ^ 64))
  | .divS => some (divS64 a b)
  | .divU => some (divU64 a b)
  | .remS => some (remS64 a b)
  | .remU => some (remU64 a b)
  | .eq => some (bit64 (a == b))
  | .ltS => some (bit64 (a.slt b))
  | .ltU => some (bit64 (a.ult b))
  | .minS => some (if a.slt b then a else b)
  | .minU => some (if a.ult b then a else b)
  | .maxS => some (if a.slt b then b else a)
  | .maxU => some (if a.ult b then b else a)
  | .popCount => some (BitVec.ofNat 64 (popCount 64 a.toNat))
  | .clz => some (BitVec.ofNat 64 (leading 64 a.toNat))
  | .ctz => some (BitVec.ofNat 64 (trailing 64 a.toNat))
  | .byteReverse => some (byteReverse a)
  | .illegal => none

/-- Class integer immediate; imm16 is signed, and a load upper takes imm16 << 16, sign-extended.
(DEDUCED, log entry 18.) -/
def immResult (op : ImmOp) (a : BitVec 64) (imm : BitVec 16) : Option (BitVec 64) :=
  let b := imm.signExtend 64
  match op with
  | .add => some (a + b)
  | .and => some (a &&& b)
  | .or => some (a ||| b)
  | .xor => some (a ^^^ b)
  | .sll => shift64 (fun x n => x <<< n) a b.toNat
  | .srl => shift64 (fun x n => x >>> n) a b.toNat
  | .sra => shift64 (fun x n => x.sshiftRight n) a b.toNat
  | .eq => some (bit64 (a == b))
  | .ltS => some (bit64 (a.slt b))
  | .ltU => some (bit64 (a.ult b))
  | .loadUpper => some ((BitVec.append imm 0#16).signExtend 64)
  | .illegal => none

/-- Writes a result that may be open: then a free value. -/
def Lane.result (x : Lane) (s : State) (rd : Nat) (v : Option (BitVec 64)) : Lane :=
  x.setG rd (v.getD (Config.freeValue 64 s.freeCtr))

/-- INTEGER_OP (R76). A lane executes a format A integer instruction with wrapping arithmetic. -/
def execIntegerOp (tile : Fin 96) (lane : Fin 288) (op : IntOp) (rd rs1 rs2 : Fin 32) (s : State) : Step' :=
  act s (fun s => (s.lane1 tile lane (fun x =>
    if op = .illegal then .fault x stLANE_ILLEGAL
    else .go (x.result s rd (intResult op (x.getG rs1) (x.getG rs2))).next)).used)

/-- INTEGER_IMMEDIATE_OP (R76). A lane executes a format I integer immediate instruction. -/
def execIntegerImmediateOp (tile : Fin 96) (lane : Fin 288) (op : ImmOp) (rd rs1 : Fin 32) (imm : BitVec 16)
    (s : State) : Step' :=
  act s (fun s => (s.lane1 tile lane (fun x =>
    if op = .illegal then .fault x stLANE_ILLEGAL
    else .go (x.result s rd (immResult op (x.getG rs1) imm)).next)).used)

/-! ## Loads and stores (R89) -/

def LaneSize.bytes : LaneSize → Nat
  | .b8 => 1 | .b16 => 2 | .b32 => 4 | .b64 => 8

/-- An access outside the tile store or not naturally aligned. -/
def badAddr (a n : Nat) : Bool := a % n != 0 || storeSize < a + n

/-- A store into the code or constant region. -/
def State.readOnly (s : State) (t a : Nat) : Bool :=
  match s.tileImage t with
  | some i => a < i.constEnd
  | none => false

def extend64 (size : LaneSize) (signed : Bool) (n : Nat) : BitVec 64 :=
  if signed then BitVec.ofInt 64 (toSigned (8 * size.bytes) n) else BitVec.ofNat 64 n

/-- LOAD (R89). A lane loads 8 to 64 bits from the tile store, or takes LANE_ADDRESS. -/
def execLoad (tile : Fin 96) (lane : Fin 288) (size : LaneSize) (signed : Bool) (rd rs1 : Fin 32) (imm : BitVec 16)
    (s : State) : Step' :=
  act s (fun s => s.lane1 tile lane (fun x =>
    let a := x.addr rs1 imm
    if badAddr a size.bytes then .fault x stLANE_ADDRESS
    else .go (x.setG rd (extend64 size signed (leNat (s.loadTile tile a size.bytes)))).next))

/-- Stores the low bytes of a lane's value and goes on, or takes LANE_ADDRESS. -/
def State.laneStore (s : State) (t l a n : Nat) (d : Bytes) : State :=
  if !s.laneIssues t l (fun _ => false) then s
  else
    let x := (s.tile t).lane l
    if badAddr a n || s.readOnly t a then s.endLane t l (.fault x stLANE_ADDRESS)
    else (s.storeTile t a d).endLane t l (.go x.next)

/-- STORE (R89). A lane stores 8 to 64 bits into a writable tile-store region, or takes LANE_ADDRESS. -/
def execStore (tile : Fin 96) (lane : Fin 288) (size : LaneSize) (rd rs1 : Fin 32) (imm : BitVec 16)
    (s : State) : Step' :=
  act s (fun s =>
    let x := (s.tile tile).lane lane
    s.laneStore tile lane (x.addr rs1 imm) size.bytes (toLE size.bytes (x.getG rd).toNat))

/-- VECTOR_LOAD (R89). A lane loads 128 bits into a vector register from an aligned tile-store address. -/
def execVectorLoad (tile : Fin 96) (lane : Fin 288) (vd : Fin 16) (rs1 : Fin 32) (imm : BitVec 16)
    (s : State) : Step' :=
  act s (fun s => s.lane1 tile lane (fun x =>
    let a := x.addr rs1 imm
    if badAddr a 16 then .fault x stLANE_ADDRESS
    else .go (x.setV vd (BitVec.ofNat 128 (leNat (s.loadTile tile a 16)))).next))

/-- VECTOR_STORE (R89). A lane stores 128 bits from a vector register into the tile store. -/
def execVectorStore (tile : Fin 96) (lane : Fin 288) (vd : Fin 16) (rs1 : Fin 32) (imm : BitVec 16)
    (s : State) : Step' :=
  act s (fun s =>
    let x := (s.tile tile).lane lane
    s.laneStore tile lane (x.addr rs1 imm) 16 (toLE 16 (x.getV vd).toNat))

/-! ## Branches -/

def branchTaken (op : BranchOp) (a b : BitVec 64) : Bool :=
  match op with
  | .eq => a == b
  | .ne => a != b
  | .ltS => a.slt b
  | .geS => !a.slt b
  | .ltU => a.ult b
  | .geU => !a.ult b
  | .illegal => false

/-- pc + 4 × a signed word offset, 32 bits. -/
def Lane.jump (x : Lane) (off : Int) : Lane := { x with pc := (((x.pc : Int) + 4 * off) % (2 ^ 32 : Nat)).toNat }

/-- BRANCH (R79). A lane executes a conditional branch. -/
def execBranch (tile : Fin 96) (lane : Fin 288) (op : BranchOp) (rs1 rs2 : Fin 32) (off : BitVec 16)
    (s : State) : Step' :=
  act s (fun s => s.lane1 tile lane (fun x =>
    if op = .illegal then .fault x stLANE_ILLEGAL
    else if branchTaken op (x.getG rs1) (x.getG rs2) then .go (x.jump off.toInt) else .go x.next))

/-- JUMP_AND_LINK (R79). A lane writes pc + 4 to rd and jumps by a signed word offset. -/
def execJumpAndLink (tile : Fin 96) (lane : Fin 288) (rd : Fin 32) (off : BitVec 21) (s : State) : Step' :=
  act s (fun s => s.lane1 tile lane (fun x =>
    .go ((x.setG rd (BitVec.ofNat 64 (x.pc + 4))).jump off.toInt)))

/-- JUMP_REGISTER (R79). A lane writes pc + 4 to rd and jumps to rs1 + imm16 with the low bits cleared. -/
def execJumpRegister (tile : Fin 96) (lane : Fin 288) (rd rs1 : Fin 32) (imm : BitVec 16) (s : State) : Step' :=
  act s (fun s => s.lane1 tile lane (fun x =>
    let a := x.addr rs1 imm % 2 ^ 32
    .go { x.setG rd (BitVec.ofNat 64 (x.pc + 4)) with pc := a - a % 4 }))

/-! ## Vectors -/

def ElemWidth.bits : ElemWidth → Nat
  | .w8 => 8 | .w16 => 16 | .w32 => 32 | .w64 => 64

/-- The elements of a vector register, lowest first, w bits each. -/
def elems (w : Nat) (v : BitVec 128) : List Nat := (List.range (128 / w)).map (fun i => bitsOf v.toNat (w * i) w)

/-- A vector register of w-bit elements. -/
def packElems (w : Nat) (xs : List Nat) : BitVec 128 :=
  BitVec.ofNat 128 (xs.foldr (fun x a => a * 2 ^ w + x % 2 ^ w) 0)

def satS (w : Nat) (x : Int) : Nat :=
  let hi : Int := 2 ^ (w - 1) - 1
  ofSigned w (if hi < x then hi else if x < -hi - 1 then -hi - 1 else x)

def satU (w : Nat) (x : Int) : Nat := if x < 0 then 0 else min x.toNat (2 ^ w - 1)

/-- One element of class vector integer, from the elements of vd, vs1 and vs2; none: an open result.
(DEDUCED, log entry 19.) -/
def vecElem (op : VecOp) (w d a b : Nat) : Option Nat :=
  let sa := toSigned w a
  let sb := toSigned w b
  let cmp := fun (c : Bool) => some (if c then 1 else 0)
  match op with
  | .add => some (a + b)
  | .sub => some (a + (2 ^ w - b))
  | .mul => some (a * b)
  | .minS => some (if sa < sb then a else b)
  | .minU => some (min a b)
  | .maxS => some (if sa < sb then b else a)
  | .maxU => some (max a b)
  | .sll => if b < w then some (a * 2 ^ b) else none
  | .srl => if b < w then some (a / 2 ^ b) else none
  | .sra => if b < w then some (ofSigned w (sa / (2 ^ b : Nat))) else none
  | .eq => cmp (a == b)
  | .ltS => cmp (sa < sb)
  | .ltU => cmp (a < b)
  | .select => some (if d != 0 then a else b)
  | .addSatS => some (satS w (sa + sb))
  | .addSatU => some (satU w (a + b))
  | .subSatS => some (satS w (sa - sb))
  | .subSatU => some (satU w ((a : Int) - b))
  | _ => none

def isWiden (op : VecOp) : Bool := op == .widenS || op == .widenU
def isNarrow (op : VecOp) : Bool := op == .narrowS || op == .narrowU

/-- Class vector integer: element-wise; widen takes the lower elements of vs1 to twice the width, narrow takes the
elements of vs1 then vs2 to half the width with saturation. `fr` gives the open elements.
(DEDUCED, log entry 19.) -/
def vecResult (fr : BitVec 128) (op : VecOp) (w : Nat) (vd v1 v2 : BitVec 128) : BitVec 128 :=
  if isWiden op then
    if w = 64 then fr
    else packElems (2 * w) (((elems w v1).take (64 / w)).map (fun a =>
      if op = .widenS then ofSigned (2 * w) (toSigned w a) else a))
  else if isNarrow op then
    if w = 8 then fr
    else packElems (w / 2) ((elems w v1 ++ elems w v2).map (fun a =>
      if op = .narrowS then satS (w / 2) (toSigned w a) else satU (w / 2) a))
  else
    let zs := List.zip (elems w fr) (List.zip (elems w vd) (List.zip (elems w v1) (elems w v2)))
    packElems w (zs.map (fun z => (vecElem op w z.2.1 z.2.2.1 z.2.2.2).getD z.1))

/-- VECTOR_INTEGER_OP (R76). A lane executes an element-wise vector integer instruction. -/
def execVectorIntegerOp (tile : Fin 96) (lane : Fin 288) (op : VecOp) (w : ElemWidth) (vd vs1 vs2 : Fin 16)
    (s : State) : Step' :=
  act s (fun s => (s.lane1 tile lane (fun x =>
    if op = .illegal then .fault x stLANE_ILLEGAL
    else .go (x.setV vd (vecResult (Config.freeValue 128 s.freeCtr) op w.bits (x.getV vd) (x.getV vs1)
      (x.getV vs2))).next)).used)

/-- Class vector permute. An index beyond the elements names none: an open element.
(DEDUCED, log entry 19.) -/
def permLane (fr : BitVec 128) (op : PermOp) (w : Nat) (vd vs1 vs2 : Nat) (x : Lane) : Lane :=
  match op with
  | .shuffle =>
    let src := elems w (x.getV vs1)
    x.setV vd (packElems w ((List.zip (elems w fr) (elems w (x.getV vs2))).map (fun z => src.getD z.2 z.1)))
  | .broadcast g => x.setV vd (packElems w (List.replicate (128 / w) (x.getG g).toNat))
  | .toV g e => x.setV vd (packElems w ((elems w (x.getV vd)).set e.val (x.getG g).toNat))
  | .toG g e => x.setG g (BitVec.ofNat 64 ((elems w (x.getV vs1)).getD e.val fr.toNat))
  | .illegal => x

/-- VECTOR_PERMUTE (R79). A lane executes a vector shuffle, a broadcast or a move between g and v registers.
-/
def execVectorPermute (tile : Fin 96) (lane : Fin 288) (op : PermOp) (w : ElemWidth) (vd vs1 vs2 : Fin 16)
    (s : State) : Step' :=
  act s (fun s => (s.lane1 tile lane (fun x =>
    if op = .illegal then .fault x stLANE_ILLEGAL
    else .go (permLane (Config.freeValue 128 s.freeCtr) op w.bits vd vs1 vs2 x).next)).used)

/-! ## Floating point (R76) -/

def FpWidth.fmt : FpWidth → FFmt
  | .single => fmtFP32 | .half => fmtFP16

def FpWidth.bits : FpWidth → Nat
  | .single => 32 | .half => 16

/-- The value of a finite operand as mantissa and exponent of two; none for an infinity or a NaN. -/
def finiteOf (f : FFmt) (x : Nat) : Option (Int × Int) :=
  match decodeFloat f x with
  | .fin neg n e => some (signedMag neg n, e)
  | _ => none

/-- Rounds m × 2^e to an integer, ties to even. -/
def roundInt (m e : Int) : Int :=
  if 0 ≤ e then m * 2 ^ e.toNat
  else if m < 0 then -(divPow2Even m.natAbs (-e).toNat : Int) else divPow2Even m.natAbs (-e).toNat

/-- Class floating point on w-bit codes; none: the spec states no result for these operands.
(DEDUCED, log entry 18.) -/
def fpResult (op : FpOp) (w : FpWidth) (d a b : BitVec 64) : Option Nat :=
  let f := w.fmt
  let n := w.bits
  let x := bitsOf a.toNat 0 n
  let y := bitsOf b.toNat 0 n
  let z := bitsOf d.toNat 0 n
  let cmp := fun (p : Ordering → Bool) => match cmpFloat f x y with
    | some o => some (if p o then 1 else 0)
    | none => some 0
  let toInt := fun (lo hi : Int) => match finiteOf f x with
    | some (m, e) => let r := roundInt m e
      if lo ≤ r ∧ r ≤ hi then some (ofSigned 64 r) else none
    | none => none
  let pickNaN := match decodeFloat f x, decodeFloat f y with
    | .nan, .nan => some f.nan
    | _, _ => none
  match op with
  | .add => some (addFloat f x y)
  | .sub => some (subFloat f x y)
  | .mul => some (mulFloat f x y)
  | .div => some (divFloat f x y)
  | .sqrt => some (sqrtFloat f x)
  | .fma => some (fmaFloat f x y z)
  | .min => match cmpFloat f x y with
    | some .lt => some x
    | some .gt => some y
    | some .eq => if x = y then some x else none
    | none => pickNaN
  | .max => match cmpFloat f x y with
    | some .lt => some y
    | some .gt => some x
    | some .eq => if x = y then some x else none
    | none => pickNaN
  | .eq => cmp (· == .eq)
  | .lt => cmp (· == .lt)
  | .le => cmp (· != .gt)
  | .toS64 => toInt (-(2 ^ 63)) (2 ^ 63 - 1)
  | .toU64 => toInt 0 (2 ^ 64 - 1)
  | .fromS64 => some (encodeFloat f false a.toInt 0)
  | .fromU64 => some (encodeFloat f false a.toNat 0)
  | .illegal => none

/-- Bits of the result that the spec states; the rest of rd is open. -/
def fpBits (op : FpOp) (w : FpWidth) : Nat :=
  match op with
  | .toS64 | .toU64 | .eq | .lt | .le => 64
  | _ => w.bits

/-- FLOATING_POINT_OP (R76). A lane executes a binary32 or binary16 operation with round-to-nearest-even and
canonical NaNs. -/
def execFloatingPointOp (tile : Fin 96) (lane : Fin 288) (op : FpOp) (w : FpWidth) (rd rs1 rs2 : Fin 32)
    (s : State) : Step' :=
  act s (fun s => (s.lane1 tile lane (fun x =>
    if op = .illegal then .fault x stLANE_ILLEGAL
    else
      let fr := (Config.freeValue 64 s.freeCtr).toNat
      match fpResult op w (x.getG rd) (x.getG rs1) (x.getG rs2) with
      | some v => .go (x.setG rd (BitVec.ofNat 64 (putBits fr 0 (fpBits op w) v))).next
      | none => .go (x.setG rd (BitVec.ofNat 64 fr)).next)).used)

end Sys2Proof.Machine
end

