-- ==== Sys2Proof/Machine/Power.lean ====
section
/-!
DEFINITION. Commands of the module's power (spec/20: R445 to R451): rails and power cycles (R357, R359), PWR_GOOD, the
hold-up store, the governor, thermal limits.
-/
namespace Sys2Proof.Machine

/-- Source ID of the power governor and thermal sensors (Table 17.1). -/
def srcPOWER : Nat := 0x0010

/-! ## What outlives a loss of power (Table 15.3, R359, R367) -/

/-- The flush as far as the hold-up store carried it: `stored` entries of the write buffer (R306, R307). What an
unprotected buffer held is lost (R291). (DEDUCED, log entry 83.) (UNVERIFIED, log entry 84.) -/
def State.flushTo (s : State) (stored : Nat) : State :=
  match s.media.flushing with
  | some _ =>
    if s.media.wb.length ≤ stored then s.endFlush false
    else s.setMedia { s.media with
      reserve := s.media.wb.take stored
      reserveSeq := s.media.flushSeq
      endMark := false
      wb := s.media.wb.drop stored
      flushing := none }
  | none =>
    let s' := s.media.wb.foldl (fun s w => s.loseStream w.stream) s
    s'.setMedia { s'.media with wb := [] }

/-- Media keep what they store; the controller's volatile state goes. (UNVERIFIED, log entry 84.) -/
def MediaState.unpowered (m : MediaState) : MediaState :=
  { m with
    blocks := m.blocks.map (fun b => { b with scanned := 0 })
    floorSince := none
    recoveries := []
    links := []
    lastOp := 0
    checkpointAt := 0
    resumeDue := none
    flushing := none
    health := 0 }

/-- What is left of a context: its Logbooks and dataset generations on media, its seed with the keys. -/
def CtxData.unpowered (d : CtxData) (media keys : Bool) : CtxData :=
  { CtxData.off with
    seed := if keys then d.seed else none
    minRunId := if media then d.minRunId else 0
    logs := if media then d.logs else []
    gens := if media then d.gens else [] }

/-- The key store; K_link and reports are not in it. (DEDUCED, log entry 66.) -/
def SecState.unpowered (v : SecState) (keys : Bool) : SecState :=
  if keys then { SecState.off with roots := v.roots, sessions := v.sessions, blobSeq := v.blobSeq, outCtr := v.outCtr }
  else SecState.off

/-- The always-on domain of the collector: the SAFE_STOP monitor with its own time. -/
def FaultState.standby (f : FaultState) (now : Nat) : FaultState :=
  { FaultState.off with
    chanA := f.chanA
    chanB := f.chanB
    timer := f.timer
    demanded := f.demanded
    sinceStandby := f.sinceStandby + now }

/-- Registers of the always-on domain: the monitor's, and the latches of R385.
(DEDUCED, log entry 83.) -/
def State.keepAlwaysOn (old s : State) : State :=
  let s := ([aFLT_SAFE_CFG, aFLT_SAFE_STATUS, aFLT_FIRST, aFLT_FIRST_STAMP]).foldl (fun s a => s.putReg a (old.reg a)) s
  let s := ([fFLT_STATUS_F3_UNACK, fFLT_STATUS_F4_UNACK]).foldl (fun s f => s.setFld f (old.fld f)) s
  let degraded := old.fld fFLT_STATUS_SAFE_DEGRADED == 1 && (old.flt.chanA.qualified || old.flt.chanB.qualified)
  s.setFld fFLT_STATUS_SAFE_DEGRADED (if degraded then 1 else 0)

/-- The part without power: everything as at power-up, but media, the firmware store, the key store and, with P3V3_STBY
applied, the always-on domain. (DEDUCED, log entry 83.) -/
def State.powerDown (s : State) (standby : Bool) (stored : Nat) : State :=
  let s := if s.mod.pwrGood ∧ s.fld fPWR_STATUS_HOLDUP_OK = 1 then s.startFlush else s
  let s := if s.hw.variant.hasMedia then s.flushTo stored else s
  let media := s.hw.variant.hasMedia
  let keys := media || standby
  let t : State := { State.reset with
    hw := s.hw
    freeCtr := s.freeCtr
    pending := s.pending
    out := s.out
    data := Map.mapVals s.data (fun _ d => d.unpowered media keys)
    media := if media then s.media.unpowered else MediaState.off
    sec := s.sec.unpowered keys
    fw := s.storedFw
    flt := if standby then s.flt.standby s.dtime else { FaultState.off with
      chanA := { Channel.idle with raw := s.flt.chanA.raw }
      chanB := { Channel.idle with raw := s.flt.chanB.raw } }
    mod := { ModState.dead with modReset := s.mod.modReset, perst := s.mod.perst, p3v3 := standby, p12v := standby && s.mod.p12v } }
  if standby then State.keepAlwaysOn s t else t

/-- The monitor at the return of power: a channel pair that still stands asserted is a demand (R394: in any state,
including boot). (DEDUCED, log entry 60.) -/
def State.monitorStart (s : State) : State :=
  let s := s.showChannels
  if s.flt.chanA.qualified ∧ s.flt.chanB.qualified then s.loneDemand false
  else if s.fld fFLT_STATUS_SAFE_DEGRADED = 1 ∧ (s.flt.chanA.qualified ∨ s.flt.chanB.qualified) then s.loneDemand false
  else s

/-- P54V goes; `stored`: entries of the write buffer that the hold-up store let the flush program. -/
def execP54vRemove (stored : Nat) (s : State) : Step' :=
  always s (fun s => if s.mod.p54v then s.powerDown true stored else s)

/-- P3V3_STBY_REMOVE (R359). Removing P3V3_STBY is full power removal and clears the always-on domain.
(UNVERIFIED, log entry 84.) -/
def execP3v3StbyRemove (stored : Nat) (s : State) : Step' :=
  always s (fun s => if s.mod.p3v3 then s.powerDown false stored else s)

/-- A rail applied in order is taken; one applied out of order holds the module in module reset.
(UNVERIFIED, log entry 84.) -/
def execRailApply (rail : Rail) (s : State) : Step' :=
  always s (fun s =>
    let m := s.mod
    let (have', ok, m') : Bool × Bool × ModState := match rail with
      | .p3v3Stby => (m.p3v3, true, { m with p3v3 := true })
      | .p12vAux => (m.p12v, m.p3v3, { m with p12v := true })
      | .p54v => (m.p54v, m.p3v3 && m.p12v, { m with p54v := true, held := false })
    if have' then s
    else if !ok then
      let s := if s.safe then s else s.moduleReset
      s.setMod { s.mod with held := true }
    else
      let s := s.setMod m'
      if rail = .p54v then s.monitorStart.showFaultOut else s)

/-! ## PWR_GOOD and the hold-up store (R446, R447) -/

def execPwrGoodFall (s : State) : Step' :=
  always s (fun s =>
    if !s.mod.pwrGood then s
    else
      let s := s.setMod { s.mod with pwrGood := false }
      if s.fld fPWR_STATUS_HOLDUP_OK = 1 then s.startFlush else s)

/-- A flush under way runs to its end, and a module reset follows it. -/
def execPwrGoodRise (s : State) : Step' :=
  always s (fun s =>
    if s.mod.pwrGood then s
    else s.setMod { s.mod with
      pwrGood := true
      resetDue := s.media.flushing.isSome && !s.safe })

/-- HOLDUP_OK takes a level; the write buffer is power-protected only while it is high (R291). -/
def State.setHoldup (s : State) (ok : Bool) : State :=
  let v := if ok then 1 else 0
  if s.fld fPWR_STATUS_HOLDUP_OK = v then s
  else
    let s := (s.setFld fPWR_STATUS_HOLDUP_OK v).emit (.pin .holdupOk ok)
    let s := if s.hw.variant.hasMedia ∧ s.mediaSt ≠ msOFF then s.setFld fMED_STATUS_WRITE_THROUGH (1 - v) else s
    if ok then s else (s.flag fPWR_ERR_HOLDUP_LOST).raise srcPOWER stHOLDUP_LOST 0 noCtx .f0

/-- HOLDUP_OK_FALL (R447). HOLDUP_OK falls when usable energy drops below 30 J, raising HOLDUP_LOST and
putting the write buffer into write-through. -/
def execHoldupOkFall (s : State) : Step' := always s (fun s => s.setHoldup false)
/-- HOLDUP_OK_RISE (R447). HOLDUP_OK rises once the hold-up store holds at least 30 J usable energy, ending
write-through under R291. -/
def execHoldupOkRise (s : State) : Step' := always s (fun s => if s.mod.p54v then s.setHoldup true else s)

/-- A measurement, at power-up and every 24 h; `joules` is the usable energy. -/
def execHoldupMeasure (joules : Nat) (s : State) : Step' :=
  always s (fun s =>
    if !s.mod.p54v ∨ (s.mod.measuredAt ≠ 0 ∧ s.dtime < s.mod.measuredAt + 24 * 3600 * 10 ^ 9) then s
    else (s.setMod { s.mod with measuredAt := s.dtime }).setHoldup (30 ≤ joules))

/-! ## The governor (R448 to R450) -/

/-- The least of the coolant's bounds on B, in W. -/
def coolantBound (inlet pulses ppl : Nat) (noPulse : Bool) : Nat :=
  let hot := if 40 < inlet then 2500 - 50 * (inlet - 40) else 2500
  let slow := if pulses * 60 < 2 * ppl then 2500 * (pulses * 60) / (2 * ppl) else 2500
  let dry := if pulses * 60 < ppl ∨ noPulse then 1200 else 2500
  min hot (min slow dry)

/-- `allow_next` of R449: the most the next sample may be, from the last 999 samples. -/
def allowNext (budget : Nat) (p : List Nat) : Int :=
  let sum : Nat := p.foldl (· + ·) 0
  let above := (p.filter (fun x => decide (budget < x))).length
  let allow := min (1000 * (budget : Int) - (sum : Int)) 3100
  if 500 ≤ above then min allow (budget : Int) else allow

/-- The largest duty of 64 down to 1 whose predicted input does not exceed allow, else 1; tile estimates in 0.1 W. -/
def dutyFor (nonTile est : Nat) (allow : Int) : Nat :=
  (((List.range 64).map (64 - ·)).find? (fun d => decide (((nonTile * 640 + est * d : Nat) : Int) ≤ allow * 640))).getD 1

def sumOf (xs : List Nat) : Nat := xs.foldl (· + ·) 0

/-- Every running lane of the tile stalls on WORK.GET, on a peg WAIT or on a device barrier WAIT.
(DEDUCED, log entry 32.) -/
def State.tileWaits (s : State) (t : Nat) : Bool :=
  let inWait := fun (l k : Nat) => s.sync.waits.any (fun w => w.tile == t && w.lane == l && w.ticket == k)
    || (s.barsOf (s.tileCtx t)).vals.any (fun b => b.waiters.any (fun w => w.1 == t && w.2.1 == l && w.2.2.1 == k))
  let running := (s.tile t).lanes.filter (fun e => e.2.run == .running)
  !running.isEmpty && running.all (fun e => match e.2.stall with
    | .workGet _ => true
    | .ewait k => inWait e.1 k
    | _ => false)

/-- The duty that lending leaves a tile: a waiting tile counts as 3 W, and what is left of 13.4 W per READY tile is shared
by the context's busy tiles, up to 20 W each. (DEDUCED, log entry 32.) -/
def State.lentDuty (s : State) (est : Nat → Nat) (t : Nat) : Nat :=
  let ready := s.readyTiles (s.tileCtx t)
  let busy := ready.filter (fun u => !s.tileWaits u)
  if !busy.contains t then 64
  else
    let used := 30 * (ready.length - busy.length) + sumOf (busy.map est)
    let share := (134 * (ready.length : Int) - (used : Int)) / (busy.length : Int)
    let allowance := (min (200 : Int) (Int.ofNat (est t) + share)).toNat
    if est t ≤ allowance then 64 else max 1 (allowance * 64 / est t)

/-- Duties of all seated tiles; a hard thermal throttle holds each at 16 or less (R451).
(DEDUCED, log entry 32.) -/
def State.setDuties (s : State) (global : Nat) (est : Nat → Nat) : State :=
  let cap := if s.fld fPWR_STATUS_THROTTLE_HARD = 1 then 16 else 64
  let ts := (List.range s.hw.variant.tiles).filter (fun t => s.fld (fTILE_STATE_SEATED t) == 1)
  let ds := ts.map (fun t => (t, min cap (min global (s.lentDuty est t))))
  ds.foldl (fun s e => s.mapTile e.1 (fun r => { r with duty := e.2 })) s

/-- B of R448 after a soft throttle's percentage, and the bound the coolant gives.
(DEDUCED, log entry 32.) -/
def State.budget (s : State) (bound : Nat) : Nat :=
  min (s.fld fPWR_CFG_BUDGET_W) bound * (100 - s.pwr.lowered) / 100

/-- COOLANT_LOW when the coolant first takes B below BUDGET_W. -/
def State.coolant (s : State) (bound : Nat) : State :=
  let low := decide (bound < s.fld fPWR_CFG_BUDGET_W)
  let was := s.pwr.coolLow
  let s := s.setPwr { s.pwr with coolLow := low }
  if low ∧ !was then (s.flag fPWR_ERR_COOLANT_LOW).raise srcPOWER stCOOLANT_LOW 0 noCtx .f0 else s

/-- THROTTLE_MS counts whole ms with the global duty below 64. -/
def State.countThrottle (s : State) (ns : Nat) : State :=
  let n := s.pwr.belowNs + (if s.fld fPWR_STATUS_DUTY < 64 then ns else 0)
  (s.setPwr { s.pwr with belowNs := n % 1000000 }).bump fPWR_THROTTLE_COUNT_THROTTLE_MS (n / 1000000)

/-- What a sample does: the coolant's bound, the throttle time, the mean, B, the allowance and every tile's duty (R448 to R451).
(DEDUCED, log entry 83.) -/
def State.governor (s : State) (input nonTile : Nat) (estimates : List Nat) (pulses inlet : Nat) (noPulse : Bool) : State :=
  let ppl := s.fld fPWR_CFG_TACH_PPL
  let bound := coolantBound inlet pulses ppl noPulse
  let s := (s.coolant bound).countThrottle (s.dtime - s.pwr.sampledAt)
  let samples : List Nat := (input :: s.pwr.samples).take 1000
  let s := s.setPwr { s.pwr with samples := samples, sampledAt := s.dtime }
  let b := s.budget bound
  let allow := allowNext b (samples.take 999)
  let est := fun (t : Nat) => estimates.getD t 0
  let seated := (List.range s.hw.variant.tiles).filter (fun t => s.fld (fTILE_STATE_SEATED t) == 1)
  let d := dutyFor nonTile (sumOf (seated.map est)) allow
  let s := (s.setFld fPWR_STATUS_INPUT_W (min input 65535)).setFld fPWR_STATUS_AVG_W (min (sumOf samples / 1000) 65535)
  let s := (s.setFld fPWR_STATUS_BUDGET_W b).setFld fPWR_STATUS_DUTY d
  let s := (s.setFld fPWR_THERMAL_INLET_C (min inlet 255)).setFld fPWR_THERMAL_FLOW_CLPM (min (pulses * 6000 / ppl) 65535)
  let s := s.setDuties d est
  if allow < (nonTile : Int) then
    ((s.flag fPWR_ERR_CLAMP).bump fPWR_THROTTLE_COUNT_CLAMPS 1).raise srcPOWER stPOWER_CLAMP 0 noCtx .f0
  else s

/-- A sample: input and non-tile power in W, an estimate per tile at duty 64 in 0.1 W, flow meter pulses per second, inlet
in °C, and whether the meter has been still for 2 s. -/
def execGovernorSample (input nonTile : Nat) (estimates : List Nat) (pulses inlet : Nat) (noPulse : Bool) (s : State) : Step' :=
  act s (fun s =>
    if !s.mod.p54v ∨ (!s.pwr.samples.isEmpty ∧ s.dtime < s.pwr.sampledAt + 10000) then s
    else s.governor input nonTile estimates pulses inlet noPulse)

/-! ## Thermal limits (R451) -/

/-- THERMAL_THROTTLE at the first limit of an episode. (DEDUCED, log entry 66.) -/
def State.softLimit (s : State) (sensor : Nat) : State :=
  let began := s.fld fPWR_STATUS_THROTTLE_SOFT = 0
  let s := if s.pwr.falling then s else s.setPwr { s.pwr with falling := true, stepAt := s.dtime }
  let s := (s.flag fPWR_STATUS_THROTTLE_SOFT).flag fPWR_ERR_THERMAL_SOFT
  if began then s.raise srcPOWER stTHERMAL_THROTTLE sensor noCtx .f0 else s

/-- Every tile's duty becomes at most 16. (DEDUCED, log entry 83.) -/
def State.hardLimit (s : State) : State :=
  let s := (s.flag fPWR_STATUS_THROTTLE_HARD).flag fPWR_ERR_THERMAL_HARD
  { s with tiles := Map.mapVals s.tiles (fun _ r => { r with duty := min r.duty 16 }) }

/-- What a reading of the hottest junction does (R451): the trip at 112, the limits at 100 and 105, their release. -/
def State.junction (s : State) (sensor tj : Nat) : State :=
  let before := s.fld fPWR_THERMAL_TJ_MAX_C
  let s := (s.setPwr { s.pwr with thermalAt := s.dtime }).setFld fPWR_THERMAL_TJ_MAX_C (min tj 255)
  let s := if 112 ≤ tj ∧ before < 112 then s.raise srcPOWER stTHERMAL_TRIP sensor noCtx .f5 else s
  let s := if 100 ≤ tj then s.softLimit sensor else s
  let s := if 105 ≤ tj then s.hardLimit else if tj ≤ 100 then s.unflag fPWR_STATUS_THROTTLE_HARD else s
  if tj ≤ 98 ∧ s.pwr.falling then s.setPwr { s.pwr with falling := false, stepAt := s.dtime } else s

/-- A sample of the junction sensors: the hottest sensor and its reading in °C.
(DEDUCED, log entry 89.) -/
def execThermalSample (sensor tj : Nat) (s : State) : Step' :=
  always s (fun s =>
    if !s.mod.p54v ∨ (s.fld fPWR_THERMAL_TJ_MAX_C ≠ 0 ∧ s.dtime < s.pwr.thermalAt + 100000) then s
    else s.junction sensor tj)

/-- THERMAL_SOFT_STEP (R451). During a soft throttle, B is lowered by 2 % every 1 ms or raised by 1 % every 10
ms. -/
def execThermalSoftStep (s : State) : Step' :=
  act s (fun s =>
    let p := s.pwr
    if s.fld fPWR_STATUS_THROTTLE_SOFT = 0 ∨ s.dtime < p.stepAt + (if p.falling then 1000000 else 10000000) then s
    else if p.falling then s.setPwr { p with lowered := min 100 (p.lowered + 2), stepAt := s.dtime }
    else
      let s := s.setPwr { p with lowered := p.lowered - 1, stepAt := s.dtime }
      if s.pwr.lowered = 0 then s.unflag fPWR_STATUS_THROTTLE_SOFT else s)

end Sys2Proof.Machine
end

