-- ==== Sys2Proof/Machine/Rings.lean ====
section
/-!
DEFINITION. Commands of the host rings (R421, R431 to R436, R350, R356): examination of descriptors, completions, events,
quantum instants, and the opcodes NOP and DUMP.
-/
namespace Sys2Proof.Machine

/-! ## Examination (Tables 19.11 and 19.14) -/

/-- Who may issue an opcode, and its STAGED rule. -/
inductive Issuer where
  | both | owner | tenant
  deriving DecidableEq, Repr

inductive StagedRule where
  | no | always | byKind
  deriving DecidableEq, Repr

/-- Table 19.14; 0xF7 to 0xFF name nothing (R462). -/
def opcodeRule (op : Nat) : Option (Issuer × StagedRule) :=
  if op ≤ 4 ∧ 1 ≤ op then some (.both, .no)
  else if op = 5 then some (.both, .byKind)
  else if op = 6 ∨ op = 7 ∨ (0x10 ≤ op ∧ op ≤ 0x14) ∨ op = 0x18 ∨ op = 0x19 then some (.tenant, .no)
  else if (0x20 ≤ op ∧ op ≤ 0x25) ∨ (0x28 ≤ op ∧ op ≤ 0x2D) ∨ (0x38 ≤ op ∧ op ≤ 0x3B) then some (.both, .no)
  else if op = 0x40 then some (.owner, .always)
  else if (0x41 ≤ op ∧ op ≤ 0x4A) ∨ (0xF0 ≤ op ∧ op ≤ 0xF6) then some (.owner, .no)
  else none

def Issuer.permits : Issuer → Nat → Bool
  | .both, _ => true
  | .owner, c => c == 0
  | .tenant, c => c != 0

def StagedRule.permits : StagedRule → Bool → Bool
  | .no, staged => !staged
  | .always, staged => staged
  | .byKind, _ => true

/-- What a context's state does to a submission (R350): none lets it start.
(DEDUCED, log entry 68.) -/
def submissionStatus (st op : Nat) : Option Status :=
  if st = csACTIVE then none
  else if st = csDEFINED then (if op = 1 ∨ op = 3 ∨ op = 4 then none else some stCTX_STATE)
  else if st = csSTOPPED ∨ st = csRESETTING ∨ st = csFENCED then some stCTX_RESET
  else some stCTX_STATE

/-- Reserved bytes 0, LEN in range, EFFECTIVE_STEP 0 unless the opcode takes one. -/
def descriptorOk (d : Bytes) : Bool :=
  let op := fieldAt d 0 1
  fieldAt d 1 1 < 2 && fieldAt d 2 2 == 0 && fieldAt d 20 4 == 0 && fieldAt d 16 4 ≤ 2 ^ 30 + 4096
    && (op == 0x05 || op == 0x38 || fieldAt d 24 8 == 0)

/-- The status with which a descriptor is refused when it is examined (R432), in the order of that rule.
(DEDUCED, log entry 68.) -/
def State.examineStatus (s : State) (c : Nat) (d : Bytes) (dma : Bool) : Option Status :=
  let op := fieldAt d 0 1
  match opcodeRule op with
  | none => some stHOST_OPCODE
  | some (who, staged) =>
    if !who.permits c || (s.mod.recovery && op < 0xF0) then some stHOST_OPCODE
    else match submissionStatus (s.ctxState c) op with
      | some st => some st
      | none =>
        if !descriptorOk d || !staged.permits (bitOf (fieldAt d 1 1) 0) then some stHOST_ARGS
        else if !dma then some stHOST_DMA
        else none

/-- Host rings of a context are examined: boot complete, or CTX0's in recovery; not in D3hot, not in the pause of a switch. -/
def State.ringsServed (s : State) (c : Nat) : Bool :=
  s.reaches c && (s.fld fGLB_STATUS_READY == 1 || s.mod.recovery) && !s.host.d3hot
    && !((s.fw.switching.map (·.1)) == some 1)

/-- The management processor takes the next descriptor of an SQ. (DEDUCED, log entry 58.) -/
def State.examine (s : State) (c q : Nat) (d : Bytes) (dma : Bool) : State :=
  let x := (s.fld (fRING_STATUS_INDEX c q) + 1) % s.ringSize c q
  let s := s.setFld (fRING_STATUS_INDEX c q) x
  let r : HostReq := {
    ctx := c, sq := q, opcode := fieldAt d 0 1, staged := bitOf (fieldAt d 1 1) 0, tag := fieldAt d 4 4, addr := fieldAt d 8 8,
    len := fieldAt d 16 4, effStep := fieldAt d 24 8, args := slice d 32 32, sqHead := x }
  match s.examineStatus c d dma with
  | some st => s.answer r st
  | none => { s with host := { s.host with started := s.host.started ++ [r] } }

/-- An SQ has a descriptor to examine and its CQ has room. -/
def State.canExamine (s : State) (c q : Nat) : Bool :=
  let cq := s.fld (fRING_CFG_CQ c q)
  s.ringsServed c && s.ringOn c q rkSQ && !s.ringError c q
    && s.fld (fRING_STATUS_INDEX c q) != (s.ringPtr c q).mark && s.ringRoom c cq

/-- desc: the 64 bytes at the SQ's INDEX (readOk false: the read of host memory ends in a PCIe error); dma: whether the
descriptor's buffer can be read and written. -/
def execDescriptorExamine (ctx : Fin 64) (sq : Fin 256) (readOk : Bool) (desc : Vector Byte 64) (dma : Bool) (s : State) : Step' :=
  act s (fun s =>
    if !s.canExamine ctx sq then s
    else if !readOk then s.ringFault ctx sq
    else s.examine ctx sq desc.toList dma)

/-! ## What the device writes -/

def execCompletionRelease (ctx : Fin 64) (cq : Fin 256) (s : State) : Step' :=
  act s (fun s => if s.atQuantum ctx then s.releaseOne ctx cq else s)

/-- EVENT_ENTRY_WRITE (R434). The device writes a sealed or plaintext 64-byte event entry, or drops it when
the ring is full. -/
def execEventEntryWrite (ctx : Fin 64) (s : State) : Step' :=
  act s (fun s => if s.atQuantum ctx then s.writeEvent ctx else s)

/-- Sends the messages a tenant context holds, those of one vector as one. -/
def State.sendHeld (s : State) (c : Nat) : State :=
  let m := s.msixOf c
  let s := s.setMsix c { m with held := 0 }
  (List.range 32).foldl (fun s v => if bitOf m.held v then s.emit (.msix c v) else s) s

/-- QUANTUM_INSTANT (R356). At each QUANTUM_US instant, the held completions and MSI-X messages of a tenant
context are released, with messages of one vector merged. -/
def execQuantumInstant (ctx : Fin 64) (s : State) : Step' :=
  act s (fun s =>
    if ctx = 0 ∨ !s.atQuantum ctx then s
    else
      let due := s.host.done.filter (fun e => e.ctx == ctx.val)
      (due.foldl (fun s e => s.releaseOne ctx e.cq) s).sendHeld ctx)

/-- A vector's mask bit is cleared by its function. (DEDUCED, log entry 90.) -/
def execMsixUnmask (fn : Fin 64) (vector : Fin 32) (s : State) : Step' :=
  act s (fun s =>
    let m := s.msixOf fn
    if !s.reaches fn ∨ !bitOf m.masked vector then s
    else
      let waits := bitOf m.pendingBits vector
      let s := s.setMsix fn { m with
        masked := putBits m.masked vector 1 0
        pendingBits := putBits m.pendingBits vector 1 0 }
      if waits then s.signal fn vector else s)

/-- PF0 enters or leaves D3hot. (DEDUCED, log entry 90.) -/
def execPf0PowerState (d3hot : Bool) (s : State) : Step' :=
  act s (fun s => if s.pcieUp then { s with host := { s.host with d3hot := d3hot } } else s)

/-! ## NOP and DUMP -/

def execNop (ctx : Fin 64) (sq : Fin 256) (s : State) : Step' :=
  act s (fun s => s.onReq ctx sq 0x01 (fun s r => s.answer r stOK))

/-- The sealed snapshot of R334; a buffer too short for it is a bad length.
(DEDUCED, log entry 73.) -/
def execDump (ctx : Fin 64) (sq : Fin 256) (s : State) : Step' :=
  act s (fun s => s.onReq ctx sq 0x02 (fun s r =>
    match s.sealOut ctx (s.syncDump ctx) with
    | none => s.answer r stSEC_NO_KEYS
    | some (n, ct, tag, t) =>
      let out := sealedBytes n ct tag
      if r.len < out.length then s.answer r stHOST_ARGS else (t.writeBuf r out).answer r stOK))

end Sys2Proof.Machine
end

