-- ==== Sys2Proof/Machine/Services.lean ====
section
/-!
DEFINITION. The hub services that tiles and hub agents call: the Innkeeper (R311 to R324, Table 13.4), the peg unit (R325)
and the device barriers (R331).
-/
namespace Sys2Proof.Machine

/-- Unused argument bytes of a service call must be 0 (Table 13.4); the used ranges are (offset, size) in bytes 32 to 63. -/
def unusedZero (d : Bytes) (usedRanges : List (Nat × Nat)) : Bool :=
  (List.range 32).all (fun i =>
    usedRanges.any (fun r => r.1 ≤ 32 + i && 32 + i < r.1 + r.2) || fieldAt d (32 + i) 1 == 0)

/-- A service call of a lane: its argument rule, then its effect; the service answers a length, a status and output. -/
def State.service (s : State) (t engine op : Nat) (usedRanges : List (Nat × Nat))
    (body : Call → State → EngRes × State) : State :=
  s.onCall t engine op (fun c =>
    if !unusedZero c.desc usedRanges then s.completeCall t c 0 stINK_ARGS
    else
      let (e, s') := body c s
      if (descOut c.desc).2 < e.out.length then s.completeCall t c 0 stINK_ARGS else s'.finishCall t c e)

def answer (st : Status) : EngRes := ⟨st, 0, []⟩

/-- An output of a service call. -/
def output (d : Bytes) : EngRes := ⟨stOK, d.length, d⟩

/-- Whether a tile has a DMA or decode access in flight on a chain (R316). -/
def TileRec.accesses (r : TileRec) (h : Nat) : Bool :=
  r.calls.any (fun c => (c.engine == 0x00 || c.engine == 0x14 || c.engine == 0x15) && fieldAt c.desc 32 8 == h)

/-- The class and count of an allocation are in range (Table 13.4). -/
def allocArgsOk (cls n : Nat) : Bool := cls ≤ 2 && 1 ≤ n && n ≤ 2048

/-- ALLOC (R321). The Innkeeper admits and allocates a chain of buffers under the booking and cap, and returns
its handle. -/
def execAlloc (who : InkCaller) (cls : Fin 4) (count : Nat) (s : State) : Step' :=
  act s (fun s => match who with
    | .call t => s.service t 0x10 0x01 [(40, 1), (42, 2)] (fun c s =>
        let cl := fieldAt c.desc 40 1
        let n := fieldAt c.desc 42 2
        if !allocArgsOk cl n then (answer stINK_ARGS, s)
        else match s.alloc (s.tileCtx t) cl n agTILE t with
          | .error st => (answer st, s)
          | .ok (h, s) => (output (toLE 8 h), s))
    | .hub agent ctx =>
      if !allocArgsOk cls count then s.inkDefect ctx cls stINK_ARGS
      else match s.alloc ctx cls count agent 0 with
        | .error _ => s
        | .ok (_, s) => s)

/-- EXTEND (R321). The Innkeeper admits and appends buffers to a chain owned by the caller. -/
def execExtend (who : InkCaller) (handle : Nat) (cls : Fin 4) (count : Nat) (s : State) : Step' :=
  act s (fun s => match who with
    | .call t => s.service t 0x10 0x02 [(32, 8), (40, 1), (42, 2)] (fun c s =>
        let cl := fieldAt c.desc 40 1
        let n := fieldAt c.desc 42 2
        let ctx := s.tileCtx t
        match s.findChain ctx (fieldAt c.desc 32 8) (some (agTILE, t.val)) with
        | .error st => (answer st, s)
        | .ok (num, ch) =>
          if !allocArgsOk cl n then (answer stINK_ARGS, s)
          else match s.extend ctx num ch cl n with
            | .error st => (answer st, s)
            | .ok s => (answer stOK, s))
    | .hub agent ctx => match s.findChain ctx handle (some (agent.val, 0)) with
      | .error st => s.inkDefect ctx cls st
      | .ok (num, ch) =>
        if !allocArgsOk cls count then s.inkDefect ctx cls stINK_ARGS
        else match s.extend ctx num ch cls count with
          | .error _ => s
          | .ok s => s)

/-- FREE waits until every access to the chain has completed (R316): until then the call stays in its queue. -/
def execFree (who : InkCaller) (handle : Nat) (s : State) : Step' :=
  act s (fun s => match who with
    | .call t =>
      let busy := match s.headCall t 0x10 with
        | some c => (s.tile t).accesses (fieldAt c.desc 32 8)
        | none => false
      if busy then s
      else s.service t 0x10 0x03 [(32, 8)] (fun c s =>
        match s.findChain (s.tileCtx t) (fieldAt c.desc 32 8) (some (agTILE, t.val)) with
        | .error st => (answer st, s)
        | .ok (num, _) => (answer stOK, s.freeNum (s.tileCtx t) num))
    | .hub agent ctx => match s.findChain ctx handle (some (agent.val, 0)) with
      | .error st => s.inkDefect ctx (bitsOf handle 62 2) st
      | .ok (num, _) => s.freeNum ctx num)

/-- Agents a lane may hand off to (Table 13.2). -/
def laneMayGive (agent : Nat) : Bool := agent == agDISPATCH || agent == agEXCHANGE || agent == agPACKER

/-- HANDOFF (R316). The Innkeeper changes a chain's owning agent once the owner's in-flight accesses complete.
-/
def execHandoff (who : InkCaller) (handle : Nat) (agent : Fin 8) (s : State) : Step' :=
  act s (fun s => match who with
    | .call t =>
      let busy := match s.headCall t 0x10 with
        | some c => (s.tile t).accesses (fieldAt c.desc 32 8)
        | none => false
      if busy then s
      else s.service t 0x10 0x04 [(32, 8), (44, 1)] (fun c s =>
        let h := fieldAt c.desc 32 8
        let agt := fieldAt c.desc 44 1
        match s.findChain (s.tileCtx t) h (some (agTILE, t.val)) with
        | .error st => (answer st, s)
        | .ok (num, ch) =>
          if !laneMayGive agt then (answer stINK_ARGS, s)
          else (answer stOK, s.setChain (s.tileCtx t) num { ch with owner := agt }))
    | .hub from_ ctx => match s.findChain ctx handle (some (from_.val, 0)) with
      | .error st => s.inkDefect ctx (bitsOf handle 62 2) st
      | .ok (num, ch) => s.setChain ctx num { ch with owner := agent })

/-- INK_INFO (R318). The Innkeeper returns a chain's bytes and buffer count. -/
def execInkInfo (tile : Fin 96) (s : State) : Step' :=
  act s (fun s => s.service tile 0x10 0x05 [(32, 8)] (fun c s =>
    match s.findChain (s.tileCtx tile) (fieldAt c.desc 32 8) none with
    | .error st => (answer st, s)
    | .ok (_, ch) => (output (toLE 8 ch.size ++ toLE 2 ch.bufs.length), s)))

/-- BUFFER_SCRUB_COMPLETE (R320). A freed buffer finishes scrubbing and enters its class cache, which spills
to the ring at 448 entries. -/
def execBufferScrubComplete (cls : Fin 3) (s : State) : Step' :=
  act s (fun s => match (s.pool cls).scrub with
    | [] => s
    | i :: r => s.setPool cls (Pool.give { s.pool cls with scrub := r } i))

/-! ## Pegs (R325) -/

def execPegAdd (who : InkCaller) (peg value : Nat) (s : State) : Step' :=
  act s (fun s => match who with
    | .call t => s.service t 0x11 0x01 [(32, 2), (36, 4)] (fun c s =>
        let n := fieldAt c.desc 36 4
        if n = 0 then (answer stINK_ARGS, s)
        else
          let (st, s) := s.addPeg (s.tileCtx t) (fieldAt c.desc 32 2) n
          (answer st, s))
    | .hub _ ctx => (s.addPeg ctx peg value).2)

/-- A WAIT completes when the peg is at least VALUE; else it waits in the peg unit, which holds 16,384. -/
def execPegWait (tile : Fin 96) (s : State) : Step' :=
  act s (fun s => s.onCall tile 0x11 0x02 (fun c =>
    let ctx := s.tileCtx tile
    let v := fieldAt c.desc 32 2
    let n := fieldAt c.desc 36 4
    if !unusedZero c.desc [(32, 2), (36, 4)] then s.completeCall tile c 0 stINK_ARGS
    else match s.peg ctx v with
      | none => s.completeCall tile c 0 stPEG_UNMAPPED
      | some p =>
        if n ≤ p.value then s.completeCall tile c 0 stOK
        else if 16384 ≤ s.sync.waits.length then s
        else
          let s := s.mapTile tile (fun r => { r with calls := r.calls.filter (fun d => d.seq != c.seq) })
          let w : PegWait := { ctx := ctx, peg := v, value := n, tile := tile, lane := c.lane, ticket := c.ticket }
          { s with sync := { s.sync with waits := s.sync.waits ++ [w] } }))

/-- PEG_READ (R325). The peg unit returns a peg's value. -/
def execPegRead (tile : Fin 96) (s : State) : Step' :=
  act s (fun s => s.service tile 0x11 0x03 [(32, 2)] (fun c s =>
    match s.peg (s.tileCtx tile) (fieldAt c.desc 32 2) with
    | none => (answer stPEG_UNMAPPED, s)
    | some p => (output (toLE 4 p.value), s)))

/-- PEG_SET (R325). The peg unit writes a peg's value and re-tests every waiter. -/
def execPegSet (who : InkCaller) (peg value : Nat) (s : State) : Step' :=
  act s (fun s => match who with
    | .call t => s.service t 0x11 0x04 [(32, 2), (36, 4)] (fun c s =>
        let v := fieldAt c.desc 32 2
        match s.peg (s.tileCtx t) v with
        | none => (answer stPEG_UNMAPPED, s)
        | some _ => (answer stOK, s.setPeg (s.tileCtx t) v (fieldAt c.desc 36 4)))
    | .hub _ ctx => s.setPeg ctx peg (value % 2 ^ 32))

/-! ## Device barriers (R331) -/

/-- An arrival of a tile on a barrier of its context, or the lane fault it takes. -/
def State.dbarArrive (s : State) (ctx t v : Nat) (sense : Bool) : Except Status State :=
  match Map.find (s.barsOf ctx) v with
  | none => .error stDBAR_NOT_MEMBER
  | some b =>
    if !b.members.contains t then .error stDBAR_NOT_MEMBER
    else if b.arrived.contains t || sense == b.sense then .error stDBAR_SENSE
    else .ok ((s.setBar ctx v { b with arrived := b.arrived ++ [t] }).releaseBar ctx v)

/-- DBAR_ARRIVE (R331). A tile's arrival on a device barrier is gathered by its quarter, and the hub releases
the barrier when every participant has arrived. (DEDUCED, log entry 24.) -/
def execDbarArrive (tile : Fin 96) (s : State) : Step' :=
  act s (fun s => s.onCall tile 0x12 0x01 (fun c =>
    let sense := fieldAt c.desc 34 1
    let v := fieldAt c.desc 32 2
    if !unusedZero c.desc [(32, 2), (34, 1)] || 1 < sense || 255 < v then s.completeCall tile c 0 stINK_ARGS
    else match s.dbarArrive (s.tileCtx tile) tile v (sense == 1) with
      | .error st => (s.completeCall tile c 0 st).laneFault tile c.lane st
      | .ok s => s.completeCall tile c 0 stOK))

/-- DBAR_WAIT (R331). A device barrier WAIT completes when the barrier sense equals SENSE. -/
def execDbarWait (tile : Fin 96) (s : State) : Step' :=
  act s (fun s => s.onCall tile 0x12 0x02 (fun c =>
    let sense := fieldAt c.desc 34 1
    let v := fieldAt c.desc 32 2
    let ctx := s.tileCtx tile
    if !unusedZero c.desc [(32, 2), (34, 1)] || 1 < sense || 255 < v then s.completeCall tile c 0 stINK_ARGS
    else match Map.find (s.barsOf ctx) v with
      | none => (s.completeCall tile c 0 stDBAR_NOT_MEMBER).laneFault tile c.lane stDBAR_NOT_MEMBER
      | some b =>
        if b.sense = (sense == 1) then s.completeCall tile c 0 stOK
        else
          let s := s.mapTile tile (fun r => { r with calls := r.calls.filter (fun d => d.seq != c.seq) })
          s.setBar ctx v { b with waiters := b.waiters ++ [(tile.val, c.lane, c.ticket, sense == 1)] }))

end Sys2Proof.Machine
end

