-- ==== Sys2Proof/Machine/Dispatch.lean ====
section
/-!
DEFINITION. One arm per command: a direct call of its meaning.
-/
namespace Sys2Proof.Machine

def exec (i : Instr) (s : State) : Host.Outcome State Fault Refusal :=
  match i with
  | .registerWrite access value => Sys2Proof.Machine.execRegisterWrite access value s
  | .rcRegisterRead access => Sys2Proof.Machine.execRcRegisterRead access s
  | .lowerHalfRead fn bar off => Sys2Proof.Machine.execLowerHalfRead fn bar off s
  | .upperHalfRead fn bar off => Sys2Proof.Machine.execUpperHalfRead fn bar off s
  | .eventCommit => Sys2Proof.Machine.execEventCommit s
  | .errorLineEvent event => Sys2Proof.Machine.execErrorLineEvent event s
  | .faultCommit => Sys2Proof.Machine.execFaultCommit s
  | .f3UnackWrite fn => Sys2Proof.Machine.execF3UnackWrite fn s
  | .f4UnackWrite fn => Sys2Proof.Machine.execF4UnackWrite fn s
  | .fltForceWrite fn upperOnly value => Sys2Proof.Machine.execFltForceWrite fn upperOnly value s
  | .armF5 fn outF3 => Sys2Proof.Machine.execArmF5 fn outF3 s
  | .shadowPairStart tile => Sys2Proof.Machine.execShadowPairStart tile s
  | .shadowCompare tile => Sys2Proof.Machine.execShadowCompare tile s
  | .shadowThirdCompare tile => Sys2Proof.Machine.execShadowThirdCompare tile s
  | .roundsTileSlice tile outcome => Sys2Proof.Machine.execRoundsTileSlice tile outcome s
  | .roundsSliceEnd tile => Sys2Proof.Machine.execRoundsSliceEnd tile s
  | .roundsDispatchWithhold tile => Sys2Proof.Machine.execRoundsDispatchWithhold tile s
  | .roundsCheckerTest checker ok => Sys2Proof.Machine.execRoundsCheckerTest checker ok s
  | .roundsSafeStopTest ok => Sys2Proof.Machine.execRoundsSafeStopTest ok s
  | .safeStopEdge pin asserted => Sys2Proof.Machine.execSafeStopEdge pin asserted s
  | .safeStopQualify pin => Sys2Proof.Machine.execSafeStopQualify pin s
  | .discrepancyTimeout => Sys2Proof.Machine.execDiscrepancyTimeout s
  | .perstNAssert => Sys2Proof.Machine.execPerstNAssert s
  | .modResetNAssert => Sys2Proof.Machine.execModResetNAssert s
  | .pf0Flr => Sys2Proof.Machine.execPf0Flr s
  | .vfFlr vf => Sys2Proof.Machine.execVfFlr vf s
  | .vfDisable => Sys2Proof.Machine.execVfDisable s
  | .vfEnable count => Sys2Proof.Machine.execVfEnable count s
  | .p54vRemove stored => Sys2Proof.Machine.execP54vRemove stored s
  | .p3v3StbyRemove stored => Sys2Proof.Machine.execP3v3StbyRemove stored s
  | .railApply rail => Sys2Proof.Machine.execRailApply rail s
  | .pwrGoodFall => Sys2Proof.Machine.execPwrGoodFall s
  | .pwrGoodRise => Sys2Proof.Machine.execPwrGoodRise s
  | .holdupOkFall => Sys2Proof.Machine.execHoldupOkFall s
  | .holdupMeasure joules => Sys2Proof.Machine.execHoldupMeasure joules s
  | .governorSample input nonTile estimates pulses inlet noPulse => Sys2Proof.Machine.execGovernorSample input nonTile estimates pulses inlet noPulse s
  | .thermalSample sensor tj => Sys2Proof.Machine.execThermalSample sensor tj s
  | .thermalSoftStep => Sys2Proof.Machine.execThermalSoftStep s
  | .quarterIdleEntry quarter idle => Sys2Proof.Machine.execQuarterIdleEntry quarter idle s
  | .quarterWake quarter => Sys2Proof.Machine.execQuarterWake quarter s
  | .clockProfile sq profile => Sys2Proof.Machine.execClockProfile sq profile s
  | .pllUnlock quarter => Sys2Proof.Machine.execPllUnlock quarter s
  | .ppsInEdge offset => Sys2Proof.Machine.execPpsInEdge offset s
  | .ppsInMissing => Sys2Proof.Machine.execPpsInMissing s
  | .ppsOutPulse => Sys2Proof.Machine.execPpsOutPulse s
  | .cdcResync quarter echo => Sys2Proof.Machine.execCdcResync quarter echo s
  | .cdcSyncTimeout quarter => Sys2Proof.Machine.execCdcSyncTimeout quarter s
  | .cdcUncorrected quarter => Sys2Proof.Machine.execCdcUncorrected quarter s
  | .cdcEntryRead quarter up vc => Sys2Proof.Machine.execCdcEntryRead quarter up vc s
  | .doorbellWrite fn off size value => Sys2Proof.Machine.execDoorbellWrite fn off size value s
  | .ringCfgWrite fn ring value => Sys2Proof.Machine.execRingCfgWrite fn ring value s
  | .descriptorExamine ctx sq readOk desc dma => Sys2Proof.Machine.execDescriptorExamine ctx sq readOk desc dma s
  | .completionRelease ctx cq => Sys2Proof.Machine.execCompletionRelease ctx cq s
  | .eventEntryWrite ctx => Sys2Proof.Machine.execEventEntryWrite ctx s
  | .quantumInstant ctx => Sys2Proof.Machine.execQuantumInstant ctx s
  | .msixUnmask fn vector => Sys2Proof.Machine.execMsixUnmask fn vector s
  | .nop ctx sq => Sys2Proof.Machine.execNop ctx sq s
  | .dump ctx sq => Sys2Proof.Machine.execDump ctx sq s
  | .attest ctx sq buf => Sys2Proof.Machine.execAttest ctx sq buf s
  | .reportExpiry ctx => Sys2Proof.Machine.execReportExpiry ctx s
  | .keyDeliver ctx sq buf => Sys2Proof.Machine.execKeyDeliver ctx sq buf s
  | .blob ctx sq engine buf => Sys2Proof.Machine.execBlob ctx sq engine buf s
  | .vocabLoadComplete slot bank engine => Sys2Proof.Machine.execVocabLoadComplete slot bank engine s
  | .vocDiscard ctx sq slot bank => Sys2Proof.Machine.execVocDiscard ctx sq slot bank s
  | .splitConfig ctx sq qpn enable level => Sys2Proof.Machine.execSplitConfig ctx sq qpn enable level s
  | .runConfig ctx sq engine buf => Sys2Proof.Machine.execRunConfig ctx sq engine buf s
  | .runEnd ctx sq => Sys2Proof.Machine.execRunEnd ctx sq s
  | .logExport ctx sq runId first last => Sys2Proof.Machine.execLogExport ctx sq runId first last s
  | .logDelete ctx sq runId => Sys2Proof.Machine.execLogDelete ctx sq runId s
  | .logDigest ctx sq => Sys2Proof.Machine.execLogDigest ctx sq s
  | .ingestOpen ctx sq engine buf => Sys2Proof.Machine.execIngestOpen ctx sq engine buf s
  | .ingestClose ctx sq stream => Sys2Proof.Machine.execIngestClose ctx sq stream s
  | .qpOpen ctx sq cls pd port sub pmtu timeout retry initDepth respDepth => Sys2Proof.Machine.execQpOpen ctx sq cls pd port sub pmtu timeout retry initDepth respDepth s
  | .qpConnect ctx sq qpn peerGid peerQpn sqPsn ePsn => Sys2Proof.Machine.execQpConnect ctx sq qpn peerGid peerQpn sqPsn ePsn s
  | .qpClose ctx sq qpn => Sys2Proof.Machine.execQpClose ctx sq qpn s
  | .qpDestroy ctx sq qpn => Sys2Proof.Machine.execQpDestroy ctx sq qpn s
  | .windowOpen ctx sq kind pd len handle write read => Sys2Proof.Machine.execWindowOpen ctx sq kind pd len handle write read s
  | .windowClose ctx sq key => Sys2Proof.Machine.execWindowClose ctx sq key s
  | .windowCloseComplete window => Sys2Proof.Machine.execWindowCloseComplete window s
  | .pegMap ctx sq peg => Sys2Proof.Machine.execPegMap ctx sq peg s
  | .pegUnmap ctx sq peg => Sys2Proof.Machine.execPegUnmap ctx sq peg s
  | .dbarOpen ctx sq barrier mode => Sys2Proof.Machine.execDbarOpen ctx sq barrier mode s
  | .dbarClose ctx sq barrier => Sys2Proof.Machine.execDbarClose ctx sq barrier s
  | .ldgQueueOpen ctx sq queue mode slotBase slotCount qpn cplAddr cplKey cplEntries => Sys2Proof.Machine.execLdgQueueOpen ctx sq queue mode slotBase slotCount qpn cplAddr cplKey cplEntries s
  | .ldgQueueClose ctx sq queue => Sys2Proof.Machine.execLdgQueueClose ctx sq queue s
  | .txnBegin ctx sq => Sys2Proof.Machine.execTxnBegin ctx sq s
  | .rwtRegisterWrite access value => Sys2Proof.Machine.execRwtRegisterWrite access value s
  | .txnCommit ctx sq => Sys2Proof.Machine.execTxnCommit ctx sq s
  | .txnRollback ctx sq => Sys2Proof.Machine.execTxnRollback ctx sq s
  | .txnCancel ctx sq num => Sys2Proof.Machine.execTxnCancel ctx sq num s
  | .txnApply ctx => Sys2Proof.Machine.execTxnApply ctx s
  | .share sq buf => Sys2Proof.Machine.execShare sq buf s
  | .tileSeat sq ctx mask => Sys2Proof.Machine.execTileSeat sq ctx mask s
  | .tileUnseat sq ctx mask => Sys2Proof.Machine.execTileUnseat sq ctx mask s
  | .vocAssign sq slot ctx => Sys2Proof.Machine.execVocAssign sq slot ctx s
  | .vocUnassign sq slot => Sys2Proof.Machine.execVocUnassign sq slot s
  | .ctxReset sq target => Sys2Proof.Machine.execCtxReset sq target s
  | .ctxTeardown sq target => Sys2Proof.Machine.execCtxTeardown sq target s
  | .teardownComplete ctx => Sys2Proof.Machine.execTeardownComplete ctx s
  | .decommission sq => Sys2Proof.Machine.execDecommission sq s
  | .debugChallenge sq => Sys2Proof.Machine.execDebugChallenge sq s
  | .debugUnlock sq token => Sys2Proof.Machine.execDebugUnlock sq token s
  | .ownerDebugWrite fn value => Sys2Proof.Machine.execOwnerDebugWrite fn value s
  | .ctxResetReq fn ctx => Sys2Proof.Machine.execCtxResetReq fn ctx s
  | .ctxStoppedAck fn ctx => Sys2Proof.Machine.execCtxStoppedAck fn ctx s
  | .dumpCaptureComplete ctx => Sys2Proof.Machine.execDumpCaptureComplete ctx s
  | .contextResetComplete ctx => Sys2Proof.Machine.execContextResetComplete ctx s
  | .updBegin sq buf fit => Sys2Proof.Machine.execUpdBegin sq buf fit s
  | .updWrite sq offset buf => Sys2Proof.Machine.execUpdWrite sq offset buf s
  | .updVerify sq bad fit => Sys2Proof.Machine.execUpdVerify sq bad fit s
  | .updActivate sq fit readBack => Sys2Proof.Machine.execUpdActivate sq fit readBack s
  | .updConfirm sq readBack => Sys2Proof.Machine.execUpdConfirm sq readBack s
  | .updAbort sq => Sys2Proof.Machine.execUpdAbort sq s
  | .updRevert sq => Sys2Proof.Machine.execUpdRevert sq s
  | .updSwitchComplete lowest selfCheck => Sys2Proof.Machine.execUpdSwitchComplete lowest selfCheck s
  | .trialTimeout component => Sys2Proof.Machine.execTrialTimeout component s
  | .bootStage facts => Sys2Proof.Machine.execBootStage facts s
  | .watchdogExpiry => Sys2Proof.Machine.execWatchdogExpiry s
  | .integerOp tile lane op rd rs1 rs2 => Sys2Proof.Machine.execIntegerOp tile lane op rd rs1 rs2 s
  | .integerImmediateOp tile lane op rd rs1 imm => Sys2Proof.Machine.execIntegerImmediateOp tile lane op rd rs1 imm s
  | .load tile lane size signed rd rs1 imm => Sys2Proof.Machine.execLoad tile lane size signed rd rs1 imm s
  | .store tile lane size rd rs1 imm => Sys2Proof.Machine.execStore tile lane size rd rs1 imm s
  | .vectorLoad tile lane vd rs1 imm => Sys2Proof.Machine.execVectorLoad tile lane vd rs1 imm s
  | .vectorStore tile lane vd rs1 imm => Sys2Proof.Machine.execVectorStore tile lane vd rs1 imm s
  | .branch tile lane op rs1 rs2 off => Sys2Proof.Machine.execBranch tile lane op rs1 rs2 off s
  | .jumpAndLink tile lane rd off => Sys2Proof.Machine.execJumpAndLink tile lane rd off s
  | .jumpRegister tile lane rd rs1 imm => Sys2Proof.Machine.execJumpRegister tile lane rd rs1 imm s
  | .vectorIntegerOp tile lane op w vd vs1 vs2 => Sys2Proof.Machine.execVectorIntegerOp tile lane op w vd vs1 vs2 s
  | .vectorPermute tile lane op w vd vs1 vs2 => Sys2Proof.Machine.execVectorPermute tile lane op w vd vs1 vs2 s
  | .floatingPointOp tile lane op w rd rs1 rs2 => Sys2Proof.Machine.execFloatingPointOp tile lane op w rd rs1 rs2 s
  | .barArrive tile lane slot => Sys2Proof.Machine.execBarArrive tile lane slot s
  | .barWait tile lane slot => Sys2Proof.Machine.execBarWait tile lane slot s
  | .barSync tile lane slot => Sys2Proof.Machine.execBarSync tile lane slot s
  | .rank tile lane rd query slot => Sys2Proof.Machine.execRank tile lane rd query slot s
  | .workGet tile lane rd => Sys2Proof.Machine.execWorkGet tile lane rd s
  | .workDone tile lane rs1 => Sys2Proof.Machine.execWorkDone tile lane rs1 s
  | .halt tile lane => Sys2Proof.Machine.execHalt tile lane s
  | .eng tile lane rd rs1 engine op => Sys2Proof.Machine.execEng tile lane rd rs1 engine op s
  | .ewait tile lane rd rs1 => Sys2Proof.Machine.execEwait tile lane rd rs1 s
  | .epoll tile lane rd rs1 => Sys2Proof.Machine.execEpoll tile lane rd rs1 s
  | .tileDmaLoad tile => Sys2Proof.Machine.execTileDmaLoad tile s
  | .tileDmaStore tile => Sys2Proof.Machine.execTileDmaStore tile s
  | .decompressDecode tile => Sys2Proof.Machine.execDecompressDecode tile s
  | .hubDecompressDecode tile => Sys2Proof.Machine.execHubDecompressDecode tile s
  | .decodeFull tile => Sys2Proof.Machine.execDecodeFull tile s
  | .decodeRegion tile => Sys2Proof.Machine.execDecodeRegion tile s
  | .imageInfo tile => Sys2Proof.Machine.execImageInfo tile s
  | .transform tile => Sys2Proof.Machine.execTransform tile s
  | .normalise tile => Sys2Proof.Machine.execNormalise tile s
  | .tokenize tile => Sys2Proof.Machine.execTokenize tile s
  | .detokenize tile => Sys2Proof.Machine.execDetokenize tile s
  | .matmul tile residue => Sys2Proof.Machine.execMatmul tile residue s
  | .filter tile residue => Sys2Proof.Machine.execFilter tile residue s
  | .mix tile => Sys2Proof.Machine.execMix tile s
  | .alloc who cls count => Sys2Proof.Machine.execAlloc who cls count s
  | .extend who handle cls count => Sys2Proof.Machine.execExtend who handle cls count s
  | .free who handle => Sys2Proof.Machine.execFree who handle s
  | .handoff who handle agent => Sys2Proof.Machine.execHandoff who handle agent s
  | .inkInfo tile => Sys2Proof.Machine.execInkInfo tile s
  | .bufferScrubComplete cls => Sys2Proof.Machine.execBufferScrubComplete cls s
  | .pegAdd who peg value => Sys2Proof.Machine.execPegAdd who peg value s
  | .pegWait tile => Sys2Proof.Machine.execPegWait tile s
  | .pegRead tile => Sys2Proof.Machine.execPegRead tile s
  | .pegSet who peg value => Sys2Proof.Machine.execPegSet who peg value s
  | .dbarArrive tile => Sys2Proof.Machine.execDbarArrive tile s
  | .dbarWait tile => Sys2Proof.Machine.execDbarWait tile s
  | .exchangeSend what => Sys2Proof.Machine.execExchangeSend what s
  | .vdcDecode tile handle start count stride margin => Sys2Proof.Machine.execVdcDecode tile handle start count stride margin s
  | .hubUnitUncorrected vdc => Sys2Proof.Machine.execHubUnitUncorrected vdc s
  | .vocabBankHbmError slot bank hbm channel => Sys2Proof.Machine.execVocabBankHbmError slot bank hbm channel s
  | .workItemDispatch ctx tile slot => Sys2Proof.Machine.execWorkItemDispatch ctx tile slot s
  | .splitResult ctx item authentic out verdict => Sys2Proof.Machine.execSplitResult ctx item authentic out verdict s
  | .splitTimeout ctx item => Sys2Proof.Machine.execSplitTimeout ctx item s
  | .tileImageLoad tile => Sys2Proof.Machine.execTileImageLoad tile s
  | .tileLoadComplete tile => Sys2Proof.Machine.execTileLoadComplete tile s
  | .tileDrainStart tile => Sys2Proof.Machine.execTileDrainStart tile s
  | .tileDrainComplete tile => Sys2Proof.Machine.execTileDrainComplete tile s
  | .tileDrainTimeout tile => Sys2Proof.Machine.execTileDrainTimeout tile s
  | .tileScrubComplete tile => Sys2Proof.Machine.execTileScrubComplete tile s
  | .tileUncorrectedError tile unit => Sys2Proof.Machine.execTileUncorrectedError tile unit s
  | .tileFenceReq fn tile => Sys2Proof.Machine.execTileFenceReq fn tile s
  | .diceEvaluation unit mismatch => Sys2Proof.Machine.execDiceEvaluation unit mismatch s
  | .diceFenceReq fn mask => Sys2Proof.Machine.execDiceFenceReq fn mask s
  | .diceFenceComplete unit => Sys2Proof.Machine.execDiceFenceComplete unit s
  | .sampleFetchComplete ctx step place damage1 damage2 rebuilt => Sys2Proof.Machine.execSampleFetchComplete ctx step place damage1 damage2 rebuilt s
  | .beaconExamine => Sys2Proof.Machine.execBeaconExamine s
  | .stepExtrapolate => Sys2Proof.Machine.execStepExtrapolate s
  | .logbookSetWrite ctx => Sys2Proof.Machine.execLogbookSetWrite ctx s
  | .ptpMessage port sub sync => Sys2Proof.Machine.execPtpMessage port sub sync s
  | .uncertaintyTick => Sys2Proof.Machine.execUncertaintyTick s
  | .gateOpen port sub entry => Sys2Proof.Machine.execGateOpen port sub entry s
  | .gateClose port sub => Sys2Proof.Machine.execGateClose port sub s
  | .frameStart port sub => Sys2Proof.Machine.execFrameStart port sub s
  | .queueSample port => Sys2Proof.Machine.execQueueSample port s
  | .queueSummary port => Sys2Proof.Machine.execQueueSummary port s
  | .stepDeadlineCheck ctx step => Sys2Proof.Machine.execStepDeadlineCheck ctx step s
  | .frameReceive port sub mac tag body => Sys2Proof.Machine.execFrameReceive port sub mac tag body s
  | .pfcFrame port sub => Sys2Proof.Machine.execPfcFrame port sub s
  | .mkaFrame port sub outcome => Sys2Proof.Machine.execMkaFrame port sub outcome s
  | .linkDown port sub => Sys2Proof.Machine.execLinkDown port sub s
  | .linkUp port sub => Sys2Proof.Machine.execLinkUp port sub s
  | .rdmaWriteReceive port sub => Sys2Proof.Machine.execRdmaWriteReceive port sub s
  | .rdmaReadRequestReceive port sub => Sys2Proof.Machine.execRdmaReadRequestReceive port sub s
  | .rdmaReadResponseReceive port sub => Sys2Proof.Machine.execRdmaReadResponseReceive port sub s
  | .ackReceive port sub => Sys2Proof.Machine.execAckReceive port sub s
  | .ackCoalesceTimer qp => Sys2Proof.Machine.execAckCoalesceTimer qp s
  | .ackTimerExpiry qp => Sys2Proof.Machine.execAckTimerExpiry qp s
  | .qpFlushComplete qp => Sys2Proof.Machine.execQpFlushComplete qp s
  | .packerStart ctx step consumer grp shadow => Sys2Proof.Machine.execPackerStart ctx step consumer grp shadow s
  | .creditRead ctx consumer => Sys2Proof.Machine.execCreditRead ctx consumer s
  | .creditPollTimer ctx consumer => Sys2Proof.Machine.execCreditPollTimer ctx consumer s
  | .rowPayloadWrite ctx step consumer row => Sys2Proof.Machine.execRowPayloadWrite ctx step consumer row s
  | .rowHeaderWrite ctx step consumer row => Sys2Proof.Machine.execRowHeaderWrite ctx step consumer row s
  | .rowStampWrite ctx step consumer row => Sys2Proof.Machine.execRowStampWrite ctx step consumer row s
  | .stepStampedReport ctx step => Sys2Proof.Machine.execStepStampedReport ctx step s
  | .mixRecordExamine ctx => Sys2Proof.Machine.execMixRecordExamine ctx s
  | .mixDistReceive m => Sys2Proof.Machine.execMixDistReceive m s
  | .mixDistResend ctx => Sys2Proof.Machine.execMixDistResend ctx s
  | .mixAckReceive m => Sys2Proof.Machine.execMixAckReceive m s
  | .mixDecide ctx => Sys2Proof.Machine.execMixDecide ctx s
  | .mixOutcomeReceive m => Sys2Proof.Machine.execMixOutcomeReceive m s
  | .ledgerRecordExamine ctx => Sys2Proof.Machine.execLedgerRecordExamine ctx s
  | .ledgerCommandStart queue slot => Sys2Proof.Machine.execLedgerCommandStart queue slot s
  | .sampleRead queue slot damage1 damage2 rebuilt => Sys2Proof.Machine.execSampleRead queue slot damage1 damage2 rebuilt s
  | .objectRead queue slot => Sys2Proof.Machine.execObjectRead queue slot s
  | .objectWrite queue slot => Sys2Proof.Machine.execObjectWrite queue slot s
  | .ckptAbsorb queue slot => Sys2Proof.Machine.execCkptAbsorb queue slot s
  | .ckptRestore queue slot crcOk => Sys2Proof.Machine.execCkptRestore queue slot crcOk s
  | .flush queue slot => Sys2Proof.Machine.execFlush queue slot s
  | .trim queue slot => Sys2Proof.Machine.execTrim queue slot s
  | .queueReset queue => Sys2Proof.Machine.execQueueReset queue s
  | .fragmentRead queue slot => Sys2Proof.Machine.execFragmentRead queue slot s
  | .ledgerTimeout queue slot => Sys2Proof.Machine.execLedgerTimeout queue slot s
  | .ledgerCompletionWrite queue => Sys2Proof.Machine.execLedgerCompletionWrite queue s
  | .mediaIdleTimer => Sys2Proof.Machine.execMediaIdleTimer s
  | .mediaWake => Sys2Proof.Machine.execMediaWake s
  | .resumeRecordWrite readBack => Sys2Proof.Machine.execResumeRecordWrite readBack s
  | .mediaPageRead block result => Sys2Proof.Machine.execMediaPageRead block result s
  | .retentionScan block weak => Sys2Proof.Machine.execRetentionScan block weak s
  | .mapCheckpoint full => Sys2Proof.Machine.execMapCheckpoint full s
  | .writeBufferDrain => Sys2Proof.Machine.execWriteBufferDrain s
  | .fold => Sys2Proof.Machine.execFold s
  | .relocationErase => Sys2Proof.Machine.execRelocationErase s
  | .dieLost channel die => Sys2Proof.Machine.execDieLost channel die s
  | .superblockRebuilt group pageLost => Sys2Proof.Machine.execSuperblockRebuilt group pageLost s
  | .podRecoveryStart => Sys2Proof.Machine.execPodRecoveryStart s
  | .podRecoveryComplete got => Sys2Proof.Machine.execPodRecoveryComplete got s
  | .mediaHealthEvent event => Sys2Proof.Machine.execMediaHealthEvent event s
  | .mediaReadOnly => Sys2Proof.Machine.execMediaReadOnly s
  | .flushComplete readBack => Sys2Proof.Machine.execFlushComplete readBack s
  | .heartbeatSend => Sys2Proof.Machine.execHeartbeatSend s
  | .heartbeatReceive m => Sys2Proof.Machine.execHeartbeatReceive m s
  | .peerSilence pos => Sys2Proof.Machine.execPeerSilence pos s
  | .deviceLostReceive m => Sys2Proof.Machine.execDeviceLostReceive m s
  | .hangTimeout pos => Sys2Proof.Machine.execHangTimeout pos s
  | .lossReportReceive m => Sys2Proof.Machine.execLossReportReceive m s
  | .viewPropose => Sys2Proof.Machine.execViewPropose s
  | .viewProposeReceive m => Sys2Proof.Machine.execViewProposeReceive m s
  | .viewAckReceive m => Sys2Proof.Machine.execViewAckReceive m s
  | .viewCommitReceive m => Sys2Proof.Machine.execViewCommitReceive m s
  | .quorumTimeout => Sys2Proof.Machine.execQuorumTimeout s
  | .legAbortReceive m => Sys2Proof.Machine.execLegAbortReceive m s
  | .abortDoneReceive m => Sys2Proof.Machine.execAbortDoneReceive m s
  | .abortTimeout ctx pos => Sys2Proof.Machine.execAbortTimeout ctx pos s
  | .stepReportReceive m => Sys2Proof.Machine.execStepReportReceive m s
  | .stepCommitReceive m => Sys2Proof.Machine.execStepCommitReceive m s
  | .restart ctx carriers => Sys2Proof.Machine.execRestart ctx carriers s
  | .restartReceive m remaps => Sys2Proof.Machine.execRestartReceive m remaps s
  | .sealMessageReceive m => Sys2Proof.Machine.execSealMessageReceive m s
  | .controlAckReceive m => Sys2Proof.Machine.execControlAckReceive m s
  | .controlResend => Sys2Proof.Machine.execControlResend s
  | .journalCopy => Sys2Proof.Machine.execJournalCopy s
  | .journalCopyReceive m image => Sys2Proof.Machine.execJournalCopyReceive m image s
  | .journalAckReceive m => Sys2Proof.Machine.execJournalAckReceive m s
  | .watchdogKick => Sys2Proof.Machine.execWatchdogKick s
  | .holdupOkRise => Sys2Proof.Machine.execHoldupOkRise s
  | .vfFlrComplete vf => Sys2Proof.Machine.execVfFlrComplete vf s
  | .pf0PowerState d3hot => Sys2Proof.Machine.execPf0PowerState d3hot s
  | .mctpRequest msg => Sys2Proof.Machine.execMctpRequest msg s
  | .perstNRelease => Sys2Proof.Machine.execPerstNRelease s
  | .modResetNRelease => Sys2Proof.Machine.execModResetNRelease s
  | .pausedStepEnd => Sys2Proof.Machine.execPausedStepEnd s
  | .podJoin how => Sys2Proof.Machine.execPodJoin how s
  | .roundsUnseatedTileTest tile ok => Sys2Proof.Machine.execRoundsUnseatedTileTest tile ok s
  | .pfcPauseExpiry port sub => Sys2Proof.Machine.execPfcPauseExpiry port sub s

end Sys2Proof.Machine
end

