-- ==== Sys2Proof/Machine/Step.lean ====
section
/-!
DEFINITION. One step: the command at the front of the queue, or a nanosecond of time when none waits (log entry 2).
-/
namespace Sys2Proof.Machine

/-- A nanosecond passes: DTIME counts with P54V, and the always-on monitor's own time counts without it.
(DESIGN CHOICE, log entry 2.) -/
def State.tick (s : State) : State :=
  if s.mod.p54v then { s with dtime := s.dtime + 1 }
  else { s with flt := { s.flt with sinceStandby := s.flt.sinceStandby + 1 } }

/-- Takes the command at the front of the queue. (DESIGN CHOICE, log entries 2, 16, 91.) -/
def step (s : State) : Host.Outcome State Fault Refusal :=
  match s.pending with
  | [] => .next s.tick
  | c :: rest => exec c { s with pending := rest }

/-- s with the command that a word spells in front of its queue (no word of the table spells one).
(DESIGN CHOICE, log entry 13.) -/
def State.withFetchWord (s : State) (nbits w : Nat) : State :=
  match decodeTableWord nbits w with
  | some c => { s with pending := c :: s.pending }
  | none => s

end Sys2Proof.Machine
end

