-- ==== Sys2Proof/Safety.lean ====
section
/-!
DEFINITION. What a safe run of the part is, and when a command comes to its own effect, in the terms the claims use.
-/
namespace Sys2Proof.Machine

/-- A step that answers a state: no fault, no refusal. -/
def Answers (o : Host.Outcome State Fault Refusal) : Prop := ∃ t, o = .next t

/-- The part only runs: no step of it stops, whatever waits in the queue. -/
def NeverStops : Prop := ∀ s : State, Answers (step s)

/-- Registers stand in the map's canonical form: addresses strictly rising, no register at its reset value listed. -/
def State.regsOk (s : State) : Bool := Map.canonical (fun a => regReset s.hw a) s.regs

/-- The command completes with effect t: the next state is t, with the fuses and the queue of waiting commands as in s. -/
def Runs (c : Instr) (s t : State) : Prop := exec c s = .next (s.commit t)

/-- Out of the safe state, the request at the head of a submission queue, examined and started, is r with this opcode. -/
def Asked (s : State) (c sq op : Nat) (r : HostReq) : Prop :=
  s.safe = false ∧ s.host.started.find? (fun q => q.ctx == c && q.sq == sq) = some r ∧ r.opcode = op

/-- The request is taken up. -/
def State.taken (s : State) (r : HostReq) : State :=
  { s with host := { s.host with started := s.host.started.erase r } }

/-- Out of the safe state, the call at the head of an engine's queue of a tile is c, with this op number. -/
def Called (s : State) (tile engine op : Nat) (c : Call) : Prop :=
  s.safe = false ∧ s.headCall tile engine = some c ∧ c.op = op

/-- Out of the safe state, the lane issues, and does not stall. -/
def Issues (s : State) (tile lane : Nat) : Prop :=
  s.safe = false ∧ s.laneIssues tile lane (fun _ => false) = true

/-- A packet that p selects waits on a subport, and comes through: its queue pair i serves, a sealed one's tag is authentic
and fresh. u is the state with the packet taken (and its seal accepted), q the queue pair in it. -/
def Arrived (s : State) (port sub : Nat) (p : Pkt → Bool) (x : Pkt) (i : Nat) (q : Qp) (u : State) : Prop :=
  s.safe = false ∧ p x = true ∧ ∃ f v q0,
    s.takeRx port sub (RxBody.carries p) = some (f, v)
    ∧ f.body = .rdma true x ∧ v.findQpn x.qpn = some (i, q0) ∧ q0.state ≠ .init ∧ q0.state ≠ .err
    ∧ (q0.sealed = false ∧ q = q0 ∧ u = v
      ∨ q0.sealed = true ∧ ∃ n, f.tag = some (n, true) ∧ q0.sealFresh n = true ∧ q = q0.sealAccept n ∧ u = v.setQp i q)

/-- A Ledger command c of queue q, started, with this opcode. -/
def Commanded (s : State) (queue slot op : Nat) (q : LedgerQueue) (c : LedgerCmd) : Prop :=
  s.safe = false ∧ s.queue queue = some q ∧ q.cmdAt slot = some c ∧ c.active = true ∧ c.task.opcode = op

/-- All of a command's data has moved: q' and c' are the queue and the command with it, u the state that holds them. -/
def Moved (s : State) (queue : Nat) (q : LedgerQueue) (c : LedgerCmd) (q' : LedgerQueue) (c' : LedgerCmd) (u : State) : Prop :=
  ∃ v, s.collect queue c = (c', v) ∧ c'.failed = none ∧ c'.finished.length = c'.parts ∧ q' = q.setCmd c'
    ∧ u = v.setQueue queue q'

/-! ## The safe state (R396, R397) -/

/-- Commands after which the part has no power: the only way out of the safe state (R397). -/
def removesPower : Instr → Bool
  | .p54vRemove .. | .p3v3StbyRemove .. => true
  | _ => false

/-- Commands that have their effect in the safe state too: register reads, the error lines and the collector, the
SAFE_STOP monitor, the end of the flush, the rails and power pins, the sensors and clocks that only report, MCTP.
(DEDUCED, log entry 89.) -/
def actsInSafe : Instr → Bool
  | .rcRegisterRead .. | .lowerHalfRead .. | .upperHalfRead .. => true
  | .errorLineEvent .. | .eventCommit | .faultCommit => true
  | .safeStopEdge .. | .safeStopQualify .. | .discrepancyTimeout => true
  | .flushComplete .. | .mctpRequest .. => true
  | .p54vRemove .. | .p3v3StbyRemove .. | .railApply .. => true
  | .pwrGoodFall | .pwrGoodRise | .holdupOkFall | .holdupOkRise | .holdupMeasure .. => true
  | .thermalSample .. | .pllUnlock .. | .cdcSyncTimeout .. | .cdcUncorrected .. => true
  | _ => false

/-- Nothing runs and nothing waits to be sent: no frame, no open gate, no Dice job, no engine call, no running lane. -/
def State.quiet (s : State) : Bool :=
  s.net.egress.isEmpty && s.net.gates.isEmpty && s.dice.isEmpty
    && s.tiles.all (fun e => e.2.calls.isEmpty && e.2.lanes.all (fun l => l.2.run != .running))

/-- The safe state, with nothing running and no removal of power among the waiting commands. -/
def State.final (s : State) : Bool := s.safe && s.quiet && s.pending.all (fun c => !removesPower c)

/-! ## What commands leave alone -/

/-- Every block but the tiles, the registers, the error lines and the free values stands as it was. -/
def SameBlocks (s t : State) : Prop :=
  t.hw = s.hw ∧ t.dtime = s.dtime ∧ t.out = s.out ∧ t.host = s.host ∧ t.ctxs = s.ctxs ∧ t.work = s.work ∧ t.ink = s.ink
    ∧ t.sync = s.sync ∧ t.data = s.data ∧ t.vocs = s.vocs ∧ t.net = s.net ∧ t.clk = s.clk ∧ t.dice = s.dice ∧ t.sec = s.sec
    ∧ t.media = s.media ∧ t.ledger = s.ledger ∧ t.lan = s.lan ∧ t.mod = s.mod ∧ t.pwr = s.pwr ∧ t.clock = s.clock
    ∧ t.fw = s.fw

/-- Every register but TILE_FAULT of a tile reads as before. -/
def SameRegs (tile : Nat) (s t : State) : Prop := ∀ a, a ≠ aTILE_FAULT tile → t.reg a = s.reg a

/-- Other tiles, and of this tile all but its lanes, its store and its barrier slots. -/
def SameTiles (tile : Nat) (s t : State) : Prop :=
  (∀ n, n ≠ tile → t.tile n = s.tile n)
    ∧ (t.tile tile).image = (s.tile tile).image ∧ (t.tile tile).slots = (s.tile tile).slots
    ∧ (t.tile tile).calls = (s.tile tile).calls ∧ (t.tile tile).held = (s.tile tile).held
    ∧ (t.tile tile).slice = (s.tile tile).slice ∧ (t.tile tile).duty = (s.tile tile).duty

/-- Lanes of the tile but one stand as they were; the lane keeps every general register but g and every vector register
but v, and its tickets. -/
def SameLanes (tile lane : Nat) (g v : Option Nat) (s t : State) : Prop :=
  (∀ l, l ≠ lane → (t.tile tile).lane l = (s.tile tile).lane l)
    ∧ (∀ r, some r ≠ g → ((t.tile tile).lane lane).getG r = ((s.tile tile).lane lane).getG r)
    ∧ (∀ r, some r ≠ v → ((t.tile tile).lane lane).getV r = ((s.tile tile).lane lane).getV r)
    ∧ ((t.tile tile).lane lane).tickets = ((s.tile tile).lane lane).tickets

/-- Every byte of the tile's store at an address that p does not pick reads as before. -/
def SameStore (tile : Nat) (p : Nat → Prop) (s t : State) : Prop :=
  ∀ a, ¬ p a → Mem.get (t.tile tile).store a = Mem.get (s.tile tile).store a

/-- The lane instruction writes no memory: general register g and vector register v of its lane at most. -/
def WritesOnly (tile lane : Nat) (g v : Option Nat) (s t : State) : Prop :=
  SameBlocks s t ∧ SameRegs tile s t ∧ SameTiles tile s t ∧ (t.tile tile).bars = (s.tile tile).bars
    ∧ SameLanes tile lane g v s t ∧ SameStore tile (fun _ => False) s t

/-- The lane instruction writes no register, and n bytes of the store at a at most. -/
def StoresOnly (tile lane a n : Nat) (s t : State) : Prop :=
  SameBlocks s t ∧ SameRegs tile s t ∧ SameTiles tile s t ∧ (t.tile tile).bars = (s.tile tile).bars
    ∧ SameLanes tile lane none none s t ∧ SameStore tile (fun b => a ≤ b ∧ b < a + n) s t

end Sys2Proof.Machine
end

