-- ==== Sys2Proof/Certificates/Slice0/Obligations.lean ====
section
/-!
DEFINITION. The statements for the provers. Every family of the command table has one statement that says, command by
command, where it completes and what it leaves (`Runs`: the next state, with the queue and the fuses as they were);
the others state the spec's numbered rules, what commands leave unchanged, and what every step keeps.
-/
open Sys2Proof Sys2Proof.Machine

/-! ## Where each command completes -/

/-- Registers (R8, R427, R429, R430): an access in service and well formed reads or writes the register its address names;
the two halves of a 64-bit register are read through the function's latch. -/
def Obligations.RegisterAccessCompletes : Prop :=
  (∀ (x : Access1) (v : BitVec 64) (s : State), s.safe = false → x.served s → x.goodForm → x.bar ≠ .bar2 →
    Runs (.registerWrite x v) s ((s.dropLatch x.fn).writeReg x.fn x.addr (x.placed v.toNat) x.mask))
  ∧ (∀ (x : Access1) (v : BitVec 64) (s : State), s.safe = false → x.served s → x.goodForm → x.bar ≠ .bar2 →
      isRwt x.addr → x.addr < 0x100000000 → regAbsent s.hw.variant x.addr = false →
      Runs (.rwtRegisterWrite x v) s ((s.dropLatch x.fn).stageWrite x.addr (x.placed v.toNat) x.mask))
  ∧ (∀ (x : Access1) (s : State), x.served s → x.readable s → x.goodForm → x.bar ≠ .bar2 → x.size = 8 →
      Runs (.rcRegisterRead x) s (((s.dropLatch x.fn).clearRead x.addr x.mask).returned x.fn (s.readReg x.addr)))
  ∧ (∀ (fn : Fin 64) (bar : Bar) (off : Nat) (x : Access1) (s : State),
      x = { fn := fn, bar := bar, off := off / 8 * 8, size := 4 } → x.served s → x.readable s → bar ≠ .bar2 →
      ∃ t, exec (.lowerHalfRead fn bar off) s = .next t
        ∧ t.out = s.out ++ [.readData fn (s.readReg x.addr % 2 ^ 32)]
        ∧ Map.find t.host.latches fn = some { addr := x.addr, upper := s.readReg x.addr / 2 ^ 32 })
  ∧ (∀ (fn : Fin 64) (bar : Bar) (off : Nat) (x : Access1) (l : Latch) (s : State),
      x = { fn := fn, bar := bar, off := off / 8 * 8 + 4, size := 4 } → x.served s → x.readable s → bar ≠ .bar2 →
      Map.find s.host.latches fn = some l → l.addr = x.addr →
      ∃ t, exec (.upperHalfRead fn bar off) s = .next t ∧ t.out = s.out ++ [.readData fn l.upper]
        ∧ Map.find t.host.latches fn = none)
  ∧ (∀ (fn : Fin 64) (off : Nat) (v : BitVec 64) (x : Access1) (s : State),
      x = { fn := fn, bar := .bar2, off := off, size := 8 } → s.safe = false → x.served s → off % 8 = 0 → off < 2048 →
      Runs (.doorbellWrite fn off 8 v) s ((s.dropLatch fn).doorbell fn (off / 8) v.toNat))
  ∧ (∀ (fn : Fin 64) (ring : Fin 256) (v : BitVec 64) (x : Access1) (s : State),
      x = { fn := fn, bar := .bar4, off := 0x1008 + ring * 0x20, size := 8 } → s.safe = false → x.served s →
      Runs (.ringCfgWrite fn ring v) s ((s.dropLatch fn).windowWrite fn fn x.addr v.toNat (2 ^ 64 - 1)))

/-- The fault collector (R42, R382, R384, R385, R388): the error lines, the 64 ns commit, the taking of a committed event, the
acknowledgements, forced faults. -/
def Obligations.FaultCollectorCompletes : Prop :=
  (∀ (e : ErrEvent) (s : State), firstEvent (s.flt.lines.filter (fun x => x.stamp + 24 ≤ s.dtime)) = some e →
    ∃ t c, exec .eventCommit s = .next t ∧ t.flt.lines = s.flt.lines.erase e
      ∧ t.flt.committed = s.flt.committed ++ [{ e with concurrent := c }] ∧ t.regs = s.regs)
  ∧ (∀ (src unit ctx : Nat) (st : Status) (cls : FClass) (s : State), sourceListed src →
      ∃ t, exec (.errorLineEvent (.event src unit ctx st cls)) s = .next t
        ∧ t.flt.lines = s.flt.lines ++ [{
            kind := .fault, src := src, status := st, unit := unit, ctx := ctxOrNone ctx, cls := cls, stamp := s.dtime,
            forced := false, discrepancy := false, concurrent := false }] ∧ t.regs = s.regs)
  ∧ (∀ (e : ErrEvent) (es : List ErrEvent) (s : State), s.flt.committed = e :: es → e.kind = .fault →
      Runs .faultCommit s (((s.setFlt { s.flt with committed := es }).applyFault e).showFaultOut))
  ∧ (∀ (e : ErrEvent) (es : List ErrEvent) (s : State), s.safe = false → s.flt.committed = e :: es → e.kind ≠ .fault →
      Runs .faultCommit s (((s.setFlt { s.flt with committed := es }).acknowledge e).showFaultOut))
  ∧ (∀ s : State, s.safe = false → s.reaches 0 →
      Runs (.f3UnackWrite 0) s (s.disarmPrev.collectorEvent .ackF3 stOK 0 noCtx .f3 false))
  ∧ (∀ s : State, s.safe = false → s.reaches 0 →
      Runs (.f4UnackWrite 0) s (s.disarmPrev.collectorEvent .ackF4 stOK 0 noCtx .f4 false))
  ∧ (∀ (v : BitVec 64) (cls : FClass) (s : State), s.safe = false → s.reaches 0 →
      FClass.named (bitsOf v.toNat 8 3) = some cls → sourceListed (bitsOf v.toNat 16 16) → cls ≠ .f5 →
      Runs (.fltForceWrite 0 false v) s ((s.disarmPrev.unflag fFLT_CTRL_ARM_F5).push {
        kind := .fault, src := bitsOf v.toNat 16 16, status := stFLT_FORCED, unit := 0,
        ctx := ctxOrNone (bitsOf v.toNat 0 8), cls := cls, stamp := s.dtime, forced := true, discrepancy := false,
        concurrent := false }))
  ∧ (∀ (outF3 : Bool) (s : State), s.safe = false → s.reaches 0 →
      Runs (.armF5 0 outF3) s
        ((((s.flag fFLT_CTRL_ARM_F5).setFld fFLT_CTRL_OUT_F3 (if outF3 then 1 else 0)).setFlt
          { s.flt with armPrev := true }).showFaultOut))

/-- Shadow execution, Rounds and the SAFE_STOP interlock (R96, R390, R392, R394). -/
def Obligations.ShadowRoundsInterlockComplete : Prop :=
  (∀ (tile : Fin 96) (w : WorkItem) (k u : Nat) (s : State), s.safe = false → s.tileState tile = tsREADY →
    s.work.pairs.any (fun p => p.tile == tile.val) = false → s.openSlots tile ≠ [] → s.pairItem tile = some (w, k) →
    s.choose (s.partners tile [tile]) = some u → u ≠ tile.val →
    ∃ t p, exec (.shadowPairStart tile) s = .next t ∧ p ∈ t.work.pairs ∧ p.tile = tile.val ∧ p.second = u ∧ p.item = w
      ∧ p.first = k ∧ p.started = s.dtime ∧ p.results = [])
  ∧ (∀ (tile : Fin 96) (p : ShadowPair) (a b : DoneItem) (s : State), s.safe = false →
      s.work.pairs.find? (fun p => p.tile == tile.val) = some p → p.result p.first = some a →
      p.result (p.first + 1) = some b → p.third = none → s.shadowKey a = s.shadowKey b →
      Runs (.shadowCompare tile) s
        (((((s.endPair p).clearTile p.tile p.started).clearTile p.second p.started).forcePair p.tile).forcePair p.second))
  ∧ (∀ (tile : Fin 96) (p : ShadowPair) (u : Nat) (a b c : DoneItem) (s : State), s.safe = false →
      s.work.pairs.find? (fun p => p.tile == tile.val) = some p → p.third = some u → p.result p.first = some a →
      p.result (p.first + 1) = some b → p.result (p.first + 2) = some c → p.second ≠ p.tile →
      s.shadowKey c = s.shadowKey a →
      Runs (.shadowThirdCompare tile) s
        (((s.endPair p).clearTile p.tile p.started).fenceTile p.second stSHADOW_MISMATCH 0xFF))
  ∧ (∀ (tile : Fin 96) (s : State), s.safe = false → s.tilePresent tile → s.fld (fTILE_STATE_SEATED tile) = 1 →
      s.tileState tile ≠ tsFENCED → (s.tile tile).slice = none → s.tileIdle tile →
      Runs (.roundsTileSlice tile .complete) s ((s.sliceBegun tile).tilePassed tile)
        ∧ Runs (.roundsTileSlice tile .failed) s ((s.sliceBegun tile).tileFailed tile)
        ∧ (Map.getD s.flt.roundsSlices tile 0 < 4095 → Runs (.roundsTileSlice tile .passed) s (s.sliceBegun tile)))
  ∧ (∀ (tile : Fin 96) (s : State), s.safe = false → (s.tile tile).slice ≠ none →
      Runs (.roundsSliceEnd tile) s ((s.sliceEnded tile).deliverHeld tile (s.tile tile).held))
  ∧ (∀ (tile : Fin 96) (s : State), s.safe = false → s.fld (fTILE_STATE_SEATED tile) = 1 → s.tileState tile ≠ tsFENCED →
      s.passedAt tile + 50 * 60 * 10 ^ 9 ≤ s.dtime → s.flt.withheld.contains tile.val = false →
      ∃ t, exec (.roundsDispatchWithhold tile) s = .next t ∧ t.flt.withheld = s.flt.withheld ++ [tile.val]
        ∧ t.regs = s.regs)
  ∧ (∀ (tile : Fin 96) (s : State), s.safe = false → s.tilePresent tile → s.tileState tile = tsUNSEATED →
      Runs (.roundsUnseatedTileTest tile true) s (s.tilePassed tile)
        ∧ Runs (.roundsUnseatedTileTest tile false) s (s.tileFailed tile))
  ∧ (∀ (checker : Checker) (s : State), s.safe = false →
      ∃ t, exec (.roundsCheckerTest checker true) s = .next t
        ∧ t.flt.checkers = Map.put s.flt.checkers checker.num s.dtime ∧ t.regs = s.regs)
  ∧ (∀ s : State, s.safe = false →
      (∃ t, exec (.roundsSafeStopTest true) s = .next t ∧ t.flt.checkers = Map.put s.flt.checkers 22 s.dtime)
        ∧ Runs (.roundsSafeStopTest false) s (s.roundsFail .f5))
  ∧ (∀ (pin : Pin) (level : Bool) (s : State), (s.channel pin).raw ≠ level →
      Runs (.safeStopEdge pin level) s
        ((s.setChannel pin { s.channel pin with raw := level, edgeAt := s.monTime }).showChannels))
  ∧ (∀ (pin : Pin) (s : State), (s.channel pin).raw ≠ (s.channel pin).qualified →
      (s.channel pin).edgeAt + s.filterNs ≤ s.monTime →
      Runs (.safeStopQualify pin) s
        (((s.setChannel pin { s.channel pin with qualified := (s.channel pin).raw, qualAt := s.monTime }).showChannels).qualified
          pin))
  ∧ (∀ (since : Nat) (s : State), s.flt.timer = some since → since + s.discrepancyNs ≤ s.monTime →
      Runs .discrepancyTimeout s (s.loneDemand true))

/-- Resets and functions (R349, R357, R421, R458). -/
def Obligations.ResetsAndFunctionsComplete : Prop :=
  (∀ s : State, s.safe = false → s.mod.perst = false →
    Runs .perstNAssert s (State.resetPcie { s.deviceReset with mod := { s.mod with perst := true } }))
  ∧ (∀ s : State, s.safe = false → s.mod.modReset = false →
      Runs .modResetNAssert s { s.moduleReset with mod := { s.moduleReset.mod with modReset := true } })
  ∧ (∀ s : State, s.safe = false → Runs .pf0Flr s s.deviceReset.resetPcie)
  ∧ (∀ (vf : Fin 64) (s : State), s.safe = false → vf ≠ 0 → s.host.vfReady.contains vf.val →
      Runs (.vfFlr vf) s (s.vfReset vf))
  ∧ (∀ s : State, s.safe = false →
      ∃ t, exec .vfDisable s = .next t ∧ t.host.numVFs = 0 ∧ t.host.vfReady = [])
  ∧ (∀ (count : Fin 64) (s : State), s.safe = false → s.host.numVFs = 0 →
      Runs (.vfEnable count) s (((List.range count).map (· + 1)).foldl State.attach
        { s with host := { s.host with numVFs := count, vfReady := (List.range count).map (· + 1) } }))
  ∧ (∀ (vf : Fin 64) (s : State), s.safe = false → vf ≠ 0 → vf.val ≤ s.host.numVFs →
      s.host.vfReady.contains vf.val = false →
      Runs (.vfFlrComplete vf) s
        (State.attach { s with host := { s.host with vfReady := s.host.vfReady ++ [vf.val] } } vf))
  ∧ (∀ (d3hot : Bool) (s : State), s.safe = false → s.pcieUp →
      ∃ t, exec (.pf0PowerState d3hot) s = .next t ∧ t.host = { s.host with d3hot := d3hot } ∧ t.regs = s.regs)
  ∧ (∀ s : State, s.safe = false →
      ∃ t, exec .perstNRelease s = .next t ∧ t.mod = { s.mod with perst := false } ∧ t.regs = s.regs)
  ∧ (∀ s : State, s.safe = false → s.mod.modReset →
      ∃ t, exec .modResetNRelease s = .next t ∧ t.mod = { s.mod with modReset := false } ∧ t.regs = s.regs)

/-- Rails, hold-up, governor and thermal limits (R357, R359, R445 to R451). -/
def Obligations.PowerCompletes : Prop :=
  (∀ (stored : Nat) (s : State), s.mod.p54v → Runs (.p54vRemove stored) s (s.powerDown true stored))
  ∧ (∀ (stored : Nat) (s : State), s.mod.p3v3 → Runs (.p3v3StbyRemove stored) s (s.powerDown false stored))
  ∧ (∀ s : State, s.mod.p3v3 = false →
      ∃ t, exec (.railApply .p3v3Stby) s = .next t ∧ t.mod = { s.mod with p3v3 := true } ∧ t.regs = s.regs)
  ∧ (∀ s : State, s.mod.p12v = false → s.mod.p3v3 →
      ∃ t, exec (.railApply .p12vAux) s = .next t ∧ t.mod = { s.mod with p12v := true } ∧ t.regs = s.regs)
  ∧ (∀ s : State, s.mod.p54v = false → s.mod.p3v3 → s.mod.p12v →
      Runs (.railApply .p54v) s ((s.setMod { s.mod with p54v := true, held := false }).monitorStart.showFaultOut))
  ∧ (∀ s : State, s.mod.pwrGood →
      ∃ t, exec .pwrGoodFall s = .next t ∧ t.mod = { s.mod with pwrGood := false }
        ∧ (s.fld fPWR_STATUS_HOLDUP_OK = 1 → s.hw.variant.hasMedia → t.media.flushing.isSome))
  ∧ (∀ s : State, s.mod.pwrGood = false →
      ∃ t, exec .pwrGoodRise s = .next t
        ∧ t.mod = { s.mod with pwrGood := true, resetDue := s.media.flushing.isSome && !s.safe } ∧ t.regs = s.regs)
  ∧ (∀ s : State, s.fld fPWR_STATUS_HOLDUP_OK = 1 → Runs .holdupOkFall s (s.setHoldup false))
  ∧ (∀ s : State, s.mod.p54v → s.fld fPWR_STATUS_HOLDUP_OK = 0 → Runs .holdupOkRise s (s.setHoldup true))
  ∧ (∀ (joules : Nat) (s : State), s.mod.p54v → s.mod.measuredAt = 0 ∨ s.mod.measuredAt + 24 * 3600 * 10 ^ 9 ≤ s.dtime →
      Runs (.holdupMeasure joules) s ((s.setMod { s.mod with measuredAt := s.dtime }).setHoldup (30 ≤ joules)))
  ∧ (∀ (input nonTile : Nat) (est : List Nat) (pulses inlet : Nat) (still : Bool) (s : State), s.safe = false →
      s.mod.p54v → s.pwr.samples = [] ∨ s.pwr.sampledAt + 10000 ≤ s.dtime →
      Runs (.governorSample input nonTile est pulses inlet still) s (s.governor input nonTile est pulses inlet still))
  ∧ (∀ (sensor tj : Nat) (s : State), s.mod.p54v →
      s.fld fPWR_THERMAL_TJ_MAX_C = 0 ∨ s.pwr.thermalAt + 100000 ≤ s.dtime →
      Runs (.thermalSample sensor tj) s (s.junction sensor tj))
  ∧ (∀ s : State, s.safe = false → s.fld fPWR_STATUS_THROTTLE_SOFT ≠ 0 → s.pwr.falling →
      s.pwr.stepAt + 1000000 ≤ s.dtime →
      ∃ t, exec .thermalSoftStep s = .next t
        ∧ t.pwr = { s.pwr with lowered := min 100 (s.pwr.lowered + 2), stepAt := s.dtime } ∧ t.regs = s.regs)
  ∧ (∀ s : State, s.safe = false → s.fld fPWR_STATUS_THROTTLE_SOFT ≠ 0 → s.pwr.falling = false →
      s.pwr.stepAt + 10000000 ≤ s.dtime → 1 < s.pwr.lowered →
      ∃ t, exec .thermalSoftStep s = .next t
        ∧ t.pwr = { s.pwr with lowered := s.pwr.lowered - 1, stepAt := s.dtime } ∧ t.regs = s.regs)

/-- Clocks and crossings (R452 to R455). -/
def Obligations.ClocksComplete : Prop :=
  (∀ (q : Fin 4) (idle : Nat) (s : State), s.safe = false → s.quarterPresent q → s.qps q = 0 → s.quarterIdle q →
    s.fld fCLK_QPS_CFG_IDLE1_US ≠ 0 → s.fld fCLK_QPS_CFG_IDLE1_US * 1000 ≤ idle →
    Runs (.quarterIdleEntry q idle) s (s.setQps q 1))
  ∧ (∀ (q : Fin 4) (s : State), s.safe = false → s.quarterPresent q → s.qps q ≠ 0 →
      Runs (.quarterWake q) s
        (((s.clockFrom q (exitLatency (s.qps q))).setQps q 0).flag (fCLK_STATUS_PLL_LOCK.bit q)))
  ∧ (∀ (sq : Fin 256) (r : HostReq) (profile : Nat) (s : State), Asked s 0 sq 0x4A r → profile ≤ 2 →
      (s.taken r).anySeatedRun = false →
      Runs (.clockProfile sq profile) s
        (((((List.range s.hw.variant.quarters).filter (fun q => (s.taken r).qps q ≤ 1)).foldl
          (fun s q => s.clockFrom q (200000 * (q + 1))) (s.taken r)).setFld fCLK_STATUS_PROFILE profile).answer r stOK))
  ∧ (∀ (q : Fin 4) (s : State), s.safe = false → s.quarterPresent q → s.fld (fCLK_STATUS_PLL_LOCK.bit q) ≠ 0 →
      Runs (.pllUnlock (some q)) s
        ((((s.unflag (fCLK_STATUS_PLL_LOCK.bit q)).flag fCLK_ERR_PLL_UNLOCK).lockLost q).raise (srcQUARTER q) stPLL_UNLOCK 1
          noCtx .f3))
  ∧ (∀ s : State, s.fld fCLK_STATUS_HUB_LOCK ≠ 0 →
      Runs (.pllUnlock none) s
        (((s.unflag fCLK_STATUS_HUB_LOCK).flag fCLK_ERR_PLL_UNLOCK).used.raise (s.free 16) stPLL_UNLOCK 0 noCtx .f4))
  ∧ (∀ (offset : Int) (s : State), s.safe = false → s.fld fCLK_PPS_CFG_PPS_IN_EN ≠ 0 →
      Runs (.ppsInEdge offset) s (s.ppsTaken offset))
  ∧ (∀ s : State, s.safe = false → s.fld fCLK_PPS_CFG_PPS_IN_EN ≠ 0 → s.clock.ppsMissed = false →
      s.reg aCLK_PPS_IN_STAMP + 1500000000 ≤ s.dtime →
      Runs .ppsInMissing s
        (((s.setClock { s.clock with ppsMissed := true }).flag fCLK_ERR_PPS_IN_MISSING).used.raise (s.free 16)
          stPPS_IN_MISSING 0 noCtx .f0))
  ∧ (∀ s : State, s.safe = false → s.clock.ppsOutAt = none → s.fld fCLK_PPS_CFG_PPS_OUT_EN = 1 →
      s.fld fSTEP_STATUS_TIME ≤ 1 → s.dtime % 10 ^ 9 = 0 →
      ∃ t, exec .ppsOutPulse s = .next t ∧ t.clock = { s.clock with ppsOutAt := some s.dtime }
        ∧ t.out = s.out ++ [.pin .ppsOut true] ∧ t.regs = s.regs)
  ∧ (∀ (since : Nat) (s : State), s.safe = false → s.clock.ppsOutAt = some since →
      since + s.fld fCLK_PPS_CFG_OUT_WIDTH_MS * 1000000 ≤ s.dtime →
      ∃ t, exec .ppsOutPulse s = .next t ∧ t.clock = { s.clock with ppsOutAt := none }
        ∧ t.out = s.out ++ [.pin .ppsOut false] ∧ t.regs = s.regs)
  ∧ (∀ (q : Fin 4) (s : State), s.safe = false → s.quarterPresent q → s.clock.links.contains q.val = false →
      s.clock.fenced.contains q.val = false → s.clockRuns q → Map.find s.clock.syncAt q = none →
      ∃ t, exec (.cdcResync q false) s = .next t
        ∧ t.clock = { s.clock with syncAt := Map.put s.clock.syncAt q s.dtime } ∧ t.regs = s.regs)
  ∧ (∀ (q : Fin 4) (since : Nat) (s : State), s.safe = false → s.quarterPresent q → s.clock.links.contains q.val = false →
      s.clock.fenced.contains q.val = false → s.clockRuns q → Map.find s.clock.syncAt q = some since →
      s.dtime < since + 10000 →
      ∃ t, exec (.cdcResync q true) s = .next t
        ∧ t.clock = { s.clock with syncAt := Map.del s.clock.syncAt q, links := s.clock.links ++ [q.val] }
        ∧ t.regs = s.regs)
  ∧ (∀ (q : Fin 4) (since : Nat) (s : State), Map.find s.clock.syncAt q = some since → since + 10000 ≤ s.dtime →
      Runs (.cdcSyncTimeout q) s (s.linkFault q fCLK_ERR_CDC_SYNC stCDC_SYNC))
  ∧ (∀ (q : Fin 4) (s : State), s.quarterPresent q →
      Runs (.cdcUncorrected q) s (s.linkFault q fCLK_ERR_CDC_UNCORRECTED stCDC_UNCORRECTED))
  ∧ (∀ (q : Fin 4) (vc : Fin 3) (stamp : Nat) (rest : List Nat) (s : State), s.safe = false →
      Map.getD s.clock.fifos (fifoKey q true vc) [] = stamp :: rest → stamp + 4 ≤ s.dtime →
      Runs (.cdcEntryRead q true vc) s
        (s.setClock { s.clock with fifos := Map.setD [] s.clock.fifos (fifoKey q true vc) rest }))
  ∧ (∀ (q : Fin 4) (vc : Fin 3) (stamp : Nat) (rest : List Nat) (s : State), s.safe = false →
      Map.getD s.clock.fifos (fifoKey q false vc) [] = stamp :: rest → s.quarterRuns q →
      max stamp (Map.getD s.clock.clockAt q 0) + 4 ≤ s.dtime →
      Runs (.cdcEntryRead q false vc) s
        (s.setClock { s.clock with fifos := Map.setD [] s.clock.fifos (fifoKey q false vc) rest }))

/-- Rings (R334, R356, R431 to R436): descriptors, completions, events, the quantum instant, MSI-X. -/
def Obligations.RingsComplete : Prop :=
  (∀ (ctx : Fin 64) (sq : Fin 256) (d : Vector Byte 64) (dma : Bool) (s : State), s.safe = false → s.canExamine ctx sq →
    Runs (.descriptorExamine ctx sq true d dma) s (s.examine ctx sq d.toList dma)
      ∧ Runs (.descriptorExamine ctx sq false d dma) s (s.ringFault ctx sq))
  ∧ (∀ (ctx : Fin 64) (cq : Fin 256) (e : Completion) (s : State), s.safe = false → s.atQuantum ctx →
      s.host.done.find? (fun e => e.ctx == ctx.val && e.cq == cq.val) = some e → s.ringOn ctx cq rkCQ →
      s.ringError ctx cq = false → s.ringRoom ctx cq →
      Runs (.completionRelease ctx cq) s
        (State.writeEntry { s with host := { s.host with done := s.host.done.erase e } } ctx cq
          (e.entry (s.ringPtr ctx cq).phase)))
  ∧ (∀ (e : EventItem) (r : Nat) (s : State), s.safe = false →
      s.host.events.find? (fun e => e.ctx == 0) = some e → s.eventRing e = some r → s.ringError 0 r = false →
      s.ringRoom 0 r →
      Runs (.eventEntryWrite 0) s
        (State.writeEntry { s with host := { s.host with events := s.host.events.erase e } } 0 r
          (e.plain (s.ringPtr 0 r).phase)))
  ∧ (∀ (ctx : Fin 64) (s : State), s.safe = false → ctx ≠ 0 → s.atQuantum ctx →
      Runs (.quantumInstant ctx) s
        (((s.host.done.filter (fun e => e.ctx == ctx.val)).foldl (fun s e => s.releaseOne ctx e.cq) s).sendHeld ctx))
  ∧ (∀ (fn : Fin 64) (v : Fin 32) (s : State), s.safe = false → s.reaches fn → bitOf (s.msixOf fn).masked v →
      bitOf (s.msixOf fn).pendingBits v →
      Runs (.msixUnmask fn v) s ((s.setMsix fn { s.msixOf fn with
        masked := putBits (s.msixOf fn).masked v 1 0
        pendingBits := putBits (s.msixOf fn).pendingBits v 1 0 }).signal fn v))
  ∧ (∀ (ctx : Fin 64) (sq : Fin 256) (r : HostReq) (s : State), Asked s ctx sq 0x01 r →
      Runs (.nop ctx sq) s ((s.taken r).answer r stOK))
  ∧ (∀ (ctx : Fin 64) (sq : Fin 256) (r : HostReq) (n : Nat) (ct tag : Bytes) (s t : State), Asked s ctx sq 0x02 r →
      (s.taken r).sealOut ctx ((s.taken r).syncDump ctx) = some (n, ct, tag, t) →
      (sealedBytes n ct tag).length ≤ r.len →
      Runs (.dump ctx sq) s ((t.writeBuf r (sealedBytes n ct tag)).answer r stOK))

/-- Secrets and blobs (R150, R368 to R381, Table 16.5): reports, deliveries, blobs, vocabulary banks, debug access. What
signatures and key agreement decide (log entry 5) stands in the conclusion. -/
def Obligations.SecretsComplete : Prop :=
  (∀ (ctx : Fin 64) (sq : Fin 256) (r : HostReq) (buf : Bytes) (s : State), Asked s ctx sq 0x03 r → buf.length = r.len →
    48 ≤ buf.length → (Map.getD s.sec.reports ctx []).length < 4 →
    Runs (.attest ctx sq buf) s (((s.taken r).attested ctx r buf).answer r stOK))
  ∧ (∀ (ctx : Fin 64) (s : State), s.safe = false →
      ∃ t, exec (.reportExpiry ctx) s = .next t ∧ t.regs = s.regs
        ∧ Map.getD t.sec.reports ctx [] = (Map.getD s.sec.reports ctx []).filter (fun r => !r.expired s.dtime))
  ∧ (∀ (ctx : Fin 64) (sq : Fin 256) (r : HostReq) (buf : Bytes) (x : Report) (s u : State), Asked s ctx sq 0x04 r →
      buf.length = r.len → buf.length = 1776 → (s.taken r).keysHeld ctx = false → fieldAt buf 0 4 = 0x444B464F →
      fieldAt buf 4 2 = 1 → fieldAt buf 6 1 = ctx.val →
      (Map.getD s.sec.reports ctx []).find? (fun x => x.digest == slice buf 8 48) = some x → x.expired s.dtime = false →
      u = (s.taken r).spendReport ctx x →
      Runs (.keyDeliver ctx sq buf) s (match x.unwrap buf with
        | none => (u.bump fSEC_AUTH_FAIL_COUNT_BLOB 1).answer r stSEC_DELIVERY
        | some k => (u.holdKey ctx k).answer r stOK))
  ∧ (∀ (ctx : Fin 64) (sq : Fin 256) (engine : Fin 65536) (r : HostReq) (buf plain : Bytes) (s t : State),
      Asked s ctx sq 0x05 r → blobKind buf ≠ 3 → blobHeaderOk ctx (blobKinds ctx) r.len buf → blobArgsOk (blobKind buf) r →
      (s.taken r).takeBlob ctx buf = .ok (some plain, t) →
      Runs (.blob ctx sq engine buf) s (t.blobEffect ctx (blobKind buf) r plain))
  ∧ (∀ (ctx : Fin 64) (sq : Fin 256) (engine : Fin 65536) (r : HostReq) (buf : Bytes) (plain : Option Bytes) (s t : State),
      Asked s ctx sq 0x05 r → blobKind buf = 3 → blobHeaderOk ctx (blobKinds ctx) r.len buf → blobArgsOk 3 r →
      (s.taken r).takeBlob ctx buf = .ok (plain, t) →
      Runs (.blob ctx sq engine buf) s (t.startLoad ctx (fieldAt r.args 0 1) (buf.length - 48) plain r))
  ∧ (∀ (slot : Fin 8) (bank : Fin 2) (engine : Fin 65536) (v : VocBank) (s : State), s.safe = false →
      Map.find s.vocs (bankNum slot bank) = some v → s.fld (fBankState slot bank) = vbLOADING → v.digest ≠ [] →
      (parseVocab v.image).isSome →
      Runs (.vocabLoadComplete slot bank engine) s
        ((s.setFld (fBankState slot bank) vbREADY).endLoad slot bank stOK))
  ∧ (∀ (ctx : Fin 64) (sq : Fin 256) (r : HostReq) (slot bank : Nat) (s : State), Asked s ctx sq 0x06 r → slot < 8 →
      bank < 2 → (s.taken r).slotOf ctx slot → s.fld (fBankState slot bank) ≠ vbEMPTY →
      s.fld (fBankState slot bank) ≠ vbLOADING → (s.taken r).bankBound (bankNum slot bank) = false →
      Runs (.vocDiscard ctx sq slot bank) s (((s.taken r).emptyBank slot bank).answer r stOK))
  ∧ (∀ (sq : Fin 256) (r : HostReq) (s : State), Asked s 0 sq 0x47 r →
      Runs (.decommission sq) s
        (((((s.taken r).tearDownAll.zeroiseAll).setFw
          { ((s.taken r).tearDownAll.zeroiseAll).fw with decommissioned := true }).flag
            fSEC_STATUS_DECOMMISSIONED).answer r stOK))
  ∧ (∀ (sq : Fin 256) (r : HostReq) (s : State), Asked s 0 sq 0x48 r → 48 ≤ r.len →
      ∃ t n, exec (.debugChallenge sq) s = .next t ∧ n.length = 48 ∧ t.sec.challenge = some (n, s.dtime)
        ∧ t.out = s.out ++ [.hostWrite r.ctx r.addr n] ∧ t.regs = s.regs)
  ∧ (∀ (sq : Fin 256) (r : HostReq) (token : DebugToken) (s : State), Asked s 0 sq 0x49 r →
      Runs (.debugUnlock sq token) s
        (if (s.taken r).tokenOk token then ((s.taken r).unlocked.setFld fSEC_STATUS_DEBUG 2).answer r stOK
         else (s.taken r).answer r stSEC_DEBUG_TOKEN))
  ∧ (∀ (on : Bool) (s : State), s.safe = false → s.reaches 0 → s.mod.recovery = false → s.fld fSEC_STATUS_DEBUG ≠ 2 →
      Runs (.ownerDebugWrite 0 on) s
        ((s.setFld fSEC_DEBUG_CTRL_OWNER_DEBUG (if on then 1 else 0)).setFld fSEC_STATUS_DEBUG (if on then 1 else 0)))

/-- Runs, Logbooks and ingest (R61, R103, R340 to R345, R363, R437, R443). -/
def Obligations.RunsAndLogsComplete : Prop :=
  (∀ (ctx : Fin 64) (sq : Fin 256) (r : HostReq) (qpn level : Nat) (i : Nat) (q : Qp) (s : State), Asked s ctx sq 0x07 r →
    s.findQpn qpn = some (i, q) → q.ctx = ctx.val → q.kind = .client → Map.has s.sec.sessions ctx →
    (((s.targetImage ctx).bind s.imageRec).map (·.compat)).getD 0 ≤ level →
    Runs (.splitConfig ctx sq qpn true level) s
      (((s.taken r).setSplit ctx { (s.taken r).splitRec ctx with level := level, pendingOn := some true }).answer r stOK))
  ∧ (∀ (ctx : Fin 64) (sq : Fin 256) (engine : Fin 65536) (r : HostReq) (buf plain : Bytes) (s t u : State),
      Asked s ctx sq 0x10 r → s.runOf ctx = none → blobHeaderOk ctx [9] r.len buf →
      (s.taken r).takeBlob ctx buf = .ok (some plain, t) → t.configRun ctx plain = .ok u →
      Runs (.runConfig ctx sq engine buf) s ((u.answer r stOK).planReady ctx 16))
  ∧ (∀ (ctx : Fin 64) (sq : Fin 256) (r : HostReq) (run : RunRec) (s : State), Asked s ctx sq 0x11 r →
      s.runOf ctx = some run →
      Runs (.runEnd ctx sq) s
        ((((s.taken r).writeRec ctx
          { kind := 9, eff := run.nextCommit - 1, key := 0, body := toLE 8 (run.nextCommit - 1) }).unseatRun ctx run).answer r
            stOK))
  ∧ (∀ (ctx : Fin 64) (sq : Fin 256) (r : HostReq) (runId first last : Nat) (l : Logbook) (s : State), Asked s ctx sq 0x12 r →
      Map.find (s.ctxData ctx).logs runId = some l → first ≤ last → last < l.frames.length →
      (((l.frames.drop first).take (last + 1 - first)).flatten).length ≤ r.len →
      Runs (.logExport ctx sq runId first last) s
        (((s.taken r).writeBuf r ((l.frames.drop first).take (last + 1 - first)).flatten).answer r stOK))
  ∧ (∀ (ctx : Fin 64) (sq : Fin 256) (r : HostReq) (runId : Nat) (s : State), Asked s ctx sq 0x13 r →
      Map.has (s.ctxData ctx).logs runId → s.runWithId ctx runId = none →
      Runs (.logDelete ctx sq runId) s
        (((s.taken r).setData ctx { s.ctxData ctx with logs := Map.del (s.ctxData ctx).logs runId }).answer r stOK))
  ∧ (∀ (ctx : Fin 64) (sq : Fin 256) (r : HostReq) (run : RunRec) (l : Logbook) (n : Nat) (ct tag : Bytes) (s t : State),
      Asked s ctx sq 0x14 r → s.runOf ctx = some run → Map.find (s.ctxData ctx).logs run.cfg.runId = some l → 72 ≤ r.len →
      (s.taken r).sealOut ctx l.lastDigest = some (n, ct, tag, t) →
      Runs (.logDigest ctx sq) s ((t.writeBuf r (sealedBytes n ct tag)).answer r stOK))
  ∧ (∀ (ctx : Fin 64) (sq : Fin 256) (engine : Fin 65536) (r : HostReq) (buf plain : Bytes) (ds x n : Nat)
      (pods : List PodEnt) (s t : State), Asked s ctx sq 0x18 r → s.hw.variant.hasMedia → blobHeaderOk ctx [10] r.len buf →
      (s.taken r).takeBlob ctx buf = .ok (some plain, t) → ingestParams plain = some (ds, x, pods) →
      n = freeStream ((t.ctxData ctx).ingest.map (·.1)) (t.free 32) →
      Runs (.ingestOpen ctx sq engine buf) s
        ((t.used.openStream ctx n ds x pods).used.finish r stOK n ((t.used.openStream ctx n ds x pods).free 32)))
  ∧ (∀ (ctx : Fin 64) (sq : Fin 256) (r : HostReq) (stream : Nat) (g : IngestRec) (s : State), Asked s ctx sq 0x19 r →
      Map.find (s.ctxData ctx).ingest stream = some g → (s.taken r).keysHeld ctx →
      Runs (.ingestClose ctx sq stream) s ((s.taken r).closeIngest ctx stream g r))

/-- Queue pairs, windows, pegs, barriers and Ledger queues that a context asks for (R253, R260, R262, R264, R326, R330; Table 19.14). -/
def Obligations.HostResourcesComplete : Prop :=
  (∀ (ctx : Fin 64) (sq : Fin 256) (r : HostReq) (cls pd port sub pmtu timeout retry initDepth respDepth i : Nat)
      (s t : State), Asked s ctx sq 0x20 r →
    (s.taken r).qpArgsOk cls pd port sub pmtu timeout retry initDepth respDepth →
    (s.taken r).openQp false .client cls ctx pd port sub pmtu timeout retry initDepth respDepth = .ok (i, t) →
    Runs (.qpOpen ctx sq cls pd port sub pmtu timeout retry initDepth respDepth) s
      (t.used.finish r stOK (qpnOf i (((t.qp i).map (·.gen)).getD 0)) (t.free 32)))
  ∧ (∀ (ctx : Fin 64) (sq : Fin 256) (r : HostReq) (qpn peerQpn sqPsn ePsn i : Nat) (gid : BitVec 128) (q : Qp) (s : State),
      Asked s ctx sq 0x21 r → s.clientQp ctx qpn = some (i, q) → q.state = .init → peerQpn < 2 ^ 24 → sqPsn < 2 ^ 24 →
      ePsn < 2 ^ 24 →
      Runs (.qpConnect ctx sq qpn gid peerQpn sqPsn ePsn) s
        (((s.taken r).setQp i (q.connect (toBE 16 gid.toNat) peerQpn sqPsn ePsn)).answer r stOK))
  ∧ (∀ (ctx : Fin 64) (sq : Fin 256) (r : HostReq) (qpn i : Nat) (q : Qp) (s : State), Asked s ctx sq 0x22 r →
      s.clientQp ctx qpn = some (i, q) → q.state ≠ .err →
      Runs (.qpClose ctx sq qpn) s (((s.taken r).qpError i stNET_FLUSHED true).answer r stOK))
  ∧ (∀ (ctx : Fin 64) (sq : Fin 256) (r : HostReq) (qpn i : Nat) (q : Qp) (s : State), Asked s ctx sq 0x23 r →
      s.clientQp ctx qpn = some (i, q) → q.state = .err → q.flushed →
      Runs (.qpDestroy ctx sq qpn) s (((s.taken r).destroyQp i).answer r stOK))
  ∧ (∀ (ctx : Fin 64) (sq : Fin 256) (r : HostReq) (kind pd len handle key : Nat) (write read : Bool) (k : WinKind)
      (s t : State), Asked s ctx sq 0x24 r → (s.taken r).winKindOk ctx kind handle len write read = some k → pd < 256 →
      (s.taken r).openWindow ctx pd k len write read = .ok (key, t) →
      Runs (.windowOpen ctx sq kind pd len handle write read) s (t.used.finish r stOK key (t.free 32)))
  ∧ (∀ (ctx : Fin 64) (sq : Fin 256) (r : HostReq) (key : Nat) (w : Window) (s : State), Asked s ctx sq 0x25 r →
      s.windowAt key = some w → w.ctx = ctx.val → w.kind ≠ .landing →
      Runs (.windowClose ctx sq key) s (((s.taken r).revoke (key / 2 ^ 16)).await r (.window (key / 2 ^ 16))))
  ∧ (∀ (window : Fin 65536) (w : Window) (s : State), s.safe = false → Map.find s.net.windows window = some w →
      w.closing.isSome →
      Runs (.windowCloseComplete window) s
        (State.wake { s with net := { s.net with windows := Map.put s.net.windows window { w with closing := none } } }
          (.window window) stOK))
  ∧ (∀ (ctx : Fin 64) (sq : Fin 256) (r : HostReq) (peg : Nat) (s : State), Asked s ctx sq 0x28 r → peg < 16384 →
      s.peg ctx peg = none → s.mappedPegs < 65536 → (s.pegsOf ctx).length < s.sharePegs ctx →
      Runs (.pegMap ctx sq peg) s
        (((s.taken r).used.setPegs ctx
          (Map.put (s.pegsOf ctx) peg { phys := (s.taken r).freePhys, value := 0 })).answer r stOK))
  ∧ (∀ (ctx : Fin 64) (sq : Fin 256) (r : HostReq) (peg : Nat) (p : Peg) (s t : State), Asked s ctx sq 0x29 r →
      peg < 16384 → s.peg ctx peg = some p → t = (s.taken r).endWaits ctx (fun w => w.peg == peg) stPEG_UNMAPPED →
      Runs (.pegUnmap ctx sq peg) s ((t.setPegs ctx (Map.del (t.pegsOf ctx) peg)).answer r stOK))
  ∧ (∀ (ctx : Fin 64) (sq : Fin 256) (r : HostReq) (barrier mode : Nat) (s : State), Asked s ctx sq 0x2A r →
      barrier < 256 → mode < 2 → Map.has (s.barsOf ctx) barrier = false →
      (s.sync.bars.map (fun e => e.2.length)).foldl (· + ·) 0 < 1024 → (s.barsOf ctx).length < s.shareDbars ctx →
      Runs (.dbarOpen ctx sq barrier mode) s
        (((s.taken r).setBar ctx barrier {
          stepMode := mode == 1, sense := false, gen := 0, members := (s.taken r).readyTiles ctx, arrived := [],
          gate := false, waiters := [] }).answer r stOK))
  ∧ (∀ (ctx : Fin 64) (sq : Fin 256) (r : HostReq) (barrier : Nat) (b : Dbar) (s t : State), Asked s ctx sq 0x2B r →
      Map.find (s.barsOf ctx) barrier = some b →
      t = { s.taken r with sync := { s.sync with bars := Map.put s.sync.bars ctx (Map.del (s.barsOf ctx) barrier) } } →
      Runs (.dbarClose ctx sq barrier) s
        ((b.waiters.foldl (fun s w => s.completeTicket w.1 w.2.1 w.2.2.1 0 stDBAR_NOT_MEMBER) t).answer r stOK))
  ∧ (∀ (ctx : Fin 64) (sq : Fin 256) (r : HostReq) (queue mode base count qpn addr key entries i : Nat) (q : Qp) (s : State),
      Asked s ctx sq 0x2C r → s.ledger.length < 1024 → s.clientQp ctx qpn = some (i, q) →
      (s.taken r).queueOk ctx queue mode base count entries addr (some (i, q)) →
      Runs (.ldgQueueOpen ctx sq queue mode base count qpn addr key entries) s
        (((s.taken r).setQueue queue (LedgerQueue.fresh ctx mode base count i addr key entries)).answer r stOK))
  ∧ (∀ (ctx : Fin 64) (sq : Fin 256) (r : HostReq) (queue : Nat) (q : LedgerQueue) (s t : State), Asked s ctx sq 0x2D r →
      s.queue queue = some q → q.ctx = ctx.val → q.recovery = false → t = (s.taken r).abortQueue queue →
      Runs (.ldgQueueClose ctx sq queue) s (State.answer { t with ledger := Map.del t.ledger queue } r stOK))

/-- Configuration transactions (R241, R352, R438, R439). -/
def Obligations.TransactionsComplete : Prop :=
  (∀ (ctx : Fin 64) (sq : Fin 256) (r : HostReq) (s : State), Asked s ctx sq 0x38 r → allZero (r.args.drop 4) →
    s.openTxn ctx = none → (∀ n, Map.find s.host.lastNum ctx = some n → n < fieldAt r.args 0 4) →
    Runs (.txnBegin ctx sq) s
      (((s.taken r).setTxns ctx (s.txnsOf ctx ++ [{
        num := fieldAt r.args 0 4, eff := r.effStep, state := .open_, marked := false, staged := 0, items := [] }])).answer r
          stOK))
  ∧ (∀ (ctx : Fin 64) (sq : Fin 256) (r : HostReq) (x : Txn) (e : Nat) (s t : State), Asked s ctx sq 0x39 r →
      s.openTxn ctx = some x → ((s.taken r).dropOpen ctx).commitTxn ctx x = .ok (e, t) →
      Runs (.txnCommit ctx sq) s (t.finish r stOK e x.num))
  ∧ (∀ (ctx : Fin 64) (sq : Fin 256) (r : HostReq) (s : State), Asked s ctx sq 0x3A r → s.openTxn ctx ≠ none →
      Runs (.txnRollback ctx sq) s (((s.taken r).dropOpen ctx).answer r stOK))
  ∧ (∀ (ctx : Fin 64) (sq : Fin 256) (r : HostReq) (num : Nat) (x : Txn) (s : State), Asked s ctx sq 0x3B r →
      (s.txnsOf ctx).find? (fun t => !t.isOpen && t.num == num) = some x → x.state ≠ .fixed →
      Runs (.txnCancel ctx sq num) s
        ((((s.taken r).setTxns ctx ((s.txnsOf ctx).erase x)).releaseTxn ctx x).answer r stOK))
  ∧ (∀ (ctx : Fin 64) (s : State), s.safe = false → Runs (.txnApply ctx) s ((s.applyTxns ctx).planReady ctx 16))
  ∧ (∀ (sq : Fin 256) (r : HostReq) (buf : Bytes) (x : Txn) (s : State), Asked s 0 sq 0x40 r → 64 ≤ buf.length →
      buf.length % 8 = 0 → buf.length = r.len → s.openTxn 0 = some x → x.staged < 64 →
      Runs (.share sq buf) s
        (((s.taken r).setTxns 0 ((s.txnsOf 0).map (fun t => if t.isOpen then
          { x with staged := x.staged + 1, items := x.items ++ [.share buf] } else t))).answer r stOK))

/-- Seating, vocabulary slots and the lives of contexts (R101, R149, R151, R349 to R361). -/
def Obligations.SeatsAndContextsComplete : Prop :=
  (∀ (sq : Fin 256) (r : HostReq) (ctx mask : Nat) (s : State), Asked s 0 sq 0x41 r → ctx < 64 → mask < 2 ^ 96 →
    s.ctxState ctx ≠ csTEARDOWN → (s.taken r).seatStatus ctx mask = none → (s.taken r).awake mask →
    Runs (.tileSeat sq ctx mask) s
      (((tilesIn mask).foldl (fun s t => s.seatTile ctx t) (s.taken r)).answer r stOK))
  ∧ (∀ (sq : Fin 256) (r : HostReq) (ctx mask : Nat) (s : State), Asked s 0 sq 0x42 r → ctx < 64 → mask < 2 ^ 96 →
      (tilesIn mask).all s.tilePresent → (tilesIn mask).all (s.seatedTo ctx) → (s.taken r).awake mask →
      Runs (.tileUnseat sq ctx mask) s (((tilesIn mask).foldl State.unseatTile (s.taken r)).answer r stOK))
  ∧ (∀ (sq : Fin 256) (r : HostReq) (slot ctx : Nat) (s : State), Asked s 0 sq 0x43 r → slot < 8 → ctx < 64 →
      s.ctxState ctx ≠ csTEARDOWN → s.fld (fVOC_SLOTn_ASSIGNED slot) ≠ 1 →
      Runs (.vocAssign sq slot ctx) s
        ((((s.taken r).flag (fVOC_SLOTn_ASSIGNED slot)).setFld (fVOC_SLOTn_CONTEXT slot) ctx).answer r stOK))
  ∧ (∀ (sq : Fin 256) (r : HostReq) (slot : Nat) (s : State), Asked s 0 sq 0x44 r → slot < 8 →
      (∀ b, b < 2 → s.bankBound (bankNum slot b) = false ∧ s.fld (fBankState slot b) ≠ vbLOADING) →
      Runs (.vocUnassign sq slot) s (((s.taken r).unassignSlot slot).answer r stOK))
  ∧ (∀ (sq : Fin 256) (r : HostReq) (target : Fin 64) (s t : State), Asked s 0 sq 0x45 r →
      (s.taken r).ownerReset target = some t → Runs (.ctxReset sq target) s (t.answer r stOK))
  ∧ (∀ (sq : Fin 256) (r : HostReq) (target : Fin 64) (s : State), Asked s 0 sq 0x46 r → target ≠ 0 →
      s.ctxState target ≠ csFREE → s.ctxState target ≠ csTEARDOWN →
      Runs (.ctxTeardown sq target) s (((s.taken r).tearDown target).await r (.teardown target)))
  ∧ (∀ (ctx : Fin 64) (s : State), s.safe = false → s.ctxState ctx = csTEARDOWN → s.tilesOf ctx = [] →
      s.keysHeld ctx = false → Runs (.teardownComplete ctx) s (s.releaseContext ctx))
  ∧ (∀ (fn ctx : Fin 64) (s : State), s.safe = false → s.reaches fn → s.mod.recovery = false → fn = 0 ∨ fn = ctx →
      s.ctxState ctx = csACTIVE →
      Runs (.ctxResetReq fn ctx) s ((s.startReset ctx).flag (fCTX_CTRL_RESET_REQ ctx)))
  ∧ (∀ (ctx : Fin 64) (s : State), s.safe = false → s.reaches ctx → s.mod.recovery = false →
      s.fld (fCTX_STATUS_STOPPED ctx) ≠ 0 →
      ∃ t, exec (.ctxStoppedAck ctx ctx) s = .next t ∧ t.regs = s.regs
        ∧ t.flt.lines = s.flt.lines ++ [{
            kind := .ackF2, src := 0, status := stOK, unit := 0, ctx := ctx, cls := .f2, stamp := s.dtime, forced := false,
            discrepancy := false, concurrent := false }])
  ∧ (∀ (ctx : Fin 64) (s : State), s.safe = false → s.ctxState ctx = csSTOPPED →
      Runs (.dumpCaptureComplete ctx) s (s.startReset ctx))
  ∧ (∀ (ctx : Fin 64) (s : State), s.safe = false → s.ctxState ctx = csRESETTING → s.resetDone ctx →
      Runs (.contextResetComplete ctx) s (s.completeReset ctx))

/-- Firmware update and boot (R397, R404, R458 to R466). -/
def Obligations.UpdateAndBootComplete : Prop :=
  (∀ (sq : Fin 256) (r : HostReq) (buf : Bytes) (fit : FwFit) (c : Nat) (s u : State), Asked s 0 sq 0xF0 r →
    r.len = buf.length → headerOk buf → c = fieldAt buf 6 1 → u = s.taken r → u.updComp = none →
    u.levelStatus c (hdrImage buf []) fit = none → hdrDelta buf = false →
    Runs (.updBegin sq buf fit) s
      (if signed buf then
        (((((u.setStaging c { Bank.empty with header := buf }).setUpd c usDOWNLOADING).showNext c).setFld
          fUPD_STATUS_LAST_STATUS 0).answer r stOK)
       else (State.showStatus u.badSignature).2.1.answer r u.badSignature.1))
  ∧ (∀ (sq : Fin 256) (r : HostReq) (off : Nat) (buf : Bytes) (s t : State), Asked s 0 sq 0xF1 r →
      r.len = buf.length → (s.taken r).runUpd (.write off buf) = (stOK, t, none) →
      Runs (.updWrite sq off buf) s (t.answer r stOK))
  ∧ (∀ (sq : Fin 256) (r : HostReq) (bad : Option Nat) (fit : FwFit) (s t : State), Asked s 0 sq 0xF2 r →
      (s.taken r).runUpd (.verify bad fit) = (stOK, t, none) → Runs (.updVerify sq bad fit) s (t.answer r stOK))
  ∧ (∀ (sq : Fin 256) (r : HostReq) (fit : FwFit) (readBack : Bool) (c : Nat) (s t : State), Asked s 0 sq 0xF3 r →
      (s.taken r).runUpd (.activate fit readBack) = (stOK, t, some c) →
      Runs (.updActivate sq fit readBack) s (t.await r (.update c)))
  ∧ (∀ (sq : Fin 256) (r : HostReq) (fit : FwFit) (readBack : Bool) (s t : State), Asked s 0 sq 0xF3 r →
      (s.taken r).runUpd (.activate fit readBack) = (stOK, t, none) →
      Runs (.updActivate sq fit readBack) s (t.answer r stOK))
  ∧ (∀ (sq : Fin 256) (r : HostReq) (readBack : Bool) (s t : State), Asked s 0 sq 0xF4 r →
      (s.taken r).runUpd (.confirm readBack) = (stOK, t, none) → Runs (.updConfirm sq readBack) s (t.answer r stOK))
  ∧ (∀ (sq : Fin 256) (r : HostReq) (s t : State), Asked s 0 sq 0xF5 r →
      (s.taken r).runUpd .abort = (stOK, t, none) → Runs (.updAbort sq) s (t.answer r stOK))
  ∧ (∀ (sq : Fin 256) (r : HostReq) (s t : State), Asked s 0 sq 0xF6 r →
      (s.taken r).runUpd .revert = (stOK, t, none) → Runs (.updRevert sq) s (t.answer r stOK))
  ∧ (∀ (lowest : Nat) (check : Bool) (c left : Nat) (s : State), s.safe = false →
      s.fw.switching = some (c, left, false) → s.fw.switchStep = none → left ≤ 1 →
      Runs (.updSwitchComplete lowest check) s
        ((s.setFw { s.fw with switching := none, switchStep := none }).finishSwitch c lowest check))
  ∧ (∀ (c : Fin 4) (since : Nat) (s : State), s.safe = false → Map.find s.fw.trialAt c = some since →
      s.updState c = usTRIAL → since + s.fld fUPD_CFG_CONFIRM_S * 10 ^ 9 ≤ s.dtime →
      Runs (.trialTimeout c) s (s.rollback c))
  ∧ (∀ (facts : BootFacts) (s : State), s.safe = false → s.mod.held = false → s.mod.pwrGood → s.mod.modReset = false →
      s.mod.recovery = false → s.mod.stopped = false → s.mod.booted < 5 →
      Runs (.bootStage facts) s (s.bootStage facts))
  ∧ (∀ s : State, s.safe = false → s.lan.fwKicked + 50000000 ≤ s.dtime →
      ∃ t, exec .watchdogExpiry s = .next t ∧ t.lan = { s.lan with fwAlive := false } ∧ t.regs = s.regs)
  ∧ (∀ s : State, s.mctpServed →
      ∃ t, exec (.mctpRequest .faultRecords) s = .next t
        ∧ t.out = s.out ++ [.i3c ((s.flt.records.map FaultRec.bytes).flatten)] ∧ t.regs = s.regs)
  ∧ (∀ (op : UpdOp) (st : Status) (c : Option Nat) (s u : State), s.safe = false → s.mctpServed →
      s.runUpd op = (st, u, c) → Runs (.mctpRequest (.update op)) s (u.emit (.i3c (toLE 2 st.toNat))))

/-- Lane instructions (R76 to R93, Tables 3.2, 3.3): each retires with the register, memory byte or pc that its class names. -/
def Obligations.LaneInstructionsComplete : Prop :=
  (∀ (tile : Fin 96) (lane : Fin 288) (op : IntOp) (rd rs1 rs2 : Fin 32) (x : Lane) (s : State), Issues s tile lane →
    x = (s.tile tile).lane lane → op ≠ .illegal →
    Runs (.integerOp tile lane op rd rs1 rs2) s
      (s.endLane tile lane (.go (x.result s rd (intResult op (x.getG rs1) (x.getG rs2))).next)).used)
  ∧ (∀ (tile : Fin 96) (lane : Fin 288) (op : ImmOp) (rd rs1 : Fin 32) (imm : BitVec 16) (x : Lane) (s : State),
      Issues s tile lane → x = (s.tile tile).lane lane → op ≠ .illegal →
      Runs (.integerImmediateOp tile lane op rd rs1 imm) s
        (s.endLane tile lane (.go (x.result s rd (immResult op (x.getG rs1) imm)).next)).used)
  ∧ (∀ (tile : Fin 96) (lane : Fin 288) (size : LaneSize) (signed : Bool) (rd rs1 : Fin 32) (imm : BitVec 16) (x : Lane)
      (s : State), Issues s tile lane → x = (s.tile tile).lane lane → badAddr (x.addr rs1 imm) size.bytes = false →
      Runs (.load tile lane size signed rd rs1 imm) s (s.endLane tile lane
        (.go (x.setG rd (extend64 size signed (leNat (s.loadTile tile (x.addr rs1 imm) size.bytes)))).next)))
  ∧ (∀ (tile : Fin 96) (lane : Fin 288) (size : LaneSize) (rd rs1 : Fin 32) (imm : BitVec 16) (x : Lane) (s : State),
      Issues s tile lane → x = (s.tile tile).lane lane → badAddr (x.addr rs1 imm) size.bytes = false →
      s.readOnly tile (x.addr rs1 imm) = false →
      Runs (.store tile lane size rd rs1 imm) s
        ((s.storeTile tile (x.addr rs1 imm) (toLE size.bytes (x.getG rd).toNat)).endLane tile lane (.go x.next)))
  ∧ (∀ (tile : Fin 96) (lane : Fin 288) (vd : Fin 16) (rs1 : Fin 32) (imm : BitVec 16) (x : Lane) (s : State),
      Issues s tile lane → x = (s.tile tile).lane lane → badAddr (x.addr rs1 imm) 16 = false →
      Runs (.vectorLoad tile lane vd rs1 imm) s (s.endLane tile lane
        (.go (x.setV vd (BitVec.ofNat 128 (leNat (s.loadTile tile (x.addr rs1 imm) 16)))).next)))
  ∧ (∀ (tile : Fin 96) (lane : Fin 288) (vd : Fin 16) (rs1 : Fin 32) (imm : BitVec 16) (x : Lane) (s : State),
      Issues s tile lane → x = (s.tile tile).lane lane → badAddr (x.addr rs1 imm) 16 = false →
      s.readOnly tile (x.addr rs1 imm) = false →
      Runs (.vectorStore tile lane vd rs1 imm) s
        ((s.storeTile tile (x.addr rs1 imm) (toLE 16 (x.getV vd).toNat)).endLane tile lane (.go x.next)))
  ∧ (∀ (tile : Fin 96) (lane : Fin 288) (op : BranchOp) (rs1 rs2 : Fin 32) (off : BitVec 16) (x : Lane) (s : State),
      Issues s tile lane → x = (s.tile tile).lane lane → op ≠ .illegal →
      Runs (.branch tile lane op rs1 rs2 off) s (s.endLane tile lane
        (.go (if branchTaken op (x.getG rs1) (x.getG rs2) then x.jump off.toInt else x.next))))
  ∧ (∀ (tile : Fin 96) (lane : Fin 288) (rd : Fin 32) (off : BitVec 21) (x : Lane) (s : State), Issues s tile lane →
      x = (s.tile tile).lane lane →
      Runs (.jumpAndLink tile lane rd off) s
        (s.endLane tile lane (.go ((x.setG rd (BitVec.ofNat 64 (x.pc + 4))).jump off.toInt))))
  ∧ (∀ (tile : Fin 96) (lane : Fin 288) (rd rs1 : Fin 32) (imm : BitVec 16) (x : Lane) (a : Nat) (s : State),
      Issues s tile lane → x = (s.tile tile).lane lane → a = x.addr rs1 imm % 2 ^ 32 →
      Runs (.jumpRegister tile lane rd rs1 imm) s
        (s.endLane tile lane (.go { x.setG rd (BitVec.ofNat 64 (x.pc + 4)) with pc := a - a % 4 })))
  ∧ (∀ (tile : Fin 96) (lane : Fin 288) (op : VecOp) (w : ElemWidth) (vd vs1 vs2 : Fin 16) (x : Lane) (s : State),
      Issues s tile lane → x = (s.tile tile).lane lane → op ≠ .illegal →
      Runs (.vectorIntegerOp tile lane op w vd vs1 vs2) s (s.endLane tile lane
        (.go (x.setV vd (vecResult (Config.freeValue 128 s.freeCtr) op w.bits (x.getV vd) (x.getV vs1) (x.getV vs2))).next)).used)
  ∧ (∀ (tile : Fin 96) (lane : Fin 288) (op : PermOp) (w : ElemWidth) (vd vs1 vs2 : Fin 16) (x : Lane) (s : State),
      Issues s tile lane → x = (s.tile tile).lane lane → op ≠ .illegal →
      Runs (.vectorPermute tile lane op w vd vs1 vs2) s (s.endLane tile lane
        (.go (permLane (Config.freeValue 128 s.freeCtr) op w.bits vd vs1 vs2 x).next)).used)
  ∧ (∀ (tile : Fin 96) (lane : Fin 288) (op : FpOp) (w : FpWidth) (rd rs1 rs2 : Fin 32) (x : Lane) (v : Nat) (s : State),
      Issues s tile lane → x = (s.tile tile).lane lane → op ≠ .illegal →
      fpResult op w (x.getG rd) (x.getG rs1) (x.getG rs2) = some v →
      Runs (.floatingPointOp tile lane op w rd rs1 rs2) s (s.endLane tile lane
        (.go (x.setG rd
          (BitVec.ofNat 64 (putBits (Config.freeValue 64 s.freeCtr).toNat 0 (fpBits op w) v))).next)).used)
  ∧ (∀ (tile : Fin 96) (lane : Fin 288) (slot : Fin 8) (s t : State), Issues s tile lane →
      (s.tile tile).arriveFault lane slot (s.maskOf tile slot) = none → t = s.arrive tile lane slot (s.maskOf tile slot) →
      Runs (.barArrive tile lane slot) s (t.endLane tile lane (.go ((t.tile tile).lane lane).next)))
  ∧ (∀ (tile : Fin 96) (lane : Fin 288) (slot : Fin 8) (x : Lane) (s : State), s.safe = false →
      s.laneIssues tile lane (· == .bar slot false) → x = (s.tile tile).lane lane →
      (s.tile tile).released lane slot = some true →
      Runs (.barWait tile lane slot) s (s.endLane tile lane (.go (x.forget slot).next)))
  ∧ (∀ (tile : Fin 96) (lane : Fin 288) (slot : Fin 8) (s t : State), s.safe = false →
      s.laneIssues tile lane (· == .bar slot true) → ((s.tile tile).lane lane).stall ≠ .bar slot true →
      (s.tile tile).arriveFault lane slot (s.maskOf tile slot) = none → t = s.arrive tile lane slot (s.maskOf tile slot) →
      (t.tile tile).released lane slot = some true →
      Runs (.barSync tile lane slot) s
        (t.endLane tile lane (.go (((t.tile tile).lane lane).forget slot).next)))
  ∧ (∀ (tile : Fin 96) (lane : Fin 288) (rd : Fin 32) (slot : Fin 8) (x : Lane) (s : State), Issues s tile lane →
      x = (s.tile tile).lane lane → notMember (s.maskOf tile slot) lane = false →
      Runs (.rank tile lane rd 0 slot) s (s.endLane tile lane
        (.go (x.setG rd (BitVec.ofNat 64 (popCount 288 (s.maskOf tile slot % 2 ^ lane.val)))).next)))
  ∧ (∀ (tile : Fin 96) (lane : Fin 288) (rd : Fin 32) (n : Nat) (i : ImageRec) (k : Kernel) (s : State), s.safe = false →
      s.laneIssues tile lane (· == .workGet rd) → s.tileImage tile = some i → i.kernelOf lane = some k → k.group = false →
      s.choose (s.tile tile).freeItems = some n →
      Runs (.workGet tile lane rd) s
        (((s.setLane tile lane { (s.tile tile).lane lane with stall := .workGet rd }).giveSlot tile n (2 ^ lane.val) i).used))
  ∧ (∀ (tile : Fin 96) (lane : Fin 288) (rs1 : Fin 32) (x : Lane) (a n : Nat) (q : SlotRec) (s : State),
      Issues s tile lane → x = (s.tile tile).lane lane → a = (x.getG rs1).toNat → s.heldSlot tile lane a = some (n, q) →
      Runs (.workDone tile lane rs1) s
        (((s.endLane tile lane (.go { x.next with slot := none })).mapTile tile (fun r => r.dropSlot n)).takeDone tile {
          item := q.item, tile := tile, outHandle := leNat (Mem.read (s.tile tile).store (a + 24) 8),
          outLen := leNat (Mem.read (s.tile tile).store (a + 32) 4),
          verdict := leNat (Mem.read (s.tile tile).store (a + 36) 2), at_ := s.dtime }))
  ∧ (∀ (tile : Fin 96) (lane : Fin 288) (x : Lane) (s : State), Issues s tile lane → x = (s.tile tile).lane lane →
      Runs (.halt tile lane) s (s.endLane tile lane (.go { x with run := .halted })))
  ∧ (∀ (tile : Fin 96) (lane : Fin 288) (rd rs1 : Fin 32) (e op : BitVec 8) (x : Lane) (k a : Nat) (s t : State),
      s.safe = false → s.laneIssues tile lane (· == .eng) → x = (s.tile tile).lane lane → a = (x.getG rs1).toNat →
      s.choose ((List.range 8).filter (fun k => !Map.has x.tickets k)) = some k → engineKnown e.toNat →
      ((s.tile tile).calls.filter (fun c => c.engine == e.toNat)).length < 64 → a + 64 ≤ storeSize →
      s.engineAbsent e.toNat = false →
      descBad ((s.tileImage tile).elim 0 (·.constEnd)) e.toNat op.toNat (s.loadTile tile a 64) = false →
      (s.tile tile).foreignOverlap lane (s.loadTile tile a 64) = false →
      t = s.used.acceptCall tile lane k e.toNat op.toNat a (s.loadTile tile a 64) none →
      Runs (.eng tile lane rd rs1 e op) s
        (t.endLane tile lane (.go (((t.tile tile).lane lane).setG rd (BitVec.ofNat 64 k)).next)))
  ∧ (∀ (tile : Fin 96) (lane : Fin 288) (rd rs1 : Fin 32) (x : Lane) (k len : Nat) (st : Status) (tk : Ticket) (s : State),
      s.safe = false → x = (s.tile tile).lane lane → k = (x.getG rs1).toNat → s.laneIssues tile lane (· == .ewait k) →
      Map.find x.tickets k = some tk → tk.result = some (len, st) →
      Runs (.ewait tile lane rd rs1) s (s.endLane tile lane
        (.go (Lane.setG { x with tickets := Map.del x.tickets k } rd (ticketWord len st)).next)))
  ∧ (∀ (tile : Fin 96) (lane : Fin 288) (rd rs1 : Fin 32) (x : Lane) (k : Nat) (tk : Ticket) (s : State), Issues s tile lane →
      x = (s.tile tile).lane lane → k = (x.getG rs1).toNat → Map.find x.tickets k = some tk →
      Runs (.epoll tile lane rd rs1) s (s.endLane tile lane (match tk.result with
        | none => .go (x.setG rd 0xFFFF#64).next
        | some (len, st) => .go (Lane.setG { x with tickets := Map.del x.tickets k } rd (ticketWord len st)).next)))

/-- Engine calls (R83, R107 to R142, R158 to R187, R316): DMA, decompression, decoding, geometry, tokens, matrices, video. -/
def Obligations.EngineCallsComplete : Prop :=
  (∀ (tile : Fin 96) (c : Call) (num : Nat) (ch : Chain) (s : State), Called s tile 0x00 0x01 c →
    s.findChain (s.tileCtx tile) (fieldAt c.desc 32 8) none = .ok (num, ch) →
    fieldAt c.desc 40 8 + (descOut c.desc).2 ≤ ch.size →
    Runs (.tileDmaLoad tile) s (s.finishCall tile c
      ⟨stOK, (descOut c.desc).2, Mem.read ch.bytes (fieldAt c.desc 40 8) (descOut c.desc).2⟩))
  ∧ (∀ (tile : Fin 96) (c : Call) (num : Nat) (ch : Chain) (s : State), Called s tile 0x00 0x02 c →
      s.findChain (s.tileCtx tile) (fieldAt c.desc 32 8) (some (agTILE, tile.val)) = .ok (num, ch) →
      fieldAt c.desc 40 8 + (descIn c.desc).2 ≤ ch.size →
      Runs (.tileDmaStore tile) s
        ((s.setChain (s.tileCtx tile) num { ch with
          bytes := Mem.write ch.bytes (fieldAt c.desc 40 8) (s.inBytes tile c) }).completeCall tile c (descIn c.desc).2 stOK))
  ∧ (∀ (tile : Fin 96) (c : Call) (s : State), Called s tile 0x01 0x01 c → fieldAt c.desc 40 4 ≤ (descOut c.desc).2 →
      Runs (.decompressDecode tile) s (s.finishDecode tile c (fieldAt c.desc 40 4)
        (decodeCodec none (fieldAt c.desc 32 1) (s.inBytes tile c) (fieldAt c.desc 40 4))))
  ∧ (∀ (tile : Fin 96) (c : Call) (hs : List Nat) (e : EngRes) (s : State), Called s tile 0x14 0x01 c →
      hs = handleList (s.auxBytes tile c) → hs.length ≤ 512 → (descAux c.desc).2 % 8 = 0 →
      s.handlesErr (s.tileCtx tile) (fieldAt c.desc 32 8 :: hs) = none → fieldAt c.desc 48 4 ≤ 0x200000 * hs.length →
      e = decodeCodec (some (2 ^ 27)) (fieldAt c.desc 52 1)
        (s.readHandle (fieldAt c.desc 32 8) (fieldAt c.desc 40 4) (fieldAt c.desc 44 4)) (fieldAt c.desc 48 4) →
      e.status = stOK →
      Runs (.hubDecompressDecode tile) s ((s.used.writeAcross hs e.out).completeCall tile c e.len stOK))
  ∧ (∀ (tile : Fin 96) (c : Call) (s : State), Called s tile 0x02 0x01 c →
      Runs (.decodeFull tile) s (s.finishDecode tile c (descOut c.desc).2
        (decodeFull (fieldAt c.desc 32 1) (keep16 c.desc) (descOut c.desc).2 (s.inBytes tile c))))
  ∧ (∀ (tile : Fin 96) (c : Call) (s : State), Called s tile 0x02 0x02 c →
      Runs (.decodeRegion tile) s (s.finishDecode tile c (descOut c.desc).2
        (decodeRegion (fieldAt c.desc 32 1) (keep16 c.desc) (descOut c.desc).2 (s.inBytes tile c) (s.auxBytes tile c)
          (fieldAt c.desc 40 2) (fieldAt c.desc 42 2) (fieldAt c.desc 44 2) (fieldAt c.desc 46 2))))
  ∧ (∀ (tile : Fin 96) (c : Call) (s : State), Called s tile 0x02 0x03 c →
      Runs (.imageInfo tile) s (s.finishDecode tile c (descOut c.desc).2
        (decodeInfo (fieldAt c.desc 32 1) (keep16 c.desc) (descOut c.desc).2 (s.inBytes tile c))))
  ∧ (∀ (tile : Fin 96) (c : Call) (s : State), Called s tile 0x03 0x01 c →
      Runs (.transform tile) s (s.finishCall tile c
        (geoTransform s.clockProfile (selfOverlap c.desc) (s.inBytes tile c) (s.auxBytes tile c) (descOut c.desc).2)))
  ∧ (∀ (tile : Fin 96) (c : Call) (s : State), Called s tile 0x03 0x02 c →
      Runs (.normalise tile) s (s.finishCall tile c
        (geoNormalise (selfOverlap c.desc) (s.inBytes tile c) (s.auxBytes tile c) (descOut c.desc).2)))
  ∧ (∀ (tile : Fin 96) (c : Call) (k : Nat) (v : VocBank) (voc : Vocab) (s : State), Called s tile 0x04 0x01 c →
      (s.boundBanks tile)[fieldAt c.desc 32 1]? = some k → Map.find s.vocs k = some v → parseVocab v.image = some voc →
      fieldAt c.desc 33 1 < 16 → (descAux c.desc).2 = 0 → s.bankState k ≠ 3 →
      Runs (.tokenize tile) s
        ((s.finishTokens tile c (tokenize voc (fieldAt c.desc 33 1) (s.inBytes tile c) (descOut c.desc).2)).mapTile tile
          (fun r => { r with vcache := (k :: r.vcache).eraseDups })))
  ∧ (∀ (tile : Fin 96) (c : Call) (k : Nat) (v : VocBank) (voc : Vocab) (d : TokRes) (s : State), Called s tile 0x04 0x02 c →
      (s.boundBanks tile)[fieldAt c.desc 32 1]? = some k → Map.find s.vocs k = some v → parseVocab v.image = some voc →
      fieldAt c.desc 33 1 < 8 → (descAux c.desc).2 = 8 → (descIn c.desc).2 % voc.idWidth = 0 → holdOk (s.auxBytes tile c) →
      s.bankState k ≠ 3 →
      d = detokenize voc (fieldAt c.desc 33 1) (s.inBytes tile c) (s.auxBytes tile c) (descOut c.desc).2 →
      Runs (.detokenize tile) s
        (((s.storeTile tile (descAux c.desc).1 (holdState d.hold)).finishTokens tile c d).mapTile tile
          (fun r => { r with vcache := (k :: r.vcache).eraseDups })))
  ∧ (∀ (tile : Fin 96) (c : Call) (s : State), Called s tile 0x05 0x01 c →
      Runs (.matmul tile .agrees) s (s.finishCall tile c
        (matmul (slice c.desc 32 32) (s.inBytes tile c) (s.auxBytes tile c) (descOut c.desc).2)))
  ∧ (∀ (tile : Fin 96) (c : Call) (d : CtxData) (w : WorkItem) (i : ImageRec) (s : State), Called s tile 0x05 0x10 c →
      d = s.ctxData (s.tileCtx tile) → s.tileImage tile = some i → s.callItem tile c = some w → (descAux c.desc).2 = 0 →
      Runs (.filter tile .agrees) s (s.finishCall tile c
        (filterCall (parseModels i.models) (fieldAt c.desc 32 1) (d.power == 1) true
          ((List.range 16).map (fun k => d.decision w.step (16 * fieldAt c.desc 32 1 + k))) (s.inBytes tile c)
          (descOut c.desc).2)))
  ∧ (∀ (tile : Fin 96) (c : Call) (d : CtxData) (w : WorkItem) (s : State), Called s tile 0x05 0x11 c →
      d = s.ctxData (s.tileCtx tile) → s.callItem tile c = some w → (descAux c.desc).2 = 0 →
      Runs (.mix tile) s (s.finishCall tile c
        (mixCall true (descIn c.desc).2 w.mixWord (d.weight w.step w.dataset) (descOut c.desc).2)))
  ∧ (∀ (tile : Fin 96) (c : Call) (handle start count stride margin : Nat) (rects : List (Nat × Nat × Nat × Nat))
      (hs : List Nat) (stream out : Bytes) (s : State), Called s tile 0x15 0x01 c → 1 ≤ count → count ≤ 4096 → 1 ≤ stride →
      stride ≤ 255 → margin % 16 = 0 → 8 * count ≤ (s.auxBytes tile c).length →
      rects = cropRects (s.auxBytes tile c) count → hs = handleList ((s.auxBytes tile c).drop (8 * count)) →
      s.handlesErr (s.tileCtx tile) (handle :: hs) = none → stream = s.readHandle handle 0 (s.handleSize handle) →
      out = ((List.range count).map (fun i =>
        cropFrame stream (start + i * stride) (rects.getD i (0, 0, 0, 0)))).flatten →
      Runs (.vdcDecode tile handle start count stride margin) s
        (if BitVec.ofNat 16 (Config.videoStatus stream) = stDEC_UNSUPPORTED then s.completeCall tile c 0 stDEC_UNSUPPORTED
         else if rects.any (rectBad stream) then s.completeCall tile c 0 stDEC_REGION
         else if 0x200000 * hs.length < out.length then s.completeCall tile c 0 stDEC_LIMIT
         else if BitVec.ofNat 16 (Config.videoStatus stream) = stOK then
           (s.writeAcross hs out).completeCall tile c out.length stOK
         else (s.used.writeAcross hs (s.freeBytes out.length)).completeCall tile c 0
           (BitVec.ofNat 16 (Config.videoStatus stream))))
  ∧ (∀ (vdc : Bool) (s : State), s.safe = false → (vdc = true → s.hw.variant.hasVdc) →
      Runs (.hubUnitUncorrected vdc) s (s.hubUnitLost vdc))

/-- Innkeeper, pegs and device barriers (R316 to R331). -/
def Obligations.SharedServicesComplete : Prop :=
  (∀ (tile : Fin 96) (cls : Fin 4) (count h : Nat) (c : Call) (s u : State), Called s tile 0x10 0x01 c →
    unusedZero c.desc [(40, 1), (42, 2)] → allocArgsOk (fieldAt c.desc 40 1) (fieldAt c.desc 42 2) →
    s.alloc (s.tileCtx tile) (fieldAt c.desc 40 1) (fieldAt c.desc 42 2) agTILE tile = .ok (h, u) → 8 ≤ (descOut c.desc).2 →
    Runs (.alloc (.call tile) cls count) s (u.finishCall tile c (output (toLE 8 h))))
  ∧ (∀ (agent : Fin 8) (ctx : Fin 64) (cls : Fin 4) (count h : Nat) (s u : State), s.safe = false → allocArgsOk cls count →
      s.alloc ctx cls count agent 0 = .ok (h, u) → Runs (.alloc (.hub agent ctx) cls count) s u)
  ∧ (∀ (tile : Fin 96) (handle : Nat) (cls : Fin 4) (count num : Nat) (ch : Chain) (c : Call) (s u : State),
      Called s tile 0x10 0x02 c → unusedZero c.desc [(32, 8), (40, 1), (42, 2)] →
      s.findChain (s.tileCtx tile) (fieldAt c.desc 32 8) (some (agTILE, tile.val)) = .ok (num, ch) →
      allocArgsOk (fieldAt c.desc 40 1) (fieldAt c.desc 42 2) →
      s.extend (s.tileCtx tile) num ch (fieldAt c.desc 40 1) (fieldAt c.desc 42 2) = .ok u →
      Runs (.extend (.call tile) handle cls count) s (u.finishCall tile c (answer stOK)))
  ∧ (∀ (agent : Fin 8) (ctx : Fin 64) (handle : Nat) (cls : Fin 4) (count num : Nat) (ch : Chain) (s u : State),
      s.safe = false → s.findChain ctx handle (some (agent.val, 0)) = .ok (num, ch) → allocArgsOk cls count →
      s.extend ctx num ch cls count = .ok u → Runs (.extend (.hub agent ctx) handle cls count) s u)
  ∧ (∀ (tile : Fin 96) (handle num : Nat) (ch : Chain) (c : Call) (s : State), Called s tile 0x10 0x03 c →
      (s.tile tile).accesses (fieldAt c.desc 32 8) = false → unusedZero c.desc [(32, 8)] →
      s.findChain (s.tileCtx tile) (fieldAt c.desc 32 8) (some (agTILE, tile.val)) = .ok (num, ch) →
      Runs (.free (.call tile) handle) s ((s.freeNum (s.tileCtx tile) num).finishCall tile c (answer stOK)))
  ∧ (∀ (agent : Fin 8) (ctx : Fin 64) (handle num : Nat) (ch : Chain) (s : State), s.safe = false →
      s.findChain ctx handle (some (agent.val, 0)) = .ok (num, ch) →
      Runs (.free (.hub agent ctx) handle) s (s.freeNum ctx num))
  ∧ (∀ (tile : Fin 96) (handle num : Nat) (agent : Fin 8) (ch : Chain) (c : Call) (s : State), Called s tile 0x10 0x04 c →
      (s.tile tile).accesses (fieldAt c.desc 32 8) = false → unusedZero c.desc [(32, 8), (44, 1)] →
      s.findChain (s.tileCtx tile) (fieldAt c.desc 32 8) (some (agTILE, tile.val)) = .ok (num, ch) →
      laneMayGive (fieldAt c.desc 44 1) →
      Runs (.handoff (.call tile) handle agent) s
        ((s.setChain (s.tileCtx tile) num { ch with owner := fieldAt c.desc 44 1 }).finishCall tile c (answer stOK)))
  ∧ (∀ (giver agent : Fin 8) (ctx : Fin 64) (handle num : Nat) (ch : Chain) (s : State), s.safe = false →
      s.findChain ctx handle (some (giver.val, 0)) = .ok (num, ch) →
      Runs (.handoff (.hub giver ctx) handle agent) s (s.setChain ctx num { ch with owner := agent }))
  ∧ (∀ (tile : Fin 96) (num : Nat) (ch : Chain) (c : Call) (s : State), Called s tile 0x10 0x05 c →
      unusedZero c.desc [(32, 8)] → s.findChain (s.tileCtx tile) (fieldAt c.desc 32 8) none = .ok (num, ch) →
      10 ≤ (descOut c.desc).2 →
      Runs (.inkInfo tile) s (s.finishCall tile c (output (toLE 8 ch.size ++ toLE 2 ch.bufs.length))))
  ∧ (∀ (cls : Fin 3) (i : Nat) (rest : List Nat) (s : State), s.safe = false → (s.pool cls).scrub = i :: rest →
      Runs (.bufferScrubComplete cls) s (s.setPool cls (Pool.give { s.pool cls with scrub := rest } i)))
  ∧ (∀ (tile : Fin 96) (peg value : Nat) (p : Peg) (c : Call) (s : State), Called s tile 0x11 0x01 c →
      unusedZero c.desc [(32, 2), (36, 4)] → fieldAt c.desc 36 4 ≠ 0 →
      s.peg (s.tileCtx tile) (fieldAt c.desc 32 2) = some p → p.value + fieldAt c.desc 36 4 ≤ 0xFFFFFFFF →
      Runs (.pegAdd (.call tile) peg value) s
        ((s.setPeg (s.tileCtx tile) (fieldAt c.desc 32 2) (p.value + fieldAt c.desc 36 4)).finishCall tile c (answer stOK)))
  ∧ (∀ (agent : Fin 8) (ctx : Fin 64) (peg value : Nat) (p : Peg) (s : State), s.safe = false → s.peg ctx peg = some p →
      p.value + value ≤ 0xFFFFFFFF → Runs (.pegAdd (.hub agent ctx) peg value) s (s.setPeg ctx peg (p.value + value)))
  ∧ (∀ (tile : Fin 96) (p : Peg) (c : Call) (s : State), Called s tile 0x11 0x02 c → unusedZero c.desc [(32, 2), (36, 4)] →
      s.peg (s.tileCtx tile) (fieldAt c.desc 32 2) = some p → fieldAt c.desc 36 4 ≤ p.value →
      Runs (.pegWait tile) s (s.completeCall tile c 0 stOK))
  ∧ (∀ (tile : Fin 96) (p : Peg) (c : Call) (s : State), Called s tile 0x11 0x03 c → unusedZero c.desc [(32, 2)] →
      s.peg (s.tileCtx tile) (fieldAt c.desc 32 2) = some p → 4 ≤ (descOut c.desc).2 →
      Runs (.pegRead tile) s (s.finishCall tile c (output (toLE 4 p.value))))
  ∧ (∀ (tile : Fin 96) (peg value : Nat) (p : Peg) (c : Call) (s : State), Called s tile 0x11 0x04 c →
      unusedZero c.desc [(32, 2), (36, 4)] → s.peg (s.tileCtx tile) (fieldAt c.desc 32 2) = some p →
      Runs (.pegSet (.call tile) peg value) s
        ((s.setPeg (s.tileCtx tile) (fieldAt c.desc 32 2) (fieldAt c.desc 36 4)).finishCall tile c (answer stOK)))
  ∧ (∀ (agent : Fin 8) (ctx : Fin 64) (peg value : Nat) (p : Peg) (s : State), s.safe = false → s.peg ctx peg = some p →
      Runs (.pegSet (.hub agent ctx) peg value) s (s.setPeg ctx peg (value % 2 ^ 32)))
  ∧ (∀ (tile : Fin 96) (c : Call) (s t : State), Called s tile 0x12 0x01 c → unusedZero c.desc [(32, 2), (34, 1)] →
      fieldAt c.desc 34 1 ≤ 1 → fieldAt c.desc 32 2 ≤ 255 →
      s.dbarArrive (s.tileCtx tile) tile (fieldAt c.desc 32 2) (fieldAt c.desc 34 1 == 1) = .ok t →
      Runs (.dbarArrive tile) s (t.completeCall tile c 0 stOK))
  ∧ (∀ (tile : Fin 96) (b : Dbar) (c : Call) (s : State), Called s tile 0x12 0x02 c →
      unusedZero c.desc [(32, 2), (34, 1)] → fieldAt c.desc 34 1 ≤ 1 → fieldAt c.desc 32 2 ≤ 255 →
      Map.find (s.barsOf (s.tileCtx tile)) (fieldAt c.desc 32 2) = some b → b.sense = (fieldAt c.desc 34 1 == 1) →
      Runs (.dbarWait tile) s (s.completeCall tile c 0 stOK))

/-- Tiles and work items (R90 to R105, R150), Dice (R68, R69), the sample fetch (R72). -/
def Obligations.TilesAndWorkComplete : Prop :=
  (∀ (ctx : Fin 64) (tile : Fin 96) (slot : Fin 64) (w : WorkItem) (s u : State), s.safe = false → u = s.queueArrived ctx →
    u.seatedTo ctx tile → u.tileState tile = tsREADY → (u.openSlots tile).contains slot.val →
    u.flt.withheld.contains tile.val = false → u.quarterRuns (quarterOf tile) → u.hasCredit (quarterOf tile) false 2 →
    u.nextItem tile = some w → u.splits w = false →
    Runs (.workItemDispatch ctx tile slot) s (((u.unqueue w).putItem tile slot w).cross (quarterOf tile) false 2))
  ∧ (∀ (ctx : Fin 64) (item h at_ : Nat) (w : WorkItem) (out : Bytes) (verdict : Bool) (sp : SplitRec) (s u : State),
      s.safe = false → sp = s.splitRec ctx → sp.sent.find? (fun e => e.1.id == item) = some (w, at_) →
      s.allocBytes ctx out.length agHOST = .ok (h, u) →
      Runs (.splitResult ctx item true out verdict) s (((u.writeHandle h 0 out).setSplit ctx { sp with
        sent := sp.sent.filter (fun e => e.1.id != item) }).splitReturned {
          item := w, tile := 96, outHandle := h, outLen := out.length, verdict := if verdict then 1 else 0, at_ := at_ }))
  ∧ (∀ (ctx : Fin 64) (item at_ : Nat) (w : WorkItem) (r : RunRec) (s : State), s.safe = false →
      (s.splitRec ctx).sent.find? (fun e => e.1.id == item) = some (w, at_) → s.runOf ctx = some r →
      at_ + r.cfg.splitTimeout ≤ s.dtime →
      ∃ t, exec (.splitTimeout ctx item) s = .next t ∧ t.work.queued = { w with noSplit := true } :: s.work.queued
        ∧ t.regs = s.regs)
  ∧ (∀ (tile : Fin 96) (i : Nat) (s : State), s.safe = false → s.tileState tile = tsSEATED →
      s.targetImage (s.tileCtx tile) = some i →
      Runs (.tileImageLoad tile) s
        ((s.mapTile tile (fun r => { r with bars := [], vcache := [], nextImage := some i })).setTileState tile tsLOADING))
  ∧ (∀ (tile : Fin 96) (n : Nat) (i : ImageRec) (s : State), s.safe = false → s.tileState tile = tsLOADING →
      (s.tile tile).nextImage = some n → s.imageRec n = some i →
      Runs (.tileLoadComplete tile) s
        ((((s.loadImage tile n i).setTileState tile tsREADY).flag (fTILE_STATE_IMAGE tile)).joinBars
          ((s.loadImage tile n i).tileCtx tile) tile))
  ∧ (∀ (tile : Fin 96) (i : Nat) (s : State), s.safe = false → s.tileState tile = tsREADY → s.changeTo tile = some i →
      Runs (.tileDrainStart tile) s
        ((s.mapTile tile (fun r => { r with nextImage := some i, drainAt := s.dtime, drainFor := .image })).setTileState tile
          tsDRAINING))
  ∧ (∀ (tile : Fin 96) (s : State), s.safe = false → s.tileState tile = tsDRAINING → (s.tile tile).items = [] →
      Runs (.tileDrainComplete tile) s (s.endDrain tile))
  ∧ (∀ (tile : Fin 96) (s : State), s.safe = false → s.tileState tile = tsDRAINING →
      (s.tile tile).drainAt + 1000000 ≤ s.dtime → Runs (.tileDrainTimeout tile) s (s.endDrain tile))
  ∧ (∀ (tile : Fin 96) (s u : State), s.safe = false → s.tileState tile = tsSCRUB → (s.tile tile).drainFor = .reset →
      u = (s.setTile tile { TileRec.off with duty := (s.tile tile).duty }).unflag (fTILE_STATE_IMAGE tile) →
      Runs (.tileScrubComplete tile) s (u.setTileState tile tsSEATED))
  ∧ (∀ (tile : Fin 96) (s u : State), s.safe = false → s.tileState tile = tsSCRUB → (s.tile tile).drainFor ≠ .reset →
      u = (s.setTile tile { TileRec.off with duty := (s.tile tile).duty }).unflag (fTILE_STATE_IMAGE tile) →
      Runs (.tileScrubComplete tile) s
        (((u.setTileState tile tsUNSEATED).unflag (fTILE_STATE_SEATED tile)).setFld (fTILE_STATE_CONTEXT tile) 0))
  ∧ (∀ (tile : Fin 96) (unit : Fin 256) (s : State), s.safe = false → s.tilePresent tile →
      Runs (.tileUncorrectedError tile unit) s
        (((s.tileFault tile stTILE_UNCORRECTED).flag (fTILE_FAULT_UNCORRECTED tile)).fenceTile tile stTILE_UNCORRECTED unit))
  ∧ (∀ (tile : Fin 96) (s : State), s.safe = false → s.reaches 0 → s.mod.recovery = false → s.tilePresent tile →
      s.fld (fTILE_CTRL_FENCE_REQ tile) ≠ 1 →
      Runs (.tileFenceReq 0 tile) s
        (((s.flag (fTILE_CTRL_FENCE_REQ tile)).tileFault tile stTILE_FENCE_REQUESTED).fenceTile tile stTILE_FENCE_REQUESTED
          0xFF))
  ∧ (∀ (slot : Fin 8) (bank : Fin 2) (hbm : Fin 8) (channel : Fin 65536) (s : State), s.safe = false →
      s.fld (fBankState slot bank) = vbREADY →
      Runs (.vocabBankHbmError slot bank hbm channel) s (s.loseBank slot bank hbm channel))
  ∧ (∀ (unit : Fin 4) (j : DiceJob) (y : Nat) (s : State), s.safe = false → s.diceFenced unit = false →
      s.dice.find? (fun j => j.unit == unit.val) = some j → s.diceResult j = some y → j.count ≤ y →
      ∃ t, exec (.diceEvaluation unit false) s = .next t ∧ t.dice = s.dice.erase j ++ [{ j with x := y }] ∧ t.regs = s.regs)
  ∧ (∀ (unit : Fin 4) (j : DiceJob) (y : Nat) (s : State), s.safe = false → s.diceFenced unit = false →
      s.dice.find? (fun j => j.unit == unit.val) = some j → s.diceResult j = some y → y < j.count →
      Runs (.diceEvaluation unit false) s
        (State.indexKnown { s with dice := s.dice.erase j } j.ctx j.step j.place y))
  ∧ (∀ (mask : Fin 16) (s : State), s.safe = false → s.reaches 0 → s.mod.recovery = false →
      Runs (.diceFenceReq 0 mask) s (s.setFld fDICE_CTRL_FENCE_REQ (s.fld fDICE_CTRL_FENCE_REQ ||| mask.val)))
  ∧ (∀ (unit : Fin 4) (s : State), s.safe = false → bitOf (s.fld fDICE_CTRL_FENCE_REQ) unit →
      s.dice.any (fun j => j.unit == unit.val) = false → Runs (.diceFenceComplete unit) s (s.fenceDice unit))
  ∧ (∀ (ctx : Fin 64) (step place : Nat) (r : RunRec) (m : ManifestRec) (f : Fetch) (ds : DatasetEnt) (d1 d2 : Bytes)
      (h : Nat) (x : Bytes) (w : WorkItem) (s u : State), s.safe = false → s.runOf ctx = some r →
      (s.ctxData ctx).manifestAt step = some m → r.fetches.find? (fun f => f.step == step && f.place == place) = some f →
      s.mediaServes → m.datasetOf f.index = some ds → s.fetchSample ctx ds f.index d1 d2 none = .clean x →
      s.allocBytes ctx (x.drop 32).length agFETCH = .ok (h, u) →
      u.itemFor ctx step place f.index h (x.take 32) false (u.ownerSite ctx step) = some w →
      Runs (.sampleFetchComplete ctx step place d1 d2 none) s
        ((State.mapRun ((u.writeHandle h 0 (x.drop 32)).giveTo h agDISPATCH) ctx (fun r => { r with
          fetches := r.fetches.filter (fun y => y != f) })).queueItem w))

/-- Gates (R228 to R235), frames, links and packets (R244 to R261). -/
def Obligations.NetworkCompletes : Prop :=
  (∀ (port : Fin 32) (sub : Fin 4) (offset : Int) (interval : Nat) (f : RxFrame) (s u : State), s.safe = false →
    s.groupSwitches port = false → s.takeRx port sub (· == .ptp) = some (f, u) →
    Runs (.ptpMessage port sub (some (offset, interval))) s (u.servo offset interval))
  ∧ (∀ s : State, s.safe = false → s.clk.uncertainAt + 1000 ≤ s.dtime → Runs .uncertaintyTick s s.recomputeUncert)
  ∧ (∀ (port : Fin 32) (sub : Fin 4) (entry : Fin 32) (e : GateEntry) (x o c eo ec k : Nat) (s : State), s.safe = false →
      s.gatesRun → s.subPresent port sub → k = subKey port sub → s.gateEntry entry = some e → s.gateStep = some x →
      s.nominalGate e x = some (o, c) → s.effectiveGate e x = some (eo, ec) → bitOf e.ports port → o ≤ s.dtime →
      s.dtime < c → s.net.skipped.contains (k, entry.val, x) = false → Map.has s.net.gates k = false →
      2 * s.guard port ≤ ec - eo → eo ≤ s.dtime → s.dtime < ec → s.fld fSTEP_STATUS_TIME ≠ 2 →
      Runs (.gateOpen port sub entry) s
        ((s.setGates (Map.put s.net.gates k
          { entry := entry, cls := e.cls, step := x, close := ec, lastStart := ec - s.guard port })).zeroShapers port sub e.cls))
  ∧ (∀ (port : Fin 32) (sub : Fin 4) (g : OpenGate) (s : State), s.safe = false →
      Map.find s.net.gates (subKey port sub) = some g → g.close ≤ s.dtime →
      Runs (.gateClose port sub) s ((s.setGates (Map.del s.net.gates (subKey port sub))).zeroShapers port sub g.cls))
  ∧ (∀ (port : Fin 32) (sub : Fin 4) (f : EgFrame) (s : State), s.safe = false → s.subPresent port sub → s.linkUp port sub →
      Map.getD s.net.busyUntil (subKey port sub) 0 ≤ s.dtime → s.nextFrame port sub = some f →
      Runs (.frameStart port sub) s (s.startFrame port sub f))
  ∧ (∀ (port : Fin 32) (s : State), s.safe = false → s.portPresent port →
      Map.getD s.net.sampledAt port 0 + s.sampleNs ≤ s.dtime → Runs (.queueSample port) s (s.samplePort port))
  ∧ (∀ (port : Fin 32) (t : Nat) (s : State), s.safe = false → s.startOf (s.fld fSTEP_LAST_STEP + 1) = some t →
      t ≤ s.dtime → Map.find s.net.summarised port ≠ some (s.fld fSTEP_LAST_STEP) →
      Runs (.queueSummary port) s (s.summarise port (s.fld fSTEP_LAST_STEP)))
  ∧ (∀ (port : Fin 32) (sub : Fin 4) (tag : Option (Nat × Bool)) (body : RxBody) (s : State), s.safe = false →
      s.subPresent port sub → s.linkUp port sub →
      Runs (.frameReceive port sub .valid tag body) s (s.classify port sub tag body)
        ∧ (s.macsec port sub ≠ 2 → Runs (.frameReceive port sub .plain tag body) s (s.classify port sub tag body))
        ∧ Runs (.frameReceive port sub .invalid tag body) s (s.macsecDrop port sub))
  ∧ (∀ (port : Fin 32) (sub : Fin 4) (pcp : Fin 8) (pause : Nat) (f : RxFrame) (s u : State),
      s.safe = false → s.takeRx port sub RxBody.isPfc = some (f, u) →
      f.body = .pfc pcp pause → u.fld (fNET_PORT_CFG_PFC_EN port) = 1 → pcp.val = u.pcp0 →
      Runs (.pfcFrame port sub) s
        (u.setSub port sub { u.subState port sub with pausedUntil := if pause = 0 then none else some (u.dtime + pause) }))
  ∧ (∀ (port : Fin 32) (sub : Fin 4) (t : Nat) (s : State), s.safe = false →
      (s.subState port sub).pausedUntil = some t → t ≤ s.dtime →
      Runs (.pfcPauseExpiry port sub) s (s.setSub port sub { s.subState port sub with pausedUntil := none }))
  ∧ (∀ (port : Fin 32) (sub : Fin 4) (outcome : MkaEnd) (f : RxFrame) (s u : State), s.safe = false →
      s.groupSwitches port = false →
      s.takeRx port sub RxBody.isMka = some (f, u) →
      u.fld (fNET_PORT_CFG_MACSEC_EN port) ≠ 0 → u.fld fSEC_STATUS_LINK_KEY ≠ 0 →
      Runs (.mkaFrame port sub outcome) s
        (u.setMacsec port sub (match outcome with | .pending => 1 | .secured => 2 | .failed => 3)))
  ∧ (∀ (port : Fin 32) (sub : Fin 4) (s : State), s.safe = false → s.subPresent port sub → s.linkUp port sub →
      Runs (.linkDown port sub) s
        (((s.unflag ((fNET_PORT_STATUS_LINK port).bit sub)).flag (fNET_PORT_ERR_LINK_DOWN port)).raise (srcPORT port)
          stNET_LINK_DOWN sub noCtx .f0))
  ∧ (∀ (port : Fin 32) (sub : Fin 4) (s u : State), s.safe = false → s.subPresent port sub → s.linkUp port sub = false →
      4 ≤ s.mod.booted → s.groupSwitches port = false →
      u = (s.flag ((fNET_PORT_STATUS_LINK port).bit sub)).setFld (fNET_PORT_STATUS_MODE_ACTIVE port)
        (s.fld (fNET_PORT_CFG_MODE port)) →
      Runs (.linkUp port sub) s (u.setMacsec port sub
        (if u.fld (fNET_PORT_CFG_MACSEC_EN port) = 1 ∧ u.fld fSEC_STATUS_LINK_KEY = 1 then 1 else 0)))
  ∧ (∀ (port : Fin 32) (sub : Fin 4) (qpn psn addr key len i : Nat) (last ar : Bool) (imm : Option Nat) (d : Bytes) (q : Qp)
      (w : Window) (s u v : State),
      Arrived s port sub Pkt.isWrite
        (.write qpn psn last ar (some (addr, key, len)) imm d) i q u →
      psnOrder q.ePsn psn = .inOrder → d.length ≤ len → u.accessOk q key addr d.length false = some w →
      (∀ n, imm = some n → u.immOk q n) → u.place w addr d = some v →
      Runs (.rdmaWriteReceive port sub) s (u.writeInOrder i q psn last ar (some (addr, key, len)) imm d))
  ∧ (∀ (port : Fin 32) (sub : Fin 4) (qpn psn addr key len i h : Nat) (q q' : Qp) (w : Window) (s u : State),
      Arrived s port sub Pkt.isReadReq (.readReq qpn psn addr key len) i q u →
      psnOrder q.ePsn psn = .inOrder → u.heldReads i < q.respDepth → u.accessOk q key addr len true = some w →
      w.kind = .handle h → q' = { q with ePsn := psnAdd psn (max 1 (ceilDiv len q.pmtu)), gapNak := false } →
      Runs (.rdmaReadRequestReceive port sub) s
        ((u.setQp i q').enqueue (readFrames q' i u.dtime psn (u.readHandle h addr len))))
  ∧ (∀ (port : Fin 32) (sub : Fin 4) (qpn psn i k : Nat) (last : Bool) (d : Bytes) (q : Qp) (s u : State),
      Arrived s port sub Pkt.isReadResp (.readResp qpn psn last d) i q u →
      q.sends.findIdx? (fun r => r.awaits psn q.pmtu) = some k →
      Runs (.rdmaReadResponseReceive port sub) s
        ((u.setQp i { q with sends := q.sends.modify k (fun r => { r with got := r.got ++ d }) }).ackUpTo i psn))
  ∧ (∀ (port : Fin 32) (sub : Fin 4) (qpn psn i : Nat) (q : Qp) (s u : State),
      Arrived s port sub Pkt.isAck (.ack qpn psn .ack) i q u →
      Runs (.ackReceive port sub) s (u.ackUpTo i psn))
  ∧ (∀ (qp : Fin 16384) (q : Qp) (since : Nat) (s : State), s.safe = false → s.qp qp = some q → q.coalesce = some since →
      q.state ≠ .err → Runs (.ackCoalesceTimer qp) s (s.ackPlaced qp (psnAdd q.ePsn (2 ^ 24 - 1)) true))
  ∧ (∀ (qp : Fin 16384) (q q' : Qp) (since : Nat) (s : State), s.safe = false → s.qp qp = some q → q.timer = some since →
      since + q.timeoutNs ≤ s.dtime → q.retries < q.retryCnt → q' = { q with retries := q.retries + 1 } →
      Runs (.ackTimerExpiry qp) s
        ((s.setQp qp (if q'.paced then q'.onExpiry s.dtime (s.fld fNET_RC_CFG1_MIN_MBPS) else q')).goBack qp))
  ∧ (∀ (qp : Fin 16384) (q : Qp) (s u : State), s.safe = false → s.qp qp = some q → q.state = .err → q.flushed = false →
      u = State.setQp { s with net := { s.net with egress := s.net.egress.filter (fun f => f.qp != some qp.val) } } qp
        { q with flushed := true } →
      Runs (.qpFlushComplete qp) s (if q.kind = .client then u else u.destroyQp qp))

/-- Step time (R218, R221, R230, R238), the packer and the delivery of rows (R200 to R216), the set of a step in the Logbook (R341). -/
def Obligations.StepsAndDeliveryComplete : Prop :=
  (∀ (m : RxDone) (b : Bytes) (s u : State), s.safe = false → s.takeMessage 0 none = some (m, u) →
    b = u.winBytes 0 0 (m.addr / 64 * 64) 64 → u.beaconFormatOk b (m.addr / 512) →
    Runs .beaconExamine s (u.onBeacon (readBeacon b)))
  ∧ (∀ (last t : Nat) (n : Nat × Nat) (s : State), s.safe = false → last = s.fld fSTEP_LAST_STEP →
      s.timeline = tlLOCKED ∨ s.timeline = tlEXTRAPOLATING → s.startOf (last + 1) = some t → s.newest = some n →
      t + s.grace ≤ s.dtime →
      Runs .stepExtrapolate s (if last - n.1 < s.fld fSTEP_CFG_EXTRAP_MAX then
        (s.extrapolated (last - n.1 + 1)).changeover (last + 1) else s.holdTime))
  ∧ (∀ (ctx : Fin 64) (r : RunRec) (s : State), s.safe = false → s.runOf ctx = some r →
      s.setComplete (s.ctxData ctx) r r.nextSet → Runs (.logbookSetWrite ctx) s ((s.writeSet ctx).planReady ctx 16))
  ∧ (∀ (ctx : Fin 64) (step : Nat) (r : RunRec) (s : State), s.safe = false → s.runOf ctx = some r →
      s.timeline ≠ tlPAUSED → r.exempt < step → r.unstamped step → s.passed step → s.fld fSTEP_CFG_LATE_LIMIT ≠ 0 →
      r.late.contains step = false → s.passed (step + s.fld fSTEP_CFG_LATE_LIMIT) = false →
      Runs (.stepDeadlineCheck ctx step) s
        ((s.mapRun ctx (fun r => { r with late := r.late ++ [step] })).raise srcGATE stSTEP_LATE 0 ctx .f0))
  ∧ (∀ s : State, s.safe = false → s.timeline = tlPAUSED → s.ungated → Runs .pausedStepEnd s s.enterUngated)
  ∧ (∀ (ctx : Fin 64) (step consumer grp n : Nat) (r : RunRec) (g : GroupRec) (checks : List PosCheck)
      (ds : List Prepared) (hs : List Nat) (s u : State), s.safe = false → u = s.queueArrived ctx → u.runOf ctx = some r →
      r.groups.find? (fun g => g.step == step && g.consumer == consumer && g.grp == grp) = some g → g.failed = false →
      g.packed = false → n = r.cfg.pack.group * r.cfg.pack.q →
      ((u.peg ctx (r.cfg.groupPeg (step - r.cfg.firstStep) g.ordinal)).map (·.value)).getD 0 = n →
      checks = (List.range n).map (u.checkPos ctx r g) → (∀ e ∈ checks, ∃ d h, e = .ready d h) →
      ds = checks.map PosCheck.row → hs = (checks.map PosCheck.handles).flatten →
      Runs (.packerStart ctx step consumer grp .agrees) s (u.packRows ctx r g ds hs))
  ∧ (∀ (what : ExchWhat) (ctx : Fin 64) (id : Nat) (d : DoneItem) (r : RunRec) (s : State), s.safe = false →
      what = .item ctx id → s.runOf ctx = some r →
      s.work.returned.find? (fun d => d.item.ctx == ctx.val && d.item.id == id && !d.item.ownerSite) = some d →
      Runs (.exchangeSend what) s (s.sendExchange r d))
  ∧ (∀ (tile : Fin 96) (handle num : Nat) (ch : Chain) (c : Call) (s : State), Called s tile 0x13 1 c →
      s.findChain (s.tileCtx tile) handle (some (agTILE, tile.val)) = .ok (num, ch) →
      Runs (.exchangeSend (.call tile handle)) s ((s.giveTo handle agEXCHANGE).completeCall tile c 0 stOK))
  ∧ (∀ (ctx : Fin 64) (consumer : Nat) (r : RunRec) (s : State), s.safe = false → s.runOf ctx = some r →
      (r.credit consumer).reading = false →
      (r.blocked consumer).any (fun w => (r.credit consumer).asked ≤ w.seq) →
      Runs (.creditRead ctx consumer) s (s.readCredit ctx r consumer))
  ∧ (∀ (ctx : Fin 64) (consumer : Nat) (r : RunRec) (s : State), s.safe = false → s.runOf ctx = some r →
      (r.credit consumer).reading = false → r.blocked consumer ≠ [] → 0 < (r.credit consumer).asked →
      (r.credit consumer).readAt + r.cfg.pack.creditPoll ≤ s.dtime →
      Runs (.creditPollTimer ctx consumer) s (s.readCredit ctx r consumer))
  ∧ (∀ (ctx : Fin 64) (step consumer row : Nat) (r : RunRec) (w : RowRec) (s : State), s.safe = false →
      s.runOf ctx = some r → r.rows.find? (fun w => w.step == step && w.consumer == consumer && w.row == row) = some w →
      (w.phase = .packed → r.creditOk w →
        Runs (.rowPayloadWrite ctx step consumer row) s
          (s.writeRow ctx r w .payload 0 ((List.range (max 1 (ceilDiv w.payload.length partSize))).map (fun i =>
            (64 + i * partSize, (w.payload.drop (i * partSize)).take partSize)))))
      ∧ (w.phase = .payload → w.pend = 0 →
          Runs (.rowHeaderWrite ctx step consumer row) s (s.writeRow ctx r w .header 1 [(0, w.header)]))
      ∧ (w.phase = .header → w.pend = 0 →
          Runs (.rowStampWrite ctx step consumer row) s (s.writeRow ctx r w .stamp 2 [(56, toLE 8 (w.seq + 1))])))
  ∧ (∀ (ctx : Fin 64) (step : Nat) (r : RunRec) (s : State), s.safe = false → s.runOf ctx = some r → r.aborted = none →
      r.nextCommit ≤ step → step < r.nextPlan → r.reported.contains step = false → r.unstamped step = false →
      Runs (.stepStampedReport ctx step) s ((s.stepDone ctx r step).toKeeper lkSTEP_REPORT ctx r.cfg.runId step 0))

/-- Ledger commands and queues (R266 to R278, R302). -/
def Obligations.LedgerCommandsComplete : Prop :=
  (∀ (ctx : Fin 64) (m : RxDone) (slot n : Nat) (q : LedgerQueue) (s u : State), s.safe = false → s.media.flushing = none →
    s.takeMessage 2 (some ctx) = some (m, u) → slot = u.slotBase ctx + m.addr / 128 →
    u.ledger.find? (fun e => e.2.ctx == ctx.val && e.2.base ≤ slot && slot < e.2.base + e.2.count) = some (n, q) →
    q.reset = none → q.cmdAt (slot - q.base) = none →
    Runs (.ledgerRecordExamine ctx) s (u.examineTask n q (slot - q.base) (u.winBytes 2 ctx (m.addr / 128 * 128) 128)))
  ∧ (∀ (queue slot : Fin 1024) (q : LedgerQueue) (c : LedgerCmd) (s : State), s.safe = false → s.queue queue = some q →
      q.cmdAt slot = some c → q.mayStart c → s.mediaReady →
      Runs (.ledgerCommandStart queue slot) s (s.startCmd queue q c).touchMedia)
  ∧ (∀ (queue slot : Fin 1024) (q : LedgerQueue) (c : LedgerCmd) (m : ManifestRec) (e : DatasetEnt) (loc : Nat) (b : Bytes)
      (s : State), Commanded s queue slot ldSAMPLE_READ q c → s.mediaReady → c.verdict = none →
      (s.ctxData q.ctx).manifestAt s.lastStep = some m →
      m.datasets.find? (fun e => e.id == bitsOf c.task.object 48 8) = some e → loc = c.task.object % 2 ^ 48 →
      loc < e.count → (s.ctxData q.ctx).run = none → m.sampleHolder (e.base + loc) = s.self → s.hw.variant.hasMedia →
      s.fetchSample q.ctx e (e.base + loc) [] [] none = .clean b → fieldAt b 8 4 ≤ c.task.length →
      Runs (.sampleRead queue slot [] [] none) s (s.postWrites queue q c (slice b 32 (fieldAt b 8 4))))
  ∧ (∀ (queue slot : Fin 1024) (q : LedgerQueue) (c : LedgerCmd) (o : Obj) (s : State),
      Commanded s queue slot ldOBJECT_READ q c → s.mediaReady → c.verdict = none →
      s.media.objects.find? (fun o => o.ctx == q.ctx && o.id == c.task.object) = some o → o.damaged = false →
      c.task.offset + c.task.length ≤ o.data.length →
      Runs (.objectRead queue slot) s
        (s.used.postWrites queue q c ((o.data.drop c.task.offset).take c.task.length)))
  ∧ (∀ (queue slot : Fin 1024) (q q' : LedgerQueue) (c c' : LedgerCmd) (s u : State),
      Commanded s queue slot ldOBJECT_WRITE q c → c.inBuffer = false → Moved s queue q c q' c' u →
      u.mediaFits q'.ctx c'.task.length → u.writeThrough = false →
      Runs (.objectWrite queue slot) s
        (((u.dropStreams (· == .obj q'.ctx c'.task.object)).commitObject queue q' c').pushWb {
          stream := .obj q'.ctx c'.task.object, bytes := c'.task.length, queue := some queue.val, tag := c'.task.tag,
          cmd := none }))
  ∧ (∀ (queue slot : Fin 1024) (q : LedgerQueue) (c c' d : LedgerCmd) (s u : State),
      Commanded s queue slot ldCKPT_ABSORB q c → s.collect queue c = (c', u) → u.mediaFits q.ctx c'.arrivedLen →
      u.writeThrough = false → c'.failed = none → (c'.kept ++ c'.arrived).length = c'.parts →
      d = { c' with taken := c'.taken ++ c'.arrived, kept := c'.kept ++ c'.arrived } →
      Runs (.ckptAbsorb queue slot) s
        ((c'.arrived.foldl (fun s i => s.takeChunk queue q c' i) u).finishCmd queue q d stOK d.task.length))
  ∧ (∀ (queue slot : Fin 1024) (q : LedgerQueue) (c : LedgerCmd) (g : Gen) (first count : Nat) (b : Bytes) (s : State),
      Commanded s queue slot ldCKPT_RESTORE q c → s.mediaReady → c.verdict = none →
      s.findGen q.ctx c.task.gen = some g → g.isSealed → first = c.task.offset / 2 ^ 20 →
      count = (c.task.offset + c.task.length - 1) / 2 ^ 20 + 1 - first → (∀ k ∈ g.chunks, k.damaged = false) →
      g.bytes c.task.object count first = some b → c.task.offset % 2 ^ 20 + c.task.length ≤ b.length →
      Runs (.ckptRestore queue slot true) s
        (s.postWrites queue q c ((b.drop (c.task.offset % 2 ^ 20)).take c.task.length)))
  ∧ (∀ (queue slot : Fin 1024) (q : LedgerQueue) (c : LedgerCmd) (s : State), Commanded s queue slot ldFLUSH q c →
      s.buffered queue = false → c.sealWait = false → c.task.seals = false →
      Runs (.flush queue slot) s (s.endLedgerFlush queue q c 0))
  ∧ (∀ (queue slot : Fin 1024) (q : LedgerQueue) (c : LedgerCmd) (g : Gen) (s : State), Commanded s queue slot ldFLUSH q c →
      s.buffered queue = false → c.sealWait = false → c.task.seals → s.findGen q.ctx c.task.gen = some g →
      g.damaged = false → q.mode = 0 →
      Runs (.flush queue slot) s ((s.sealGen q.ctx c.task.gen).endLedgerFlush queue q c 1))
  ∧ (∀ (queue slot : Fin 1024) (q : LedgerQueue) (c : LedgerCmd) (g : Gen) (s : State), Commanded s queue slot ldTRIM q c →
      s.mediaReady → c.task.seals → s.findGen q.ctx c.task.gen = some g →
      Runs (.trim queue slot) s ((s.dropGen q.ctx c.task.gen).finishCmd queue q c stOK 0))
  ∧ (∀ (queue slot : Fin 1024) (q : LedgerQueue) (c : LedgerCmd) (s : State), Commanded s queue slot ldTRIM q c →
      s.mediaReady → c.task.seals = false →
      s.media.objects.any (fun o => o.ctx == q.ctx && o.id == c.task.object) →
      Runs (.trim queue slot) s
        (((s.setMedia { s.media with
          objects := s.media.objects.filter (fun o => !(o.ctx == q.ctx && o.id == c.task.object)) }).dropStreams
            (· == .obj q.ctx c.task.object)).finishCmd queue q c stOK 0))
  ∧ (∀ (queue slot : Fin 1024) (q : LedgerQueue) (c : LedgerCmd) (f : Frag) (off : Nat) (s : State),
      Commanded s queue slot ldFRAGMENT_READ q c → s.mediaReady → c.verdict = none → off = c.task.offset % 2 ^ 32 →
      s.media.frags.find? (fun f => f.tag == c.task.object && f.stripe == c.task.offset / 2 ^ 32 && f.num == c.task.elem) =
        some f → off + c.task.length ≤ f.data.length → f.lost = [] →
      Runs (.fragmentRead queue slot) s (s.postWrites queue q c ((f.data.drop off).take c.task.length)))
  ∧ (∀ (queue : Fin 1024) (q : LedgerQueue) (tag : Nat) (s : State), s.safe = false → s.queue queue = some q →
      q.reset = some tag →
      Runs (.queueReset queue) s
        (if q.mode = 2 then s.setQueue queue { q with reset := none, cpls := q.cpls ++ [{
            tag := tag, status := stLDG_RESET_DENIED, slot := 0, seq := 2 ^ 64 - 1, result := 0 }] }
         else (s.setQueue queue { q.abortAll with cpls := q.abortAll.cpls ++ [{
            tag := tag, status := stOK, slot := 0, seq := 2 ^ 64 - 1, result := 0 }] }).dropUncommitted queue))
  ∧ (∀ (queue slot : Fin 1024) (q : LedgerQueue) (c : LedgerCmd) (s : State), s.safe = false → s.queue queue = some q →
      q.cmdAt slot = some c → c.task.timeout ≠ 0 → c.at_ + c.task.timeout * 1000 ≤ s.dtime →
      Runs (.ledgerTimeout queue slot) s
        ((s.setMedia { s.media with
          wb := s.media.wb.filter (fun w => w.cmd != some (queue.val, c.order)) }).refreshWb.finishCmd queue q c stLDG_TIMEOUT
            0))
  ∧ (∀ (queue : Fin 1024) (q : LedgerQueue) (c : LedgerCpl) (rest : List LedgerCpl) (d : Option (Nat × Status)) (s : State),
      s.safe = false → s.queue queue = some q → q.cpls = c :: rest →
      (rest.any (fun x => x.seq == 2 ^ 64 - 1) || c.seq == 2 ^ 64 - 1) = false → d = q.deferred.head? →
      Runs (.ledgerCompletionWrite queue) s
        ((s.setQueue queue (q.wrote rest d.isSome)).post q.qp
          (.write (q.cplAddr + q.written % q.cplEntries * 32) q.cplKey none
            (cplBytes c d (q.written / q.cplEntries % 2 == 0))) .plain))

/-- The media controller: power states, blocks, scans, rebuilds, recovery (R279, R287 to R309). -/
def Obligations.MediaCompletes : Prop :=
  (∀ (t1 t2 : Nat) (s : State), s.safe = false → t1 = s.fld fLDG_PS_CFG_IDLE1_US * 1000 →
    t2 = s.fld fLDG_PS_CFG_IDLE2_MS * 1000000 → s.hw.variant.hasMedia → s.mediaServes → s.mediaIdle → t1 ≠ 0 →
    (s.mps = 0 → s.media.lastOp + t1 ≤ s.dtime → Runs .mediaIdleTimer s (s.setFld fLDG_STATUS_MPS 1))
    ∧ (s.mps = 1 → t2 ≠ 0 → s.media.lastOp + t1 + t2 ≤ s.dtime → s.runHolds = false →
        Runs .mediaIdleTimer s (s.setFld fLDG_STATUS_MPS 2)))
  ∧ (∀ s : State, s.safe = false → Runs .mediaWake s (s.setFld fLDG_STATUS_MPS 0).touchMedia)
  ∧ (∀ (readBack : Bool) (st : Nat) (s : State), s.safe = false → s.media.resumeDue = some st →
      Runs (.resumeRecordWrite readBack) s
        (s.setMedia { s.media.writeResume (s.media.nextResume st) (!readBack) with resumeDue := none }))
  ∧ (∀ (block : Nat) (result : PageRead) (b : Superblock) (s : State), s.safe = false → s.mediaRuns →
      s.media.blocks.find? (fun b => b.num == block) = some b →
      Runs (.mediaPageRead block result) s (s.pageRead b result).touchMedia)
  ∧ (∀ (block : Nat) (weak : Bool) (b : Superblock) (s u : State), s.safe = false → s.mediaRuns →
      s.media.blocks.find? (fun b => b.num == block) = some b →
      u = s.setMedia { s.media with blocks := s.media.blocks.map (fun x =>
        if x.num = block then { x with scanned := s.dtime } else x) } →
      Runs (.retentionScan block weak) s (if weak then u.relocate b else u).touchMedia)
  ∧ (∀ (full : Bool) (s : State), s.safe = false → s.mediaRuns →
      full = true ∨ s.media.checkpointAt + 60 * 10 ^ 9 ≤ s.dtime →
      Runs (.mapCheckpoint full) s s.checkpoint.touchMedia)
  ∧ (∀ (w : WbItem) (rest : List WbItem) (s : State), s.safe = false → s.mediaRuns → s.media.wb = w :: rest →
      w.cmd = none → Runs .writeBufferDrain s ((s.program w).commitDrained w).touchMedia)
  ∧ (∀ (b : Superblock) (s : State), s.safe = false → s.mediaRuns → s.media.blocks.find? (fun b => b.slc) = some b →
      Runs .fold s (s.foldBlock b).touchMedia)
  ∧ (∀ (b : Superblock) (rest : List Superblock) (s : State), s.safe = false → s.mediaRuns → s.media.stale = b :: rest →
      Runs .relocationErase s (s.setMedia { s.media with stale := rest }).touchMedia)
  ∧ (∀ (channel : Fin 96) (die : Fin 16) (s : State), s.safe = false → s.mediaServes → s.diePresent channel die →
      Runs (.dieLost channel die) s (s.retireDie channel die))
  ∧ (∀ (group : Fin 192) (r : Rebuild) (b : Superblock) (s : State), s.safe = false → s.mediaRuns →
      Map.find s.media.rebuilds group = some r → s.nextRebuild group = some b → r.double = false →
      Runs (.superblockRebuilt group false) s (s.relocate b).touchMedia)
  ∧ (∀ (group : Fin 192) (r : Rebuild) (s u : State), s.safe = false → s.mediaRuns →
      Map.find s.media.rebuilds group = some r → s.nextRebuild group = none →
      u = (s.setMedia { s.media with rebuilds := Map.del s.media.rebuilds group }).setFld fMED_STATUS_REBUILDS
        (s.fld fMED_STATUS_REBUILDS - 1) →
      Runs (.superblockRebuilt group false) s
        (if u.mediaSt = msDEGRADED ∧ (Map.del s.media.rebuilds group).isEmpty then u.setFld fMED_STATUS_STATE msREADY
         else u).touchMedia)
  ∧ (∀ (t p n off len : Nat) (rest : List (Nat × Nat × Nat × Nat × Nat)) (f : Frag) (u : State) (r : Recovery) (s v : State),
      s.safe = false → s.mediaRuns → s.media.lostQueue = (t, p, n, off, len) :: rest →
      u = s.setMedia { s.media with lostQueue := rest } → u.findFrag t p n = some f →
      (List.range 11).foldl (fun (x : Recovery × State) i => x.2.askFragment f x.1 i)
        ({ tag := t, stripe := p, num := n, off := off, len := len, asked := [] }, u) = (r, v) →
      Runs .podRecoveryStart s (v.setMedia { v.media with recoveries := v.media.recoveries ++ [r] }).touchMedia)
  ∧ (∀ (got : Fin 4096) (r : Recovery) (rest : List Recovery) (f : Frag) (b : Bytes) (s : State), s.safe = false →
      s.mediaRuns → s.media.recoveries = r :: rest → s.findFrag r.tag r.stripe r.num = some f →
      recoverFragment r.len r.num (s.recovered f r got) = some b →
      Runs (.podRecoveryComplete got) s
        (((((s.mendFragment f r b).endRecovery r).flag fMED_ERR_POD_RECOVERED).raise srcMEDIA stMED_POD_RECOVERED 0 noCtx
          .f1).touchMedia))
  ∧ (∀ (event : HealthEvent) (i : Nat) (s u : State), s.safe = false → s.mediaServes →
      s.measureHealth event = (i, true, u) → bitOf s.media.health i = false → s.fld (fMED_ERR_HEALTH_WEAR.bit i) = 0 →
      u.fld (fMED_ERR_HEALTH_WEAR.bit i) = 0 → bitOf u.media.health i = false →
      Runs (.mediaHealthEvent event) s
        (((u.setMedia { u.media with health := putBits u.media.health i 1 1 }).flag (fMED_ERR_HEALTH_WEAR.bit i)).raise srcMEDIA
          stMED_HEALTH 0 noCtx .f0))
  ∧ (∀ s : State, s.safe = false → s.mediaWrites → s.fld fMED_HEALTH_SPARE_PCT < 2 →
      Runs .mediaReadOnly s (s.setFld fMED_STATUS_STATE msREAD_ONLY))
  ∧ (∀ (readBack : Bool) (s : State), s.media.flushing.isSome → s.safe = false → s.mod.resetDue = false →
      Runs (.flushComplete readBack) s (s.endFlush (!readBack)))

/-- The Lantern: heartbeats, loss, views (R302, R402 to R407). -/
def Obligations.LanternViewsComplete : Prop :=
  (∀ (flags : Nat) (dests : List Nat) (s : State), s.safe = false → s.lan.joined → s.lan.beatAt + 250000 ≤ s.dtime →
    flags = (if s.lan.fwAlive then 1 else 0) + (if s.isKeeper then 2 else 0) + (if s.isCoord then 4 else 0) →
    dests = ((s.ownKeepers ++
      (if s.isKeeper then s.lan.view.members s.ownPod ++ s.otherKeepers else [])).eraseDups).filter (· != noKeeper) →
    ∃ u, u = s.sendAll dests lkHEARTBEAT 0xFF s.lastStep flags 0 []
      ∧ Runs .heartbeatSend s (u.setLan { u.lan with beatAt := u.dtime }))
  ∧ (∀ (m : LanMsg) (s : State), s.safe = false → s.lan.joined → m.kind = lkHEARTBEAT →
      Runs (.heartbeatReceive m) s
        (s.setPeer m.sender ((Map.getD s.lan.peers m.sender (PeerRec.fresh s.dtime)).beat s.dtime (bitOf m.arg1 0))))
  ∧ (∀ (pos : Nat) (s : State), s.safe = false → s.lan.joined → s.watched.contains pos → (s.peerRec pos).watchable →
      (s.peerRec pos).lastBeat + 2000000 ≤ s.dtime → Runs (.peerSilence pos) s (s.losePeer pos 0))
  ∧ (∀ (m : LanMsg) (s : State), s.safe = false → m.kind = lkDEVICE_LOST → s.lan.joined → s.watched.contains m.sender →
      (s.peerRec m.sender).watchable → Runs (.deviceLostReceive m) s (s.losePeer m.sender 3))
  ∧ (∀ (pos : Nat) (s : State), s.safe = false → s.isKeeper → s.watched.contains pos → (s.peerRec pos).state = .hung →
      (s.peerRec pos).since + s.fld fNET_LAN_CFG_HANG_MS * 1000000 ≤ s.dtime →
      Runs (.hangTimeout pos) s (s.losePeer pos 1))
  ∧ (∀ (m : LanMsg) (s : State), s.safe = false → m.kind = lkLOSS_REPORT → s.isCoord →
      s.lan.view.live.contains m.arg0 → s.lan.reports.any (fun e => e.1 == m.arg0) = false →
      ∃ t, exec (.lossReportReceive m) s = .next t ∧ t.lan.reports = s.lan.reports ++ [(m.arg0, m.arg1)]
        ∧ t.lan.gatherAt = some (s.lan.gatherAt.getD s.dtime) ∧ t.regs = s.regs)
  ∧ (∀ (since : Nat) (removed : List Nat) (v : View) (s u : State), s.safe = false → s.lan.gatherAt = some since →
      s.lan.proposal = none → s.isCoord → since + 100000 ≤ s.dtime →
      removed = (s.lan.reports.map (·.1)).filter (s.lan.view.live.contains ·) → v = s.lan.view.without removed →
      u = s.setLan { s.lan with gatherAt := none, proposal := some { view := v, removed := removed, acks := [s.ownPod] } } →
      Runs .viewPropose s (u.sendAll v.actives lkVIEW_PROPOSE 0xFF v.num 0 0 (viewBody removed v)).tryCommit)
  ∧ (∀ (m : LanMsg) (v : View) (gone : List Nat) (s : State), s.safe = false → m.kind = lkVIEW_PROPOSE → s.lan.joined →
      m.arg0 = s.lan.view.num + 1 → s.lan.view.apply m.arg0 m.body = (v, gone) → v.active s.ownPod = some s.self →
      Runs (.viewProposeReceive m) s (s.sendLan m.sender lkVIEW_ACK 0xFF m.arg0 0 0 []))
  ∧ (∀ (m : LanMsg) (p : Proposal) (s : State), s.safe = false → s.lan.proposal = some p → m.kind = lkVIEW_ACK →
      m.arg0 = p.view.num →
      Runs (.viewAckReceive m) s
        (s.setLan { s.lan with proposal := some { p with acks := (p.acks ++ [podOf m.sender]).eraseDups } }).tryCommit)
  ∧ (∀ (m : LanMsg) (v : View) (gone : List Nat) (s : State), s.safe = false → m.kind = lkVIEW_COMMIT → s.lan.joined →
      s.lan.view.num < m.arg0 → s.lan.view.apply m.arg0 m.body = (v, gone) →
      Runs (.viewCommitReceive m) s
        (State.takeView (if s.isKeeper || v.isKeeper s.self then s.relayView s.lan.view m.arg0 m.body else s) v gone))
  ∧ (∀ (since : Nat) (s u : State), s.safe = false → s.lan.waitCommit = some since → since + 6000000 ≤ s.dtime →
      u = (s.setLan { s.lan with waitCommit := none, noQuorum := true }).flag fNET_LAN_ERR_NO_QUORUM →
      Runs .quorumTimeout s (u.runCtxs.foldl (fun s c => s.raise srcROCE stLAN_NO_QUORUM 0 c .f2) u))
  ∧ (∀ (pos : Nat) (v : View) (media : List Nat) (s : State), s.safe = false → s.lan.joined = false →
      Runs (.podJoin (.own pos v media)) s (s.joinSelf pos v media))
  ∧ (∀ (pos : Nat) (hasMedia : Bool) (s : State), s.safe = false → s.lan.joined → pos ≠ s.self →
      Runs (.podJoin (.other pos hasMedia)) s (s.joinOther pos hasMedia))
  ∧ (∀ s : State, s.safe = false →
      ∃ t, exec .watchdogKick s = .next t ∧ t.lan = { s.lan with fwAlive := true, fwKicked := s.dtime } ∧ t.regs = s.regs)

/-- The Lantern: runs across devices, journals, mixes (R188, R400, R401, R410 to R418). -/
def Obligations.LanternRunsComplete : Prop :=
  (∀ (m : LanMsg) (r : RunRec) (s : State), s.safe = false → s.runWithId m.ctx m.arg0 = some r → m.kind = lkLEG_ABORT →
    r.aborted = none →
    Runs (.legAbortReceive m) s
      ((s.sendAll (s.ownKeepers.filter (· != noKeeper)) lkLEG_ABORT m.ctx m.arg0 m.arg1 m.arg2 []).doAbort m.ctx m.arg1))
  ∧ (∀ (m : LanMsg) (s : State), s.safe = false →
      (m.kind = lkABORT_DONE → Runs (.abortDoneReceive m) s (s.keeperOrCoord m))
      ∧ (m.kind = lkSTEP_REPORT → Runs (.stepReportReceive m) s (s.keeperOrCoord m))
      ∧ (m.kind = lkSEAL → Runs (.sealMessageReceive m) s (s.keeperOrCoord m)))
  ∧ (∀ (ctx : Fin 64) (pos : Nat) (r : RunRec) (e : JEntry) (s : State), s.safe = false → s.runOf ctx = some r →
      s.entry ctx = some e → s.isActive → r.aborted.isSome → r.abortAt + 20000000 ≤ s.dtime →
      (s.runMembers ctx s.ownPod).contains pos → pos ≠ s.self → bitOf e.abortMask (pos % 32) = false →
      s.isLost pos = false → Runs (.abortTimeout ctx pos) s (s.losePeer pos 2))
  ∧ (∀ (m : LanMsg) (s : State), s.safe = false → m.kind = lkSTEP_COMMIT →
      Runs (.stepCommitReceive m) s (if s.isActive then s.keeperTakes m else s.takeCommit m.ctx m.arg0 m.arg1))
  ∧ (∀ (ctx : Fin 64) (carriers : List (Nat × Nat)) (r : RunRec) (e : JEntry) (s : State), s.safe = false →
      s.runOf ctx = some r → s.entry ctx = some e → s.isCoord → r.aborted.isSome → s.abortComplete ctx →
      carriers.map (·.1) = s.lostRanks r → carriers.all (s.carrierOk r) →
      Runs (.restart ctx carriers) s
        ((s.tellRestart ctx r e carriers).doRestart ctx (e.committed + 1) (e.restarts + 1) carriers))
  ∧ (∀ (m : LanMsg) (remaps : List (Nat × Nat)) (r : RunRec) (s : State), s.safe = false →
      s.runWithId m.ctx m.arg0 = some r → m.kind = lkRESTART → r.aborted.isSome → m.arg2 = r.restarts + 1 →
      Runs (.restartReceive m remaps) s (s.doRestart m.ctx m.arg1 m.arg2 remaps))
  ∧ (∀ (m : LanMsg) (o : OutMsg) (s : State), s.safe = false → m.kind = lkACK →
      s.lan.outbox.find? (fun o => o.msg.seq == m.arg0 && o.msg.kind == m.arg1) = some o → o.msg.kind ≠ lkSEAL →
      o.msg.kind ≠ lkMIX_OUTCOME →
      ∃ t, exec (.controlAckReceive m) s = .next t
        ∧ t.lan.outbox = s.lan.outbox.filter (fun x => !(x.msg.seq == m.arg0 && x.msg.kind == m.arg1)) ∧ t.regs = s.regs)
  ∧ (∀ s : State, s.safe = false → Runs .controlResend s (s.resendOutbox (fun o => o.sentAt + 1000000 ≤ s.dtime)))
  ∧ (∀ (n p : Nat) (s u : State), s.safe = false → s.isActive → s.lan.copyAt + 250000 ≤ s.dtime →
      s.lan.dirty = true ∨ s.lan.held ≠ [] → n = s.lan.journalSeq + 1 →
      u = s.setLan { s.lan with
        journalSeq := n
        copyAt := s.dtime
        dirty := false
        held := s.lan.held.map (fun h => { h with image := some (h.image.getD n) }) } →
      u.lan.view.standby u.ownPod = some p → p ≠ noKeeper →
      Runs .journalCopy s
        ((u.sendTc0 16384 (.journal p (n % 2) (u.journalImage n))).sendLan p lkJOURNAL_COPY 0xFF n (n % 2) 0 []))
  ∧ (∀ (m : LanMsg) (image : Bytes) (s : State), s.safe = false → m.kind = lkJOURNAL_COPY → s.isStandby →
      journalOk image m.arg0 → (((s.lan.validSlot).bind (Map.find s.lan.slots)).map (fun b => fieldAt b 8 8)).getD 0 < m.arg0 →
      m.arg1 < 2 →
      Runs (.journalCopyReceive m image) s
        ((s.setLan { s.lan with slots := Map.put s.lan.slots m.arg1 image, validSlot := some m.arg1 }).sendLan m.sender
          lkJOURNAL_ACK 0xFF m.arg0 m.arg1 0 []))
  ∧ (∀ (m : LanMsg) (s : State), s.safe = false → m.kind = lkJOURNAL_ACK → s.isActive →
      Runs (.journalAckReceive m) s
        (s.actHeld (HeldMsg.copiedBy m.arg0)))
  ∧ (∀ (ctx : Fin 64) (m : RxDone) (r : RunRec) (b : Bytes) (slot : Nat) (s u : State), s.safe = false →
      s.takeMessage 1 (some ctx) = some (m, u) → s.runOf ctx = some r → slot = m.addr / 8192 * 8192 →
      b = u.winBytes 1 ctx slot (64 + 16 * min 256 (fieldAt (u.winBytes 1 ctx slot 64) 6 2)) → u.mixFormatOk ctx b →
      (∀ n, (u.ctxData ctx).lastMix = some n → n < fieldAt b 16 8) →
      u.beaconStep + r.cfg.pack.lead + 2 ≤ fieldAt b 8 8 → (u.ctxData ctx).logRoom (16 * fieldAt b 6 2) →
      Runs (.mixRecordExamine ctx) s
        ((u.setData ctx { u.ctxData ctx with mixing := (u.ctxData ctx).mixing ++ [{
          seq := fieldAt b 16 8, step := fieldAt b 8 8, total := 0, frags := [], record := some b, entry := true,
          source := u.self, qp := m.qp, acked := [], sentAt := u.dtime, decided := none }] }).sendFragments ctx r.cfg.runId b
            (fieldAt b 16 8) (r.devices.filter (· != u.self))))
  ∧ (∀ (m : LanMsg) (r : RunRec) (s : State), s.safe = false → s.runWithId m.ctx m.arg0 = some r → m.kind = lkMIX_DIST →
      m.arg2 / 256 % 256 < m.arg2 % 256 → 1 < m.arg2 % 256 →
      (s.ctxData m.ctx).mixing.find? (fun x => x.seq == m.arg1) = none →
      Runs (.mixDistReceive m) s
        (s.setData m.ctx { s.ctxData m.ctx with
          mixing := (s.ctxData m.ctx).mixing.filter (fun x => x.seq != m.arg1) ++ [{
            seq := m.arg1, step := 0, total := m.arg2 % 256, frags := [(m.arg2 / 256 % 256, m.body)], record := none,
            entry := false, source := m.sender, qp := 0, acked := [], sentAt := 0, decided := none }] }))
  ∧ (∀ (ctx : Fin 64) (p : MixPending) (r : RunRec) (s u : State), s.safe = false → s.runOf ctx = some r →
      (s.ctxData ctx).mixing.filter (fun p => p.entry && p.decided.isNone && p.sentAt + 1000000 ≤ s.dtime) = [p] →
      u = s.mapMix ctx p.seq (fun p => { p with sentAt := s.dtime }) →
      Runs (.mixDistResend ctx) s
        (u.sendFragments ctx r.cfg.runId (p.record.getD []) p.seq
          (r.devices.filter (fun k => k != u.self && !p.acked.contains k))))
  ∧ (∀ (m : LanMsg) (r : RunRec) (s : State), s.safe = false → m.kind = lkMIX_ACK → s.runWithId m.ctx m.arg0 = some r →
      Runs (.mixAckReceive m) s (s.mapMix m.ctx m.arg1 (fun p =>
        if p.entry then { p with acked := (p.acked ++ [m.sender]).eraseDups } else p)))
  ∧ (∀ (ctx : Fin 64) (p : MixPending) (r : RunRec) (s : State), s.safe = false → s.runOf ctx = some r →
      (s.ctxData ctx).mixing.find? (fun p => p.entry && p.decided.isNone) = some p →
      s.lastStep + r.cfg.pack.lead + 1 < p.step → r.devices.all (fun k => k == s.self || p.acked.contains k) →
      Runs (.mixDecide ctx) s
        ((s.mapMix ctx p.seq (fun p => { p with decided := some stOK })).toKeeper lkMIX_OUTCOME ctx r.cfg.runId p.seq
          stOK.toNat))
  ∧ (∀ (m : LanMsg) (s u : State), s.safe = false → m.kind = lkMIX_OUTCOME → bitOf m.arg2 16 → u = s.ackMsg m →
      Runs (.mixOutcomeReceive m) s
        ((if u.isActive then u.relayOutcome m.ctx m.arg0 m.arg1 m.arg2 else u).applyOutcome m.ctx m.arg1
          (BitVec.ofNat 16 m.arg2)))


/-! ## The queue of commands and the clock -/

/-- Tier 1. A step runs the command at the front of the queue, with the queue's rest. -/
def Obligations.StepRunsTheFrontCommand : Prop :=
  ∀ (c : Instr) (rest : List Instr) (s : State), step { s with pending := c :: rest } = exec c { s with pending := rest }

/-- Tier 1, the model's choice (log entry 2): on an empty queue a step is one nanosecond of device time, or of the SAFE_STOP
monitor's own time while P54V is absent, and changes nothing else. -/
def Obligations.IdleStepIsOneNanosecond : Prop :=
  ∀ s : State, s.pending = [] →
    ∃ t, step s = .next t ∧ t.dtime + t.flt.sinceStandby = s.dtime + s.flt.sinceStandby + 1
      ∧ (s.mod.p54v = true → t = { s with dtime := s.dtime + 1 })
      ∧ (s.mod.p54v = false → t.dtime = s.dtime ∧ t.regs = s.regs)

/-- Every command answers a next state, with the fuses and the queue of waiting commands as they were: no ordinary data
ends a run. -/
def Obligations.EveryCommandAnswers : Prop :=
  ∀ (c : Instr) (s : State), ∃ t, exec c s = .next t ∧ t.hw = s.hw ∧ t.pending = s.pending

/-- Tier 3: from any state, n steps over n or more waiting commands take exactly the first n off the queue, in order, and
no step stops. -/
def Obligations.CommandsRunFirstInFirstOut : Prop :=
  ∀ (n : Nat) (s : State), n ≤ s.pending.length →
    ∃ t, Host.Core.run core n s = .next t ∧ t.pending = s.pending.drop n ∧ t.hw = s.hw

/-! ## Reset -/

/-- Tier 1. After reset: no command waits, the part is not in the safe state, the registers stand in canonical form, and
named registers hold what their tables give (GLB_ID of the OF-HX1-A, FLT_SAFE_CFG 100 µs and 20 ms, FLT_SHADOW_CFG 2,000
µs; every F3 and F4 latch clear; FAULT_OUT_N low until the collector is in service). The variant is the model's
choice (log entry 1). -/
def Obligations.ResetHoldsTheTablesValues : Prop :=
  State.reset.pending = [] ∧ State.reset.safe = false ∧ State.reset.regsOk ∧ State.reset.dtime = 0
    ∧ State.reset.readReg aGLB_ID = 0x00B0000048014802
    ∧ State.reset.fld fFLT_SAFE_CFG_FILTER_US = 100 ∧ State.reset.fld fFLT_SAFE_CFG_DISCREPANCY_MS = 20
    ∧ State.reset.fld fFLT_SHADOW_CFG_SHADOW_US = 2000
    ∧ State.reset.fld fFLT_STATUS_F3_UNACK = 0 ∧ State.reset.fld fFLT_STATUS_F4_UNACK = 0
    ∧ State.reset.faultOut

/-! ## The safe state -/

/-- R397: in the safe state every command but those that act there leaves the state as it is: every write, submission,
reset pin, frame and lane instruction is ignored. -/
def Obligations.SafeStateIgnoresCommands : Prop :=
  ∀ (c : Instr) (s : State), s.safe = true → actsInSafe c = false → exec c s = .next s

/-- R397: in the safe state any command but the removal of power leaves tiles, contexts, network, Dice units, keys, runs
and views as they are, and the part stays in the safe state. -/
def Obligations.SafeStateKeepsTheMachine : Prop :=
  ∀ (c : Instr) (s : State), s.safe = true → removesPower c = false →
    ∃ t, exec c s = .next t ∧ t.safe = true ∧ t.tiles = s.tiles ∧ t.ctxs = s.ctxs ∧ t.net = s.net ∧ t.dice = s.dice
      ∧ t.sec = s.sec ∧ t.work = s.work ∧ t.lan = s.lan ∧ t.sync = s.sync ∧ t.ink = s.ink ∧ t.fw = s.fw

/-- Tier 3, R397: the safe state is final. Whatever waits, but a removal of power, every step from a quiet safe state ends
in a quiet safe state. -/
def Obligations.SafeStateIsFinal : Prop :=
  ∀ s t : State, s.final → step s = .next t → t.final

/-- R396: an F5 that is taken brings the quiet safe state: GRAVE set, no frame or gate left, no Dice job, no engine call,
no running lane, the flush of a device with media under way, and the event recorded and counted as F5. -/
def Obligations.GraveFaultEntersTheSafeState : Prop :=
  ∀ (e : ErrEvent) (es : List ErrEvent) (s : State), s.safe = false → s.flt.committed = e :: es → e.kind = .fault →
    e.cls = .f5 →
    ∃ t, exec .faultCommit s = .next t ∧ t.safe = true ∧ t.quiet = true ∧ (s.hw.variant.hasMedia → t.media.flushing.isSome)
      ∧ t.flt.committed = es ∧ t.flt.records.length = s.flt.records.length + 1
      ∧ t.fld fFLT_COUNT_F2345_F5 = min (s.fld fFLT_COUNT_F2345_F5 + 1) (2 ^ fFLT_COUNT_F2345_F5.width - 1)

/-! ## Registers -/

/-- R8, R10 (Table 0.3): what a write under a mask leaves in a field of a register, by the field's access type: RW takes the
written bits, W1C clears and W1S sets where 1 is written, every other field and every reserved bit stays. -/
def Obligations.FieldsFollowTheirAccessTypes : Prop :=
  ∀ (a old v mask : Nat) (r : RegDef) (f : FldDef), regAt a = some r → f ∈ r.fields →
    (∀ i, i < f.width → bitOf (writtenBy r.fields old v mask) (f.lo + i) = (match f.acc with
      | .rw => if bitOf mask (f.lo + i) then bitOf v (f.lo + i) else bitOf old (f.lo + i)
      | .w1c => bitOf old (f.lo + i) && !(bitOf v (f.lo + i) && bitOf mask (f.lo + i))
      | .w1s => bitOf old (f.lo + i) || (bitOf v (f.lo + i) && bitOf mask (f.lo + i))
      | _ => bitOf old (f.lo + i)))
    ∧ (∀ i, (∀ g ∈ r.fields, i < g.lo ∨ g.lo + g.width ≤ i) →
        bitOf (writtenBy r.fields old v mask) i = bitOf old i)

/-- R427: the half-read latch of a function. A lower-half read captures all 64 bits and clears the lower half of read-clear
fields; an upper-half read that matches returns the stored half, one that does not the live half, and either clears the live
upper half; every other access of the function empties the latch; a 64-bit read returns the register whole. -/
def Obligations.HalfReadsGoThroughTheLatch : Prop :=
  (∀ (fn : Fin 64) (bar : Bar) (off : Nat) (x : Access1) (s : State),
    x = { fn := fn, bar := bar, off := off / 8 * 8, size := 4 } → x.served s → s.safe = false → bar ≠ .bar2 →
    ∃ t, exec (.lowerHalfRead fn bar off) s = .next t
      ∧ t.out = s.out ++ [.readData fn (s.readReg x.addr % 2 ^ 32)]
      ∧ Map.find t.host.latches fn = some { addr := x.addr, upper := s.readReg x.addr / 2 ^ 32 }
      ∧ (∀ m, m ≠ fn.val → Map.find t.host.latches m = Map.find s.host.latches m)
      ∧ t.regs = (s.clearRead x.addr (2 ^ 32 - 1)).regs)
  ∧ (∀ (fn : Fin 64) (bar : Bar) (off : Nat) (x : Access1) (s : State),
    x = { fn := fn, bar := bar, off := off / 8 * 8 + 4, size := 4 } → x.served s → s.safe = false → bar ≠ .bar2 →
    ∃ t v, exec (.upperHalfRead fn bar off) s = .next t ∧ t.out = s.out ++ [.readData fn v]
      ∧ (∀ l, Map.find s.host.latches fn = some l → l.addr = x.addr → v = l.upper)
      ∧ ((∀ l, Map.find s.host.latches fn = some l → l.addr ≠ x.addr) → v = s.readReg x.addr / 2 ^ 32)
      ∧ Map.find t.host.latches fn = none
      ∧ (∀ m, m ≠ fn.val → Map.find t.host.latches m = Map.find s.host.latches m)
      ∧ t.regs = (s.clearRead x.addr ((2 ^ 32 - 1) * 2 ^ 32)).regs)
  ∧ (∀ (x : Access1) (s : State), x.served s → s.safe = false → x.goodForm → x.bar ≠ .bar2 → x.size = 8 →
      ∃ t, exec (.rcRegisterRead x) s = .next t ∧ t.out = s.out ++ [.readData x.fn (s.readReg x.addr)]
        ∧ Map.find t.host.latches x.fn = none ∧ (∀ m, m ≠ x.fn.val → Map.find t.host.latches m = Map.find s.host.latches m))
  ∧ (∀ (x : Access1) (s : State), x.served s → s.safe = false → x.bar = .bar2 →
      ∃ t, exec (.rcRegisterRead x) s = .next t ∧ Map.find t.host.latches x.fn = none)
  ∧ (∀ (x : Access1) (v : BitVec 64) (s : State), x.served s → s.safe = false → x.bar = .bar2 → x.goodForm = false →
      ∃ t, exec (.registerWrite x v) s = .next t ∧ Map.find t.host.latches x.fn = none)

/-- R424: accesses that a BAR does not accept read 0 or are ignored, and those of BAR0 and BAR4 set GLB_STATUS.BAD_ACCESS;
an offset without a register reads 0 and ignores writes; reads of BAR2 return 0. No access raises a fault. -/
def Obligations.BadAccessesReadZeroAndWriteNothing : Prop :=
  (∀ (x : Access1) (s : State), s.safe = false → x.served s → x.goodForm = false →
    ∃ t, exec (.rcRegisterRead x) s = .next t ∧ t.out = s.out ++ [.readData x.fn 0] ∧ t.flt = s.flt
      ∧ (x.bar ≠ .bar2 → t.fld fGLB_STATUS_BAD_ACCESS = 1) ∧ (∀ a, a ≠ aGLB_STATUS → t.reg a = s.reg a))
  ∧ (∀ (x : Access1) (v : BitVec 64) (s : State), s.safe = false → x.served s → x.goodForm = false →
      ∃ t, exec (.registerWrite x v) s = .next t ∧ t.out = s.out ∧ t.flt = s.flt
        ∧ (x.bar ≠ .bar2 → t.fld fGLB_STATUS_BAD_ACCESS = 1) ∧ (∀ a, a ≠ aGLB_STATUS → t.reg a = s.reg a))
  ∧ (∀ (x : Access1) (s : State), s.safe = false → x.served s → x.goodForm → x.bar = .bar2 ∨ regAt x.addr = none →
      (∀ l, Map.find s.host.latches x.fn = some l → l.addr ≠ x.addr) →
      ∃ t, exec (.rcRegisterRead x) s = .next t ∧ t.flt = s.flt ∧ t.regs = s.regs
        ∧ t.out = s.out ++ [.readData x.fn 0])
  ∧ (∀ (x : Access1) (v : BitVec 64) (s : State), s.safe = false → x.served s → x.goodForm → x.bar ≠ .bar2 →
      regAt x.addr = none →
      ∃ t, exec (.registerWrite x v) s = .next t ∧ t.flt.lines = s.flt.lines ∧ t.regs = s.regs ∧ t.out = s.out)

/-- R4: the block of an absent unit reads 0, and a write to it (NET_PORT registers that a transaction takes apart) is
ignored; neither raises a fault. -/
def Obligations.AbsentUnitsReadZero : Prop :=
  (∀ (x : Access1) (s : State), s.safe = false → x.served s → x.goodForm → x.bar = .bar0 → x.size = 8 →
    regAbsent s.hw.variant x.addr →
    ∃ t, exec (.rcRegisterRead x) s = .next t ∧ t.out = s.out ++ [.readData x.fn 0] ∧ t.flt = s.flt)
  ∧ (∀ (x : Access1) (v : BitVec 64) (s : State), s.safe = false → x.served s → x.goodForm → x.bar = .bar0 →
      regAbsent s.hw.variant x.addr → isRwt x.addr = false →
      ∃ t, exec (.registerWrite x v) s = .next t ∧ t.out = s.out ∧ t.flt = s.flt ∧ t.regs = s.regs)

/-! ## The fault collector and SAFE_STOP -/

/-- R41: events are taken in collector order: of the events whose time has come, the one committed has the least stamp, and
at one stamp the least source; hub blocks stand below every tile, tiles below every port, tiles ascend with their number. -/
def Obligations.EventsCommitInCollectorOrder : Prop :=
  (∀ (s : State), (∃ e ∈ s.flt.lines, e.stamp + 24 ≤ s.dtime) →
    ∃ t e, exec .eventCommit s = .next t ∧ e ∈ s.flt.lines ∧ e.stamp + 24 ≤ s.dtime
      ∧ t.flt.lines = s.flt.lines.erase e
      ∧ (∃ b, t.flt.committed = s.flt.committed ++ [{ e with concurrent := b }])
      ∧ ∀ d ∈ s.flt.lines, d.stamp + 24 ≤ s.dtime → e.stamp < d.stamp ∨ (e.stamp = d.stamp ∧ e.src ≤ d.src))
  ∧ (∀ src t, sourceListed src → src < 0x100 → src < srcTILE t)
  ∧ (∀ t u, t < u → srcTILE t < srcTILE u)
  ∧ (∀ t p, t < 96 → srcTILE t < srcPORT p)

/-- R386, R384: a plain F3 from a source without a unit to fence is recorded with the class raised, sets F3_UNACK, and
latches FLT_FIRST when it is the first F3 or above. -/
def Obligations.PlainF3SetsItsLatch : Prop :=
  ∀ (e : ErrEvent) (es : List ErrEvent) (s : State), s.safe = false → s.flt.committed = e :: es → e.kind = .fault →
    e.cls = .f3 → s.fld fFLT_STATUS_F3_UNACK = 0 → s.fld fFLT_STATUS_F4_UNACK = 0 → e.src = 0x08 →
    ∃ t r, exec .faultCommit s = .next t ∧ t.flt.records = s.flt.records ++ [r] ∧ r.applied = .f3 ∧ r.raised = .f3
      ∧ r.escalated = false ∧ r.first = true ∧ r.status = e.status ∧ r.source = e.src ∧ r.stamp = e.stamp
      ∧ t.fld fFLT_STATUS_F3_UNACK = 1 ∧ t.fld fFLT_FIRST_VALID = 1 ∧ t.fld fFLT_FIRST_STATUS = e.status.toNat
      ∧ t.fld fFLT_FIRST_CLASS = 3 ∧ t.safe = false ∧ t.tiles = s.tiles ∧ t.ctxs = s.ctxs

/-- R398: after an event is taken, FLT_STATUS.FAULT_OUT shows exactly the conditions for driving FAULT_OUT_N low: collector
not in service, the safe state, F4_UNACK, or F3_UNACK with OUT_F3. -/
def Obligations.FaultOutFollowsItsConditions : Prop :=
  ∀ s : State, s.flt.committed ≠ [] →
    ∃ t, exec .faultCommit s = .next t
      ∧ (t.fld fFLT_STATUS_FAULT_OUT = 1 ↔ t.fld fFLT_STATUS_READY = 0 ∨ t.safe = true ∨ t.fld fFLT_STATUS_F4_UNACK = 1
          ∨ (t.fld fFLT_STATUS_F3_UNACK = 1 ∧ t.fld fFLT_CTRL_OUT_F3 = 1))

/-- R388: a write to FLT_FORCE from PF0. A listed source and a class to 4, or F5 armed by the write just before, put the
event on its line with FORCED and FLT_FORCED; any other sets FORCE_REFUSED and injects nothing; a write of the upper half
alone does neither; each clears ARM_F5. -/
def Obligations.ForceWritesInjectOrAreRefused : Prop :=
  (∀ (v : BitVec 64) (cls : FClass) (s : State), s.safe = false → s.reaches 0 →
    FClass.named (bitsOf v.toNat 8 3) = some cls → sourceListed (bitsOf v.toNat 16 16) →
    (cls = .f5 → s.flt.armPrev = true ∧ s.fld fFLT_CTRL_ARM_F5 = 1) →
    ∃ t, exec (.fltForceWrite 0 false v) s = .next t
      ∧ t.flt.lines = s.flt.lines ++ [{
          kind := .fault, src := bitsOf v.toNat 16 16, status := stFLT_FORCED, unit := 0,
          ctx := ctxOrNone (bitsOf v.toNat 0 8), cls := cls, stamp := s.dtime, forced := true, discrepancy := false,
          concurrent := false }]
      ∧ t.fld fFLT_CTRL_ARM_F5 = 0 ∧ t.fld fFLT_STATUS_FORCE_REFUSED = s.fld fFLT_STATUS_FORCE_REFUSED)
  ∧ (∀ (v : BitVec 64) (s : State), s.safe = false → s.reaches 0 →
      FClass.named (bitsOf v.toNat 8 3) = none ∨ sourceListed (bitsOf v.toNat 16 16) = false
        ∨ (FClass.named (bitsOf v.toNat 8 3) = some .f5 ∧ (s.flt.armPrev = false ∨ s.fld fFLT_CTRL_ARM_F5 = 0)) →
      ∃ t, exec (.fltForceWrite 0 false v) s = .next t ∧ t.flt.lines = s.flt.lines
        ∧ t.fld fFLT_STATUS_FORCE_REFUSED = 1 ∧ t.fld fFLT_CTRL_ARM_F5 = 0)
  ∧ (∀ (v : BitVec 64) (s : State), s.safe = false → s.reaches 0 →
      ∃ t, exec (.fltForceWrite 0 true v) s = .next t ∧ t.flt.lines = s.flt.lines ∧ t.fld fFLT_CTRL_ARM_F5 = 0
        ∧ t.fld fFLT_STATUS_FORCE_REFUSED = s.fld fFLT_STATUS_FORCE_REFUSED)

/-- R394, in any state: a level counts once it has been stable for FILTER_US; a lone assertion starts the timer; both
channels asserted, or the timer's end, is a demand (F5, SAFE_STOP_DEMAND; DISCREPANCY at the timer); a lone channel released
before is F3 with SAFE_STOP_DISAGREE and SAFE_DEGRADED, and no demand. With SAFE_DEGRADED set one channel is a demand at once
(the first sentence of R395). Only the monitor, its registers and the error lines change. -/
def Obligations.SafeStopChannelsMakeDemands : Prop :=
  (∀ (pin : Pin) (s : State), s.monTime < (s.channel pin).edgeAt + s.filterNs → exec (.safeStopQualify pin) s = .next s)
  ∧ (∀ (pin : Pin) (s : State), (s.channel pin).raw = true → (s.channel pin).qualified = false →
    (s.channel pin).edgeAt + s.filterNs ≤ s.monTime → s.flt.demanded = false → s.fld fFLT_STATUS_SAFE_DEGRADED = 0 →
    (∀ since, s.flt.timer = some since → s.monTime ≤ since + s.discrepancyNs) →
    ∃ t, exec (.safeStopQualify pin) s = .next t ∧ (t.channel pin).qualified = true
      ∧ ((s.channel pin.other).qualified = true → t.flt.timer = none
          ∧ (∃ e, t.flt.lines = s.flt.lines ++ [e] ∧ e.cls = .f5 ∧ e.status = stSAFE_STOP_DEMAND ∧ e.stamp = s.dtime
              ∧ e.discrepancy = false)
          ∧ t.fld fFLT_SAFE_STATUS_LAST_SKEW_US = min ((s.monTime - (s.channel pin.other).qualAt) / 1000) (2 ^ 32 - 1))
      ∧ ((s.channel pin.other).qualified = false → t.flt.lines = s.flt.lines ∧ t.flt.timer = some s.monTime)
      ∧ (∀ a, a ≠ aFLT_SAFE_STATUS → t.reg a = s.reg a) ∧ t.tiles = s.tiles ∧ t.net = s.net ∧ t.ctxs = s.ctxs)
  ∧ (∀ (since : Nat) (s : State), s.flt.timer = some since → since + s.discrepancyNs ≤ s.monTime →
      ∃ t e, exec .discrepancyTimeout s = .next t ∧ t.flt.lines = s.flt.lines ++ [e] ∧ e.cls = .f5
        ∧ e.status = stSAFE_STOP_DEMAND ∧ e.discrepancy = true ∧ t.flt.timer = none
        ∧ (∀ a, a ≠ aFLT_SAFE_STATUS → t.reg a = s.reg a) ∧ t.tiles = s.tiles ∧ t.net = s.net ∧ t.ctxs = s.ctxs)
  ∧ (∀ (pin : Pin) (since : Nat) (s : State), (s.channel pin).raw = false → (s.channel pin).qualified = true →
      (s.channel pin).edgeAt + s.filterNs ≤ s.monTime → (s.channel pin.other).qualified = false →
      s.flt.timer = some since → s.monTime < since + s.discrepancyNs →
      ∃ t e, exec (.safeStopQualify pin) s = .next t ∧ t.flt.lines = s.flt.lines ++ [e] ∧ e.cls = .f3
        ∧ e.status = stSAFE_STOP_DISAGREE ∧ t.flt.timer = none ∧ t.fld fFLT_STATUS_SAFE_DEGRADED = 1
        ∧ (∀ a, a ≠ aFLT_SAFE_STATUS → a ≠ aFLT_STATUS → t.reg a = s.reg a))
  ∧ (∀ (pin : Pin) (s : State), s.fld fFLT_STATUS_SAFE_DEGRADED = 1 → (s.channel pin).raw = true →
      (s.channel pin).qualified = false → (s.channel pin).edgeAt + s.filterNs ≤ s.monTime → s.flt.demanded = false →
      s.flt.timer = none →
      ∃ t e, exec (.safeStopQualify pin) s = .next t ∧ t.flt.lines = s.flt.lines ++ [e] ∧ e.cls = .f5
        ∧ e.status = stSAFE_STOP_DEMAND ∧ t.flt.demanded = true ∧ t.fld fFLT_STATUS_SAFE_DEGRADED = 1)

/-! ## Lanes -/

/-- R74, R75, R79: what the compute, load and branch instructions leave alone. They write the general or vector register they
name, the lane's pc, stall and retired count, and (a fault of R94, R95) the lane's run state, TILE_FAULT and an error line;
no byte of the tile store, no other register, lane, tile or block. -/
def Obligations.LaneComputeWritesOnlyItsDestination : Prop :=
  ∀ (tile : Fin 96) (lane : Fin 288) (s t : State),
    (∀ (op : IntOp) (rd rs1 rs2 : Fin 32), exec (.integerOp tile lane op rd rs1 rs2) s = .next t →
      WritesOnly tile lane (some rd.val) none s t)
    ∧ (∀ (op : ImmOp) (rd rs1 : Fin 32) (imm : BitVec 16), exec (.integerImmediateOp tile lane op rd rs1 imm) s = .next t →
      WritesOnly tile lane (some rd.val) none s t)
    ∧ (∀ (size : LaneSize) (signed : Bool) (rd rs1 : Fin 32) (imm : BitVec 16),
        exec (.load tile lane size signed rd rs1 imm) s = .next t → WritesOnly tile lane (some rd.val) none s t)
    ∧ (∀ (vd : Fin 16) (rs1 : Fin 32) (imm : BitVec 16), exec (.vectorLoad tile lane vd rs1 imm) s = .next t →
        WritesOnly tile lane none (some vd.val) s t)
    ∧ (∀ (op : BranchOp) (rs1 rs2 : Fin 32) (off : BitVec 16), exec (.branch tile lane op rs1 rs2 off) s = .next t →
        WritesOnly tile lane none none s t)
    ∧ (∀ (rd : Fin 32) (off : BitVec 21), exec (.jumpAndLink tile lane rd off) s = .next t →
        WritesOnly tile lane (some rd.val) none s t)
    ∧ (∀ (rd rs1 : Fin 32) (imm : BitVec 16), exec (.jumpRegister tile lane rd rs1 imm) s = .next t →
        WritesOnly tile lane (some rd.val) none s t)
    ∧ (∀ (op : VecOp) (w : ElemWidth) (vd vs1 vs2 : Fin 16), exec (.vectorIntegerOp tile lane op w vd vs1 vs2) s = .next t →
        WritesOnly tile lane none (some vd.val) s t)
    ∧ (∀ (op : PermOp) (w : ElemWidth) (vd vs1 vs2 : Fin 16), exec (.vectorPermute tile lane op w vd vs1 vs2) s = .next t →
        WritesOnly tile lane (match op with | .toG g _ => some g.val | _ => none)
          (match op with | .toG _ _ => none | _ => some vd.val) s t)
    ∧ (∀ (op : FpOp) (w : FpWidth) (rd rs1 rs2 : Fin 32), exec (.floatingPointOp tile lane op w rd rs1 rs2) s = .next t →
        WritesOnly tile lane (some rd.val) none s t)
    ∧ (∀ (rd query : Fin 32) (slot : Fin 8), exec (.rank tile lane rd query slot) s = .next t →
        WritesOnly tile lane (some rd.val) none s t)

/-- R74, R89: a store writes no register; of the tile store it writes at most its own bytes, at rs1 plus the signed
immediate. -/
def Obligations.StoresWriteOnlyTheirBytes : Prop :=
  ∀ (tile : Fin 96) (lane : Fin 288) (rs1 : Fin 32) (imm : BitVec 16) (x : Lane) (s t : State),
    x = (s.tile tile).lane lane →
    (∀ (size : LaneSize) (rd : Fin 32), exec (.store tile lane size rd rs1 imm) s = .next t →
      StoresOnly tile lane (x.addr rs1 imm) size.bytes s t)
    ∧ (∀ vd : Fin 16, exec (.vectorStore tile lane vd rs1 imm) s = .next t →
        StoresOnly tile lane (x.addr rs1 imm) 16 s t)

/-- R17: a lane that stores and then loads the same bytes reads the low bytes of the value it stored. -/
def Obligations.LoadsReturnTheLanesOwnStore : Prop :=
  ∀ (tile : Fin 96) (lane : Fin 288) (size : LaneSize) (rd rs1 rd' : Fin 32) (imm : BitVec 16) (x : Lane) (s t : State),
    Issues s tile lane → x = (s.tile tile).lane lane → badAddr (x.addr rs1 imm) size.bytes = false →
    s.readOnly tile (x.addr rs1 imm) = false → exec (.store tile lane size rd rs1 imm) s = .next t → Issues t tile lane →
    rd' ≠ 0 →
    ∃ u, exec (.load tile lane size false rd' rs1 imm) t = .next u
      ∧ ((u.tile tile).lane lane).getG rd' = BitVec.ofNat 64 ((x.getG rd).toNat % 2 ^ (8 * size.bytes))

/-- R76: integer results wrap modulo 2^64; division by zero gives all ones as quotient and the dividend as remainder.
R74: g0 reads 0, and an instruction that names it as destination leaves every general register as it was. -/
def Obligations.IntegerResultsWrap : Prop :=
  (∀ (tile : Fin 96) (lane : Fin 288) (rd rs1 rs2 : Fin 32) (x : Lane) (a b : Nat) (s : State), Issues s tile lane →
    x = (s.tile tile).lane lane → rd ≠ 0 → a = (x.getG rs1).toNat → b = (x.getG rs2).toNat →
    ∀ (op : IntOp) (n : Nat),
      (op = .add ∧ n = (a + b) % 2 ^ 64 ∨ op = .sub ∧ n = (2 ^ 64 - b + a) % 2 ^ 64 ∨ op = .mulLow ∧ n = a * b % 2 ^ 64
        ∨ op = .mulHighU ∧ n = a * b / 2 ^ 64 ∨ op = .divU ∧ b = 0 ∧ n = 2 ^ 64 - 1 ∨ op = .divS ∧ b = 0 ∧ n = 2 ^ 64 - 1
        ∨ op = .remU ∧ b = 0 ∧ n = a ∨ op = .remS ∧ b = 0 ∧ n = a ∨ op = .divU ∧ b ≠ 0 ∧ n = a / b
        ∨ op = .remU ∧ b ≠ 0 ∧ n = a % b) →
      ∃ t, exec (.integerOp tile lane op rd rs1 rs2) s = .next t ∧ (((t.tile tile).lane lane).getG rd).toNat = n)
  ∧ (∀ (tile : Fin 96) (lane : Fin 288) (rs1 rs2 : Fin 32) (op : IntOp) (s : State), Issues s tile lane →
      ∃ t, exec (.integerOp tile lane op 0 rs1 rs2) s = .next t ∧ ((t.tile tile).lane lane).getG 0 = 0#64
        ∧ ∀ r, ((t.tile tile).lane lane).getG r = ((s.tile tile).lane lane).getG r)

/-- R82: a lane that issues ENG while it holds 8 tickets, or that waits on a ticket it does not hold, takes a lane fault
with LANE_ILLEGAL: it stops, and F2 goes out on its tile's line. -/
def Obligations.TicketMisuseFaultsTheLane : Prop :=
  (∀ (tile : Fin 96) (lane : Fin 288) (rd rs1 : Fin 32) (engine op : BitVec 8) (s : State), s.safe = false →
    s.laneIssues tile lane (· == .eng) → (∀ k < 8, Map.has ((s.tile tile).lane lane).tickets k) →
    ∃ t, exec (.eng tile lane rd rs1 engine op) s = .next t ∧ ((t.tile tile).lane lane).run = .faulted
      ∧ t.flt.lines = s.flt.lines ++ [{
          kind := .fault, src := srcTILE tile, status := stLANE_ILLEGAL, unit := 0xFF, ctx := s.tileCtx tile, cls := .f2,
          stamp := s.dtime, forced := false, discrepancy := false, concurrent := false }])
  ∧ (∀ (tile : Fin 96) (lane : Fin 288) (rd rs1 : Fin 32) (k : Nat) (s : State), s.safe = false →
      k = (((s.tile tile).lane lane).getG rs1).toNat → s.laneIssues tile lane (· == .ewait k) →
      Map.has ((s.tile tile).lane lane).tickets k = false →
      ∃ t, exec (.ewait tile lane rd rs1) s = .next t ∧ ((t.tile tile).lane lane).run = .faulted
        ∧ t.flt.lines = s.flt.lines ++ [{
            kind := .fault, src := srcTILE tile, status := stLANE_ILLEGAL, unit := 0xFF, ctx := s.tileCtx tile, cls := .f2,
            stamp := s.dtime, forced := false, discrepancy := false, concurrent := false }])

/-- R87: BAR_NOT_MEMBER for an arrival on a slot whose mask lacks the lane or is unarmed, BAR_TWICE for one by a lane in the
arrival set, BAR_NO_ARRIVAL for a wait without an arrival since the last release: the lane faults with that status. -/
def Obligations.BarrierMisuseFaultsTheLane : Prop :=
  (∀ (tile : Fin 96) (lane : Fin 288) (slot : Fin 8) (s : State) (st : Status), Issues s tile lane →
    (notMember (s.maskOf tile slot) lane = true ∧ st = stBAR_NOT_MEMBER
      ∨ notMember (s.maskOf tile slot) lane = false ∧ bitOf ((s.tile tile).bar slot).arrived lane = true
        ∧ st = stBAR_TWICE) →
    (∃ t e, exec (.barArrive tile lane slot) s = .next t ∧ ((t.tile tile).lane lane).run = .faulted
      ∧ t.flt.lines = s.flt.lines ++ [e] ∧ e.status = st ∧ e.cls = .f2 ∧ (t.tile tile).bars = (s.tile tile).bars)
    ∧ ∃ t e, exec (.barSync tile lane slot) s = .next t ∧ ((t.tile tile).lane lane).run = .faulted
      ∧ t.flt.lines = s.flt.lines ++ [e] ∧ e.status = st ∧ e.cls = .f2 ∧ (t.tile tile).bars = (s.tile tile).bars)
  ∧ (∀ (tile : Fin 96) (lane : Fin 288) (slot : Fin 8) (s : State), Issues s tile lane →
      Map.find ((s.tile tile).lane lane).arrivals slot = none →
      ∃ t e, exec (.barWait tile lane slot) s = .next t ∧ ((t.tile tile).lane lane).run = .faulted
        ∧ t.flt.lines = s.flt.lines ++ [e] ∧ e.status = stBAR_NO_ARRIVAL ∧ e.cls = .f2)

/-! ## Buffers, pegs and barriers -/

/-- R313: a chain just allocated reads as zeros, at every offset. -/
def Obligations.NewChainsReadZero : Prop :=
  ∀ (ctx cls n agent tile h off len : Nat) (s t : State), ctx < 64 → cls < 3 → 0 < n →
    (s.chainsOf ctx).length + 1 < 2 ^ 20 → (∀ e ∈ Map.getD s.ink.gens ctx [], e.2 < 2 ^ 24) →
    s.alloc ctx cls n agent tile = .ok (h, t) → t.readHandle h off len = zeros len

/-- R314, R315: a call of a tile to the Innkeeper or the peg unit changes no chain and no peg of another context. -/
def Obligations.TileCallsStayInTheirContext : Prop :=
  ∀ (tile : Fin 96) (c : Nat) (s t : State), c ≠ s.tileCtx tile →
    (∀ (cls : Fin 4) (n : Nat), exec (.alloc (.call tile) cls n) s = .next t → t.chainsOf c = s.chainsOf c)
    ∧ (∀ (h : Nat) (cls : Fin 4) (n : Nat), exec (.extend (.call tile) h cls n) s = .next t → t.chainsOf c = s.chainsOf c)
    ∧ (∀ h : Nat, exec (.free (.call tile) h) s = .next t → t.chainsOf c = s.chainsOf c)
    ∧ (∀ (h : Nat) (agent : Fin 8), exec (.handoff (.call tile) h agent) s = .next t → t.chainsOf c = s.chainsOf c)
    ∧ (∀ p v : Nat, exec (.pegAdd (.call tile) p v) s = .next t → t.pegsOf c = s.pegsOf c ∧ t.ink = s.ink)
    ∧ (∀ p v : Nat, exec (.pegSet (.call tile) p v) s = .next t → t.pegsOf c = s.pegsOf c ∧ t.ink = s.ink)
    ∧ (exec (.pegWait tile) s = .next t → t.pegsOf c = s.pegsOf c ∧ t.ink = s.ink)

/-- R325: ADD adds its value and completes the waits the sum satisfies; one that would pass 0xFFFF_FFFF is not applied and
raises F2 with PEG_OVERFLOW; SET writes its value. Every other peg stays. -/
def Obligations.PegsAddExactlyOrOverflow : Prop :=
  (∀ (agent : Fin 8) (ctx : Fin 64) (peg n : Nat) (p : Peg) (s : State), s.safe = false → s.peg ctx peg = some p →
    p.value + n ≤ 0xFFFFFFFF →
    ∃ t, exec (.pegAdd (.hub agent ctx) peg n) s = .next t ∧ t.peg ctx peg = some { p with value := p.value + n }
      ∧ (∀ q, q ≠ peg → t.peg ctx q = s.peg ctx q) ∧ t.flt = s.flt
      ∧ t.sync.waits = s.sync.waits.filter (fun w => !(w.ctx == ctx.val && w.peg == peg && w.value ≤ p.value + n)))
  ∧ (∀ (agent : Fin 8) (ctx : Fin 64) (peg n : Nat) (p : Peg) (s : State), s.safe = false → s.peg ctx peg = some p →
      0xFFFFFFFF < p.value + n →
      ∃ t e, exec (.pegAdd (.hub agent ctx) peg n) s = .next t ∧ t.sync = s.sync
        ∧ t.flt.lines = s.flt.lines ++ [e] ∧ e.status = stPEG_OVERFLOW ∧ e.cls = .f2 ∧ e.ctx = ctx.val)
  ∧ (∀ (agent : Fin 8) (ctx : Fin 64) (peg n : Nat) (p : Peg) (s : State), s.safe = false → s.peg ctx peg = some p →
      ∃ t, exec (.pegSet (.hub agent ctx) peg n) s = .next t ∧ t.peg ctx peg = some { p with value := n % 2 ^ 32 }
        ∧ (∀ q, q ≠ peg → t.peg ctx q = s.peg ctx q) ∧ t.flt = s.flt)

/-- R331: an ARRIVE of a participant with the opposite of the current sense is the tile's arrival for the generation; a
second one, or one with the wrong sense, is a lane fault with DBAR_SENSE, one of a tile that is no participant with
DBAR_NOT_MEMBER, and both raise F2 (the first paragraph of R331). -/
def Obligations.BarrierArrivalsAreCheckedAgainstTheSense : Prop :=
  ∀ (tile : Fin 96) (c : Call) (v : Nat) (b : Dbar) (s : State), Called s tile 0x12 1 c → v = fieldAt c.desc 32 2 →
    unusedZero c.desc [(32, 2), (34, 1)] → fieldAt c.desc 34 1 ≤ 1 → v ≤ 255 → (s.tile tile).slice = none →
    Map.find (s.barsOf (s.tileCtx tile)) v = some b →
    (b.members.contains tile.val = false →
      ∃ t e, exec (.dbarArrive tile) s = .next t ∧ ((t.tile tile).lane c.lane).run = .faulted
        ∧ t.flt.lines = s.flt.lines ++ [e] ∧ e.status = stDBAR_NOT_MEMBER ∧ e.cls = .f2 ∧ t.sync = s.sync)
    ∧ (b.members.contains tile.val → (b.arrived.contains tile.val || (fieldAt c.desc 34 1 == 1) == b.sense) = true →
      ∃ t e, exec (.dbarArrive tile) s = .next t ∧ ((t.tile tile).lane c.lane).run = .faulted
        ∧ t.flt.lines = s.flt.lines ++ [e] ∧ e.status = stDBAR_SENSE ∧ e.cls = .f2 ∧ t.sync = s.sync)
    ∧ (b.members.contains tile.val → b.arrived.contains tile.val = false → (fieldAt c.desc 34 1 == 1) ≠ b.sense →
      (∃ m ∈ b.members, m ≠ tile.val ∧ b.arrived.contains m = false) →
      ∃ t, exec (.dbarArrive tile) s = .next t ∧ t.flt = s.flt
        ∧ Map.find (t.barsOf (s.tileCtx tile)) v = some { b with arrived := b.arrived ++ [tile.val] })

/-! ## The Throw, placement and geometry -/

/-- R64: the Throw domain is 2^k with k the smallest even number, at least 2, for which 2^k holds all N samples; for N up to
2^48 − 1, k is at most 48 and each half at most 24 bits. -/
def Obligations.ThrowDomainIsTheSmallestEvenPower : Prop :=
  ∀ n : Nat, 1 ≤ n → n ≤ 2 ^ 48 - 1 →
    throwExp n % 2 = 0 ∧ 2 ≤ throwExp n ∧ n ≤ 2 ^ throwExp n
      ∧ (∀ k, k % 2 = 0 → 2 ≤ k → n ≤ 2 ^ k → throwExp n ≤ k) ∧ throwExp n ≤ 48 ∧ throwExp n / 2 ≤ 24

/-- Tier 3, R29, R64 to R67: for every seed and epoch the Throw is a permutation of the sample indices: the cycle walk ends
inside the sample space, and no two positions give one index. -/
def Obligations.TheThrowIsAPermutation : Prop :=
  ∀ (seed : Bytes) (e n : Nat), 1 ≤ n → n ≤ 2 ^ 48 - 1 →
    (∀ p, p < n → throwIndex (throwKeys seed e (throwExp n)) (throwExp n) n p < n)
    ∧ ∀ p q, p < n → q < n → throwIndex (throwKeys seed e (throwExp n)) (throwExp n) n p
        = throwIndex (throwKeys seed e (throwExp n)) (throwExp n) n q → p = q

/-- R28, R59: in a pod of 6 members or more, no member holds more than 2 of the 12 fragments of a stripe. -/
def Obligations.NoMemberHoldsThreeFragments : Prop :=
  ∀ (d : DatasetEnt) (stripe rank : Nat) (p : PodEnt), d.pods[stripe % d.pods.length]? = some p → 6 ≤ p.members.length →
    ((List.range 12).filter (fun f => d.holder stripe f == rank)).length ≤ 2

/-- R283: the dies of group g. On an OF-HX1-A die g / 12 of channel 12c + g mod 12 on each of the 8 carriers; on an
OF-HX1-B die g / 6 of channels 12c + j and 12c + j + 6, j = g mod 6, on each of the 4 carriers. -/
def Obligations.DieGroupsSpanTheCarriers : Prop :=
  (∀ (s : State) (g ch die : Nat), s.hw.variant = .a → ch < 96 → die < s.diesPerChannel →
    (s.groupOf ch die = g ↔ ∃ c, c < 8 ∧ ch = 12 * c + g % 12 ∧ die = g / 12))
  ∧ (∀ (s : State) (g ch die : Nat), s.hw.variant = .b → ch < 48 → die < s.diesPerChannel →
      (s.groupOf ch die = g ↔ die = g / 6 ∧ ∃ c, c < 4 ∧ (ch = 12 * c + g % 6 ∨ ch = 12 * c + g % 6 + 6)))
  ∧ (∀ s : State, s.hw.variant = .a → s.groups = 12 * s.diesPerChannel)
  ∧ (∀ s : State, s.hw.variant = .b → s.groups = 6 * s.diesPerChannel)

/-! ## Rows, stored and sent bytes -/

/-- R207: every row of a group has the payload length of the run's settings, in each layout. -/
def Obligations.RowPayloadsHaveOneLength : Prop :=
  ∀ (p : PackCfg) (w step u consumer first : Nat) (ds : List Prepared), p.layout ≤ 2 → 0 < w → 1 ≤ p.segMax →
    ∀ row ∈ packGroup p w step u consumer first ds, row.2.length = p.payloadLen w

/-- R371: what the device seals with AES-256-GCM opens, under the same key, nonce and header, to the same plaintext. -/
def Obligations.SealedDataOpens : Prop :=
  ∀ key nonce aad pt : Bytes, key.length = 32 → nonce.length = 12 →
    gcmOpen key nonce aad (gcmSeal key nonce aad pt).1 (gcmSeal key nonce aad pt).2 = some pt

/-- R272: completion n of a Ledger queue goes, as one RDMA WRITE, to CPL_ADDR + (n mod CPL_ENTRIES) × 32, with PHASE 1 on the
first pass through the ring and inverted at each wrap; n counts up by one. -/
def Obligations.LedgerCompletionsFollowTheRing : Prop :=
  ∀ (queue : Fin 1024) (q : LedgerQueue) (c : LedgerCpl) (rest : List LedgerCpl) (s : State), s.safe = false →
    s.queue queue = some q → q.cpls = c :: rest →
    ∃ t b q', exec (.ledgerCompletionWrite queue) s = .next t ∧ t.queue queue = some q' ∧ q'.written = q.written + 1
      ∧ q'.cpls = rest ∧ b.length = 32 ∧ bitOf (fieldAt b 31 1) 0 = (q.written / q.cplEntries % 2 == 0)
      ∧ t = s.commit
          ((s.setQueue queue q').post q.qp (.write (q.cplAddr + q.written % q.cplEntries * 32) q.cplKey none b) .plain)

/-- R251: a packet whose number matches no open queue pair is taken off the port and counted in STALE; it has no other
effect. -/
def Obligations.StalePacketsHaveNoEffect : Prop :=
  ∀ (port : Fin 32) (sub : Fin 4) (p : Pkt → Bool) (c : Instr) (f : RxFrame) (x : Pkt) (sealed : Bool) (s u : State),
    s.safe = false →
    (c = .rdmaWriteReceive port sub ∧ p = Pkt.isWrite ∨ c = .rdmaReadRequestReceive port sub ∧ p = Pkt.isReadReq
      ∨ c = .rdmaReadResponseReceive port sub ∧ p = Pkt.isReadResp ∨ c = .ackReceive port sub ∧ p = Pkt.isAck) →
    s.takeRx port sub (RxBody.carries p) = some (f, u) → f.body = .rdma sealed x → u.findQpn x.qpn = none →
    Runs c s (u.bump (fNET_PORT_DROP_COUNT_STALE port) 1)

/-! ## Power -/

/-- R449: the duty the governor picks lies from 1 to 64, keeps the predicted input within the allowance unless it is 1, and
is the largest that does. -/
def Obligations.DutyIsTheLargestWithinTheAllowance : Prop :=
  ∀ (nonTile est : Nat) (allow : Int),
    1 ≤ dutyFor nonTile est allow ∧ dutyFor nonTile est allow ≤ 64
      ∧ (((nonTile * 640 + est * dutyFor nonTile est allow : Nat) : Int) ≤ allow * 640 ∨ dutyFor nonTile est allow = 1)
      ∧ ∀ d, dutyFor nonTile est allow < d → d ≤ 64 → allow * 640 < ((nonTile * 640 + est * d : Nat) : Int)
end

