-- ==== Sys2Proof/Laws/Exec.lean ====
section
/-!
SUPPORT. The two forms of every command's effect, said once: what the command answers, and what it leaves alone.
-/
namespace Sys2Proof.Machine

/-- `act` always answers: the state unchanged in the safe state, the committed effect out of it. -/
theorem act_next (s : State) (f : State → State) :
    act s f = .next s ∧ s.safe = true ∨ act s f = .next (s.commit (f s)) ∧ s.safe = false := by
  unfold act
  cases h : s.safe
  · exact .inr ⟨if_neg (by simp), rfl⟩
  · exact .inl ⟨if_pos rfl, rfl⟩

theorem act_unsafe {s : State} (f : State → State) (h : s.safe = false) : act s f = .next (s.commit (f s)) := by
  unfold act; rw [h]; rfl

theorem act_safe {s : State} (f : State → State) (h : s.safe = true) : act s f = .next s := by
  unfold act; rw [h]; rfl

theorem always_next (s : State) (f : State → State) : always s f = .next (s.commit (f s)) := rfl

/-- A command that has its effect through `act` keeps the fuses and the queue. -/
theorem act_keeps (s : State) (f : State → State) :
    ∃ t, act s f = .next t ∧ t.hw = s.hw ∧ t.pending = s.pending := by
  rcases act_next s f with ⟨h, _⟩ | ⟨h, _⟩
  · exact ⟨_, h, rfl, rfl⟩
  · exact ⟨_, h, rfl, rfl⟩

theorem always_keeps (s : State) (f : State → State) :
    ∃ t, always s f = .next t ∧ t.hw = s.hw ∧ t.pending = s.pending := ⟨_, rfl, rfl, rfl⟩

/-- A command whose effect goes through `act` completes with that effect. -/
theorem runs_act {c : Instr} {s t : State} {f : State → State} (he : exec c s = act s f) (hs : s.safe = false)
    (ht : f s = t) : Runs c s t := by
  unfold Runs; rw [he, act_unsafe f hs, ht]

theorem runs_always {c : Instr} {s t : State} {f : State → State} (he : exec c s = always s f) (ht : f s = t) :
    Runs c s t := by
  unfold Runs; rw [he, always_next, ht]

/-- A request's body runs on the state in which the request is taken up. -/
theorem onReq_asked {s : State} {c sq op : Nat} {r : HostReq} (h : Asked s c sq op r)
    (body : State → HostReq → State) : s.onReq c sq op body = body (s.taken r) r := by
  obtain ⟨_, h2, h3⟩ := h
  unfold State.onReq
  rw [h2]
  exact if_pos h3

/-- A request that is the owner's or a tenant's completes with its body's effect. -/
theorem runs_asked {i : Instr} {s t : State} {c sq op : Nat} {r : HostReq} {body : State → HostReq → State}
    (he : exec i s = act s (fun s => s.onReq c sq op body)) (h : Asked s c sq op r)
    (ht : body (s.taken r) r = t) : Runs i s t :=
  runs_act he h.1 (by rw [onReq_asked h, ht])

theorem onCall_called {s : State} {tile engine op : Nat} {c : Call} (h : Called s tile engine op c)
    (body : Call → State) : s.onCall tile engine op body = body c := by
  obtain ⟨_, h2, h3⟩ := h
  unfold State.onCall
  rw [h2]
  exact if_pos h3

/-- A call at the head of its engine's queue completes with its body's effect. -/
theorem runs_called {i : Instr} {s t : State} {tile engine op : Nat} {c : Call} {body : State → Call → State}
    (he : exec i s = act s (fun s => s.onCall tile engine op (body s))) (h : Called s tile engine op c)
    (ht : body s c = t) : Runs i s t :=
  runs_act he h.1 (by rw [onCall_called h, ht])

/-- An instruction of a lane that issues ends as its body says. -/
theorem runs_lane {i : Instr} {s : State} {tile lane : Nat} {body : State → Lane → LaneEnd}
    (he : exec i s = act s (fun s => s.lane1 tile lane (body s))) (h : Issues s tile lane) :
    Runs i s (s.endLane tile lane (body s ((s.tile tile).lane lane))) :=
  runs_act he h.1 (by unfold State.lane1; rw [if_pos h.2])

/-! ## A request taken up leaves the rest alone -/

@[simp] theorem taken_sec (s : State) (r : HostReq) : (s.taken r).sec = s.sec := rfl
@[simp] theorem taken_regs (s : State) (r : HostReq) : (s.taken r).regs = s.regs := rfl
@[simp] theorem taken_dtime (s : State) (r : HostReq) : (s.taken r).dtime = s.dtime := rfl
@[simp] theorem taken_ctxs (s : State) (r : HostReq) : (s.taken r).ctxs = s.ctxs := rfl
@[simp] theorem taken_data (s : State) (r : HostReq) : (s.taken r).data = s.data := rfl
@[simp] theorem taken_tiles (s : State) (r : HostReq) : (s.taken r).tiles = s.tiles := rfl
@[simp] theorem taken_hw (s : State) (r : HostReq) : (s.taken r).hw = s.hw := rfl
@[simp] theorem taken_reg (s : State) (r : HostReq) (a : Nat) : (s.taken r).reg a = s.reg a := rfl
@[simp] theorem taken_fld (s : State) (r : HostReq) (f : Fld) : (s.taken r).fld f = s.fld f := rfl
@[simp] theorem taken_runOf (s : State) (r : HostReq) (c : Nat) : (s.taken r).runOf c = s.runOf c := rfl

/-! ## Packets and Ledger commands -/

/-- A packet that comes through is handled in the state that holds its queue pair. -/
theorem onPacket_arrived {s : State} {port sub : Nat} {p : Pkt → Bool} {x : Pkt} {i : Nat} {q : Qp} {u : State}
    (h : Arrived s port sub p x i q u) (body : State → Nat → Qp → Pkt → State) :
    s.onPacket port sub p body = body u i q x := by
  obtain ⟨_, _, f, v, q0, h1, h2, h3, h4, h5, h6⟩ := h
  unfold State.onPacket
  rw [h1]; simp only [h2, h3]
  rw [if_neg (by simp [h4, h5])]
  rcases h6 with ⟨a, rfl, rfl⟩ | ⟨a, n, b, c, rfl, rfl⟩
  · simp [a]
  · simp [a, b, c]

theorem runs_packet {c : Instr} {s t : State} {port sub : Nat} {p : Pkt → Bool} {x : Pkt} {i : Nat} {q : Qp} {u : State}
    {body : State → Nat → Qp → Pkt → State} (he : exec c s = act s (fun s => s.onPacket port sub p body))
    (h : Arrived s port sub p x i q u) (ht : body u i q x = t) : Runs c s t :=
  runs_act he h.1 (by rw [onPacket_arrived h, ht])

theorem onCmd_commanded {s : State} {n slot op : Nat} {q : LedgerQueue} {c : LedgerCmd}
    (h : Commanded s n slot op q c) (body : LedgerQueue → LedgerCmd → State) : s.onCmd n slot op body = body q c := by
  obtain ⟨_, h2, h3, h4, h5⟩ := h
  unfold State.onCmd
  rw [h2]; simp only [h3]
  exact if_pos ⟨h4, h5⟩

/-- A Ledger command that has started completes with its body's effect. -/
theorem runs_cmd {i : Instr} {s t : State} {n slot op : Nat} {q : LedgerQueue} {c : LedgerCmd}
    {body : State → LedgerQueue → LedgerCmd → State} (he : exec i s = act s (fun s => s.onCmd n slot op (body s)))
    (h : Commanded s n slot op q c) (ht : body s q c = t) : Runs i s t :=
  runs_act he h.1 (by rw [onCmd_commanded h, ht])

/-- Once all data has moved, what follows runs on the state that holds it. -/
theorem whenMoved_moved {s u : State} {n : Nat} {q q' : LedgerQueue} {c c' : LedgerCmd} (h : Moved s n q c q' c' u)
    (body : State → LedgerQueue → LedgerCmd → State) : s.whenMoved n q c body = body u q' c' := by
  obtain ⟨v, h1, h2, h3, rfl, rfl⟩ := h
  unfold State.whenMoved
  simp only [h1, h2, h3, if_true]

end Sys2Proof.Machine
end

