-- ==== Sys2Proof/Laws/Map.lean ====
section
/-!
SUPPORT. What the map operations do: reading after a write, at the same key and at another, and the canonical form kept.
-/
namespace Sys2Proof.Machine

variable {α : Type}

@[simp] theorem Map.find_nil (i : Nat) : Map.find ([] : Map α) i = none := rfl

theorem Map.find_put (m : Map α) (i j : Nat) (v : α) :
    Map.find (Map.put m i v) j = if i = j then some v else Map.find m j := by
  induction m with
  | nil => simp [Map.put, Map.find]
  | cons e m ih =>
    obtain ⟨k, w⟩ := e
    unfold Map.put
    split
    · simp only [Map.find]
    · split
      · next h => subst h; simp only [Map.find]; split <;> rfl
      · next h1 h2 =>
        simp only [Map.find, ih]
        by_cases h : k = j
        · subst h; simp [h2]
        · simp [h]

@[simp] theorem Map.find_put_same (m : Map α) (i : Nat) (v : α) : Map.find (Map.put m i v) i = some v := by
  simp [Map.find_put]

theorem Map.find_put_other (m : Map α) {i j : Nat} (v : α) (h : j ≠ i) :
    Map.find (Map.put m i v) j = Map.find m j := by
  simp [Map.find_put, Ne.symm h]

theorem Map.find_del (m : Map α) (i j : Nat) :
    Map.find (Map.del m i) j = if i = j then none else Map.find m j := by
  induction m with
  | nil => simp [Map.del, Map.find]
  | cons e m ih =>
    obtain ⟨k, w⟩ := e
    unfold Map.del at *
    by_cases h : k = i
    · subst h
      simp only [List.filter, bne_self_eq_false, ih, Map.find]
      split <;> rfl
    · simp only [List.filter, bne_iff_ne.2 h, Map.find, ih]
      by_cases hk : k = j
      · subst hk; simp [Ne.symm h]
      · simp [hk]

theorem Map.getD_put (m : Map α) (i j : Nat) (v d : α) :
    Map.getD (Map.put m i v) j d = if i = j then v else Map.getD m j d := by
  simp only [Map.getD, Map.find_put]; split <;> rfl

@[simp] theorem Map.getD_put_same (m : Map α) (i : Nat) (v d : α) : Map.getD (Map.put m i v) i d = v := by
  simp [Map.getD_put]

theorem Map.getD_put_other (m : Map α) {i j : Nat} (v d : α) (h : j ≠ i) :
    Map.getD (Map.put m i v) j d = Map.getD m j d := by
  simp [Map.getD_put, Ne.symm h]

/-- The one law of a sparse write: the written key reads the value, every other key as before. -/
theorem Map.getD_setD [DecidableEq α] (d : Nat → α) (m : Map α) (i j : Nat) (v : α) :
    Map.getD (Map.setD (d i) m i v) j (d j) = if i = j then v else Map.getD m j (d j) := by
  unfold Map.setD
  split
  · next h =>
    simp only [Map.getD, Map.find_del]
    split
    · next hij => subst hij; simp [h]
    · rfl
  · exact Map.getD_put m i j v (d j)

/-! ## The canonical form -/

/-- Every key of a map lies above a bound. -/
def Map.above (b : Nat) (m : Map α) : Prop := ∀ e ∈ m, b < e.1

theorem Map.sorted_cons {k : Nat} {w : α} {m : Map α} :
    Map.sorted ((k, w) :: m) = true ↔ Map.above k m ∧ Map.sorted m = true := by
  induction m generalizing k w with
  | nil => simp [Map.sorted, Map.above]
  | cons e m ih =>
    obtain ⟨k', w'⟩ := e
    simp only [Map.sorted, Bool.and_eq_true, decide_eq_true_eq]
    constructor
    · rintro ⟨h, hs⟩
      refine ⟨?_, hs⟩
      intro x hx
      rcases List.mem_cons.1 hx with rfl | hx
      · exact h
      · exact lt_trans h ((ih.1 hs).1 x hx)
    · rintro ⟨h, hs⟩
      exact ⟨h _ (List.mem_cons_self ..), hs⟩

theorem Map.above_put {b i : Nat} {m : Map α} (v : α) (h : Map.above b m) (hi : b < i) :
    Map.above b (Map.put m i v) := by
  induction m with
  | nil => intro e he; simp [Map.put] at he; subst he; exact hi
  | cons e m ih =>
    obtain ⟨k, w⟩ := e
    have hk : b < k := h (k, w) (List.mem_cons_self ..)
    have hm : Map.above b m := fun x hx => h x (List.mem_cons_of_mem _ hx)
    unfold Map.put
    split
    · intro x hx
      rcases List.mem_cons.1 hx with rfl | hx
      · exact hi
      · exact h x hx
    · split
      · intro x hx
        rcases List.mem_cons.1 hx with rfl | hx
        · exact hi
        · exact hm x hx
      · intro x hx
        rcases List.mem_cons.1 hx with rfl | hx
        · exact hk
        · exact ih hm x hx

theorem Map.sorted_put {m : Map α} (i : Nat) (v : α) (h : Map.sorted m = true) :
    Map.sorted (Map.put m i v) = true := by
  induction m with
  | nil => rfl
  | cons e m ih =>
    obtain ⟨k, w⟩ := e
    obtain ⟨ha, hs⟩ := Map.sorted_cons.1 h
    unfold Map.put
    split
    · next hik =>
      refine Map.sorted_cons.2 ⟨?_, h⟩
      intro x hx
      rcases List.mem_cons.1 hx with rfl | hx
      · exact hik
      · exact lt_trans hik (ha x hx)
    · split
      · next hik => subst hik; exact Map.sorted_cons.2 ⟨ha, hs⟩
      · next h1 h2 => exact Map.sorted_cons.2 ⟨Map.above_put v ha (by omega), ih hs⟩

theorem Map.sorted_filter {m : Map α} (p : Nat × α → Bool) (h : Map.sorted m = true) :
    Map.sorted (m.filter p) = true := by
  induction m with
  | nil => rfl
  | cons e m ih =>
    obtain ⟨k, w⟩ := e
    obtain ⟨ha, hs⟩ := Map.sorted_cons.1 h
    rw [List.filter_cons]
    split
    · exact Map.sorted_cons.2 ⟨fun x hx => ha x (List.mem_of_mem_filter hx), ih hs⟩
    · exact ih hs

theorem Map.mem_put {m : Map α} {i : Nat} {v : α} {e : Nat × α} (h : e ∈ Map.put m i v) :
    e = (i, v) ∨ e ∈ m := by
  induction m with
  | nil => simpa [Map.put] using h
  | cons x m ih =>
    obtain ⟨k, w⟩ := x
    unfold Map.put at h
    split at h
    · simpa using h
    · split at h
      · rcases List.mem_cons.1 h with h | h
        · exact .inl h
        · exact .inr (List.mem_cons_of_mem _ h)
      · rcases List.mem_cons.1 h with h | h
        · exact .inr (h ▸ List.mem_cons_self ..)
        · rcases ih h with h | h
          · exact .inl h
          · exact .inr (List.mem_cons_of_mem _ h)

/-- A sparse write keeps the canonical form. -/
theorem Map.canonical_setD [DecidableEq α] (d : Nat → α) {m : Map α} (i : Nat) (v : α) (h : Map.canonical d m = true) :
    Map.canonical d (Map.setD (d i) m i v) = true := by
  simp only [Map.canonical, Bool.and_eq_true, List.all_eq_true, decide_eq_true_eq] at *
  obtain ⟨hs, hd⟩ := h
  unfold Map.setD
  split
  · refine ⟨Map.sorted_filter _ hs, fun e he => hd e (List.mem_of_mem_filter he)⟩
  · next hv =>
    refine ⟨Map.sorted_put i v hs, fun e he => ?_⟩
    rcases Map.mem_put he with rfl | he
    · exact hv
    · exact hd e he

end Sys2Proof.Machine
end

