-- ==== Sys2Proof/Laws/Mem.lean ====
section
/-!
SUPPORT. The addressed memories: a byte reads what was last written there, a write leaves every other byte alone, and
every operation keeps the canonical form.
-/
namespace Sys2Proof.Machine

theorem Mem.get_set (m : Mem) (a x : Nat) (b : Byte) :
    Mem.get (Mem.set m a b) x = if a = x then b else Mem.get m x :=
  Map.getD_setD (fun _ => 0#8) m a x b

theorem Mem.wf_set {m : Mem} (a : Nat) (b : Byte) (h : Mem.wf m = true) : Mem.wf (Mem.set m a b) = true :=
  Map.canonical_setD (fun _ => 0#8) a b h

/-- A write keeps the canonical form. -/
theorem Mem.wf_write {m : Mem} (a : Nat) (bs : Bytes) (h : Mem.wf m = true) : Mem.wf (Mem.write m a bs) = true := by
  induction bs generalizing m a with
  | nil => exact h
  | cons b bs ih => exact ih _ (Mem.wf_set a b h)

/-- Bytes outside the written range read as before. -/
theorem Mem.get_write_outside (m : Mem) (a x : Nat) (bs : Bytes) (h : x < a ∨ a + bs.length ≤ x) :
    Mem.get (Mem.write m a bs) x = Mem.get m x := by
  induction bs generalizing m a with
  | nil => rfl
  | cons b bs ih =>
    simp only [List.length_cons] at h
    rw [Mem.write, ih _ _ (by omega), Mem.get_set, if_neg (by omega)]

/-- Bytes of the written range read what was written. -/
theorem Mem.get_write_inside (m : Mem) (a i : Nat) (bs : Bytes) (h : i < bs.length) :
    Mem.get (Mem.write m a bs) (a + i) = bs[i] := by
  induction bs generalizing m a i with
  | nil => simp at h
  | cons b bs ih =>
    cases i with
    | zero => rw [Mem.write, Mem.get_write_outside _ _ _ _ (by omega)]; simp [Mem.get_set]
    | succ i =>
      simp only [List.length_cons] at h
      rw [Mem.write, show a + (i + 1) = a + 1 + i by omega, ih _ _ _ (by omega)]; rfl

end Sys2Proof.Machine
end

