-- ==== Sys2Proof/Laws/State.lean ====
section
/-!
SUPPORT. One lemma per field for each shared update of the state: no later proof opens a record.
-/
namespace Sys2Proof.Machine

/-! ## Records with one field replaced -/

theorem State.with_regs_hw (s : State) (x : Map (BitVec 64)) : (State.hw { s with regs := x }) = s.hw := rfl
theorem State.with_regs_dtime (s : State) (x : Map (BitVec 64)) : (State.dtime { s with regs := x }) = s.dtime := rfl
theorem State.with_regs_freeCtr (s : State) (x : Map (BitVec 64)) : (State.freeCtr { s with regs := x }) = s.freeCtr := rfl
theorem State.with_regs_pending (s : State) (x : Map (BitVec 64)) : (State.pending { s with regs := x }) = s.pending := rfl
theorem State.with_regs_out (s : State) (x : Map (BitVec 64)) : (State.out { s with regs := x }) = s.out := rfl
theorem State.with_regs_host (s : State) (x : Map (BitVec 64)) : (State.host { s with regs := x }) = s.host := rfl
theorem State.with_regs_flt (s : State) (x : Map (BitVec 64)) : (State.flt { s with regs := x }) = s.flt := rfl
theorem State.with_regs_ctxs (s : State) (x : Map (BitVec 64)) : (State.ctxs { s with regs := x }) = s.ctxs := rfl
theorem State.with_regs_tiles (s : State) (x : Map (BitVec 64)) : (State.tiles { s with regs := x }) = s.tiles := rfl
theorem State.with_regs_work (s : State) (x : Map (BitVec 64)) : (State.work { s with regs := x }) = s.work := rfl
theorem State.with_regs_ink (s : State) (x : Map (BitVec 64)) : (State.ink { s with regs := x }) = s.ink := rfl
theorem State.with_regs_sync (s : State) (x : Map (BitVec 64)) : (State.sync { s with regs := x }) = s.sync := rfl
theorem State.with_regs_data (s : State) (x : Map (BitVec 64)) : (State.data { s with regs := x }) = s.data := rfl
theorem State.with_regs_vocs (s : State) (x : Map (BitVec 64)) : (State.vocs { s with regs := x }) = s.vocs := rfl
theorem State.with_regs_net (s : State) (x : Map (BitVec 64)) : (State.net { s with regs := x }) = s.net := rfl
theorem State.with_regs_clk (s : State) (x : Map (BitVec 64)) : (State.clk { s with regs := x }) = s.clk := rfl
theorem State.with_regs_dice (s : State) (x : Map (BitVec 64)) : (State.dice { s with regs := x }) = s.dice := rfl
theorem State.with_regs_sec (s : State) (x : Map (BitVec 64)) : (State.sec { s with regs := x }) = s.sec := rfl
theorem State.with_regs_media (s : State) (x : Map (BitVec 64)) : (State.media { s with regs := x }) = s.media := rfl
theorem State.with_regs_ledger (s : State) (x : Map (BitVec 64)) : (State.ledger { s with regs := x }) = s.ledger := rfl
theorem State.with_regs_lan (s : State) (x : Map (BitVec 64)) : (State.lan { s with regs := x }) = s.lan := rfl
theorem State.with_regs_mod (s : State) (x : Map (BitVec 64)) : (State.mod { s with regs := x }) = s.mod := rfl
theorem State.with_regs_pwr (s : State) (x : Map (BitVec 64)) : (State.pwr { s with regs := x }) = s.pwr := rfl
theorem State.with_regs_clock (s : State) (x : Map (BitVec 64)) : (State.clock { s with regs := x }) = s.clock := rfl
theorem State.with_regs_fw (s : State) (x : Map (BitVec 64)) : (State.fw { s with regs := x }) = s.fw := rfl

theorem State.with_data_hw (s : State) (x : Map CtxData) : (State.hw { s with data := x }) = s.hw := rfl
theorem State.with_data_dtime (s : State) (x : Map CtxData) : (State.dtime { s with data := x }) = s.dtime := rfl
theorem State.with_data_freeCtr (s : State) (x : Map CtxData) : (State.freeCtr { s with data := x }) = s.freeCtr := rfl
theorem State.with_data_pending (s : State) (x : Map CtxData) : (State.pending { s with data := x }) = s.pending := rfl
theorem State.with_data_out (s : State) (x : Map CtxData) : (State.out { s with data := x }) = s.out := rfl
theorem State.with_data_regs (s : State) (x : Map CtxData) : (State.regs { s with data := x }) = s.regs := rfl
theorem State.with_data_host (s : State) (x : Map CtxData) : (State.host { s with data := x }) = s.host := rfl
theorem State.with_data_flt (s : State) (x : Map CtxData) : (State.flt { s with data := x }) = s.flt := rfl
theorem State.with_data_ctxs (s : State) (x : Map CtxData) : (State.ctxs { s with data := x }) = s.ctxs := rfl
theorem State.with_data_tiles (s : State) (x : Map CtxData) : (State.tiles { s with data := x }) = s.tiles := rfl
theorem State.with_data_work (s : State) (x : Map CtxData) : (State.work { s with data := x }) = s.work := rfl
theorem State.with_data_ink (s : State) (x : Map CtxData) : (State.ink { s with data := x }) = s.ink := rfl
theorem State.with_data_sync (s : State) (x : Map CtxData) : (State.sync { s with data := x }) = s.sync := rfl
theorem State.with_data_vocs (s : State) (x : Map CtxData) : (State.vocs { s with data := x }) = s.vocs := rfl
theorem State.with_data_net (s : State) (x : Map CtxData) : (State.net { s with data := x }) = s.net := rfl
theorem State.with_data_clk (s : State) (x : Map CtxData) : (State.clk { s with data := x }) = s.clk := rfl
theorem State.with_data_dice (s : State) (x : Map CtxData) : (State.dice { s with data := x }) = s.dice := rfl
theorem State.with_data_sec (s : State) (x : Map CtxData) : (State.sec { s with data := x }) = s.sec := rfl
theorem State.with_data_media (s : State) (x : Map CtxData) : (State.media { s with data := x }) = s.media := rfl
theorem State.with_data_ledger (s : State) (x : Map CtxData) : (State.ledger { s with data := x }) = s.ledger := rfl
theorem State.with_data_lan (s : State) (x : Map CtxData) : (State.lan { s with data := x }) = s.lan := rfl
theorem State.with_data_mod (s : State) (x : Map CtxData) : (State.mod { s with data := x }) = s.mod := rfl
theorem State.with_data_pwr (s : State) (x : Map CtxData) : (State.pwr { s with data := x }) = s.pwr := rfl
theorem State.with_data_clock (s : State) (x : Map CtxData) : (State.clock { s with data := x }) = s.clock := rfl
theorem State.with_data_fw (s : State) (x : Map CtxData) : (State.fw { s with data := x }) = s.fw := rfl

theorem State.with_flt_hw (s : State) (x : FaultState) : (State.hw { s with flt := x }) = s.hw := rfl
theorem State.with_flt_dtime (s : State) (x : FaultState) : (State.dtime { s with flt := x }) = s.dtime := rfl
theorem State.with_flt_freeCtr (s : State) (x : FaultState) : (State.freeCtr { s with flt := x }) = s.freeCtr := rfl
theorem State.with_flt_pending (s : State) (x : FaultState) : (State.pending { s with flt := x }) = s.pending := rfl
theorem State.with_flt_out (s : State) (x : FaultState) : (State.out { s with flt := x }) = s.out := rfl
theorem State.with_flt_regs (s : State) (x : FaultState) : (State.regs { s with flt := x }) = s.regs := rfl
theorem State.with_flt_host (s : State) (x : FaultState) : (State.host { s with flt := x }) = s.host := rfl
theorem State.with_flt_ctxs (s : State) (x : FaultState) : (State.ctxs { s with flt := x }) = s.ctxs := rfl
theorem State.with_flt_tiles (s : State) (x : FaultState) : (State.tiles { s with flt := x }) = s.tiles := rfl
theorem State.with_flt_work (s : State) (x : FaultState) : (State.work { s with flt := x }) = s.work := rfl
theorem State.with_flt_ink (s : State) (x : FaultState) : (State.ink { s with flt := x }) = s.ink := rfl
theorem State.with_flt_sync (s : State) (x : FaultState) : (State.sync { s with flt := x }) = s.sync := rfl
theorem State.with_flt_data (s : State) (x : FaultState) : (State.data { s with flt := x }) = s.data := rfl
theorem State.with_flt_vocs (s : State) (x : FaultState) : (State.vocs { s with flt := x }) = s.vocs := rfl
theorem State.with_flt_net (s : State) (x : FaultState) : (State.net { s with flt := x }) = s.net := rfl
theorem State.with_flt_clk (s : State) (x : FaultState) : (State.clk { s with flt := x }) = s.clk := rfl
theorem State.with_flt_dice (s : State) (x : FaultState) : (State.dice { s with flt := x }) = s.dice := rfl
theorem State.with_flt_sec (s : State) (x : FaultState) : (State.sec { s with flt := x }) = s.sec := rfl
theorem State.with_flt_media (s : State) (x : FaultState) : (State.media { s with flt := x }) = s.media := rfl
theorem State.with_flt_ledger (s : State) (x : FaultState) : (State.ledger { s with flt := x }) = s.ledger := rfl
theorem State.with_flt_lan (s : State) (x : FaultState) : (State.lan { s with flt := x }) = s.lan := rfl
theorem State.with_flt_mod (s : State) (x : FaultState) : (State.mod { s with flt := x }) = s.mod := rfl
theorem State.with_flt_pwr (s : State) (x : FaultState) : (State.pwr { s with flt := x }) = s.pwr := rfl
theorem State.with_flt_clock (s : State) (x : FaultState) : (State.clock { s with flt := x }) = s.clock := rfl
theorem State.with_flt_fw (s : State) (x : FaultState) : (State.fw { s with flt := x }) = s.fw := rfl

/-! ## The shared updates -/

@[simp] theorem State.putReg_hw (s : State) (a v : Nat) : (s.putReg a v).hw = s.hw := State.with_regs_hw s _
@[simp] theorem State.putReg_dtime (s : State) (a v : Nat) : (s.putReg a v).dtime = s.dtime := State.with_regs_dtime s _
@[simp] theorem State.putReg_freeCtr (s : State) (a v : Nat) : (s.putReg a v).freeCtr = s.freeCtr := State.with_regs_freeCtr s _
@[simp] theorem State.putReg_pending (s : State) (a v : Nat) : (s.putReg a v).pending = s.pending := State.with_regs_pending s _
@[simp] theorem State.putReg_out (s : State) (a v : Nat) : (s.putReg a v).out = s.out := State.with_regs_out s _
@[simp] theorem State.putReg_host (s : State) (a v : Nat) : (s.putReg a v).host = s.host := State.with_regs_host s _
@[simp] theorem State.putReg_flt (s : State) (a v : Nat) : (s.putReg a v).flt = s.flt := State.with_regs_flt s _
@[simp] theorem State.putReg_ctxs (s : State) (a v : Nat) : (s.putReg a v).ctxs = s.ctxs := State.with_regs_ctxs s _
@[simp] theorem State.putReg_tiles (s : State) (a v : Nat) : (s.putReg a v).tiles = s.tiles := State.with_regs_tiles s _
@[simp] theorem State.putReg_work (s : State) (a v : Nat) : (s.putReg a v).work = s.work := State.with_regs_work s _
@[simp] theorem State.putReg_ink (s : State) (a v : Nat) : (s.putReg a v).ink = s.ink := State.with_regs_ink s _
@[simp] theorem State.putReg_sync (s : State) (a v : Nat) : (s.putReg a v).sync = s.sync := State.with_regs_sync s _
@[simp] theorem State.putReg_data (s : State) (a v : Nat) : (s.putReg a v).data = s.data := State.with_regs_data s _
@[simp] theorem State.putReg_vocs (s : State) (a v : Nat) : (s.putReg a v).vocs = s.vocs := State.with_regs_vocs s _
@[simp] theorem State.putReg_net (s : State) (a v : Nat) : (s.putReg a v).net = s.net := State.with_regs_net s _
@[simp] theorem State.putReg_clk (s : State) (a v : Nat) : (s.putReg a v).clk = s.clk := State.with_regs_clk s _
@[simp] theorem State.putReg_dice (s : State) (a v : Nat) : (s.putReg a v).dice = s.dice := State.with_regs_dice s _
@[simp] theorem State.putReg_sec (s : State) (a v : Nat) : (s.putReg a v).sec = s.sec := State.with_regs_sec s _
@[simp] theorem State.putReg_media (s : State) (a v : Nat) : (s.putReg a v).media = s.media := State.with_regs_media s _
@[simp] theorem State.putReg_ledger (s : State) (a v : Nat) : (s.putReg a v).ledger = s.ledger := State.with_regs_ledger s _
@[simp] theorem State.putReg_lan (s : State) (a v : Nat) : (s.putReg a v).lan = s.lan := State.with_regs_lan s _
@[simp] theorem State.putReg_mod (s : State) (a v : Nat) : (s.putReg a v).mod = s.mod := State.with_regs_mod s _
@[simp] theorem State.putReg_pwr (s : State) (a v : Nat) : (s.putReg a v).pwr = s.pwr := State.with_regs_pwr s _
@[simp] theorem State.putReg_clock (s : State) (a v : Nat) : (s.putReg a v).clock = s.clock := State.with_regs_clock s _
@[simp] theorem State.putReg_fw (s : State) (a v : Nat) : (s.putReg a v).fw = s.fw := State.with_regs_fw s _

@[simp] theorem State.setFld_hw (s : State) (x : Fld) (v : Nat) : (s.setFld x v).hw = s.hw := State.putReg_hw s _ _
@[simp] theorem State.setFld_dtime (s : State) (x : Fld) (v : Nat) : (s.setFld x v).dtime = s.dtime := State.putReg_dtime s _ _
@[simp] theorem State.setFld_freeCtr (s : State) (x : Fld) (v : Nat) : (s.setFld x v).freeCtr = s.freeCtr := State.putReg_freeCtr s _ _
@[simp] theorem State.setFld_pending (s : State) (x : Fld) (v : Nat) : (s.setFld x v).pending = s.pending := State.putReg_pending s _ _
@[simp] theorem State.setFld_out (s : State) (x : Fld) (v : Nat) : (s.setFld x v).out = s.out := State.putReg_out s _ _
@[simp] theorem State.setFld_host (s : State) (x : Fld) (v : Nat) : (s.setFld x v).host = s.host := State.putReg_host s _ _
@[simp] theorem State.setFld_flt (s : State) (x : Fld) (v : Nat) : (s.setFld x v).flt = s.flt := State.putReg_flt s _ _
@[simp] theorem State.setFld_ctxs (s : State) (x : Fld) (v : Nat) : (s.setFld x v).ctxs = s.ctxs := State.putReg_ctxs s _ _
@[simp] theorem State.setFld_tiles (s : State) (x : Fld) (v : Nat) : (s.setFld x v).tiles = s.tiles := State.putReg_tiles s _ _
@[simp] theorem State.setFld_work (s : State) (x : Fld) (v : Nat) : (s.setFld x v).work = s.work := State.putReg_work s _ _
@[simp] theorem State.setFld_ink (s : State) (x : Fld) (v : Nat) : (s.setFld x v).ink = s.ink := State.putReg_ink s _ _
@[simp] theorem State.setFld_sync (s : State) (x : Fld) (v : Nat) : (s.setFld x v).sync = s.sync := State.putReg_sync s _ _
@[simp] theorem State.setFld_data (s : State) (x : Fld) (v : Nat) : (s.setFld x v).data = s.data := State.putReg_data s _ _
@[simp] theorem State.setFld_vocs (s : State) (x : Fld) (v : Nat) : (s.setFld x v).vocs = s.vocs := State.putReg_vocs s _ _
@[simp] theorem State.setFld_net (s : State) (x : Fld) (v : Nat) : (s.setFld x v).net = s.net := State.putReg_net s _ _
@[simp] theorem State.setFld_clk (s : State) (x : Fld) (v : Nat) : (s.setFld x v).clk = s.clk := State.putReg_clk s _ _
@[simp] theorem State.setFld_dice (s : State) (x : Fld) (v : Nat) : (s.setFld x v).dice = s.dice := State.putReg_dice s _ _
@[simp] theorem State.setFld_sec (s : State) (x : Fld) (v : Nat) : (s.setFld x v).sec = s.sec := State.putReg_sec s _ _
@[simp] theorem State.setFld_media (s : State) (x : Fld) (v : Nat) : (s.setFld x v).media = s.media := State.putReg_media s _ _
@[simp] theorem State.setFld_ledger (s : State) (x : Fld) (v : Nat) : (s.setFld x v).ledger = s.ledger := State.putReg_ledger s _ _
@[simp] theorem State.setFld_lan (s : State) (x : Fld) (v : Nat) : (s.setFld x v).lan = s.lan := State.putReg_lan s _ _
@[simp] theorem State.setFld_mod (s : State) (x : Fld) (v : Nat) : (s.setFld x v).mod = s.mod := State.putReg_mod s _ _
@[simp] theorem State.setFld_pwr (s : State) (x : Fld) (v : Nat) : (s.setFld x v).pwr = s.pwr := State.putReg_pwr s _ _
@[simp] theorem State.setFld_clock (s : State) (x : Fld) (v : Nat) : (s.setFld x v).clock = s.clock := State.putReg_clock s _ _
@[simp] theorem State.setFld_fw (s : State) (x : Fld) (v : Nat) : (s.setFld x v).fw = s.fw := State.putReg_fw s _ _

@[simp] theorem State.flag_hw (s : State) (x : Fld) : (s.flag x).hw = s.hw := State.setFld_hw s _ _
@[simp] theorem State.flag_dtime (s : State) (x : Fld) : (s.flag x).dtime = s.dtime := State.setFld_dtime s _ _
@[simp] theorem State.flag_freeCtr (s : State) (x : Fld) : (s.flag x).freeCtr = s.freeCtr := State.setFld_freeCtr s _ _
@[simp] theorem State.flag_pending (s : State) (x : Fld) : (s.flag x).pending = s.pending := State.setFld_pending s _ _
@[simp] theorem State.flag_out (s : State) (x : Fld) : (s.flag x).out = s.out := State.setFld_out s _ _
@[simp] theorem State.flag_host (s : State) (x : Fld) : (s.flag x).host = s.host := State.setFld_host s _ _
@[simp] theorem State.flag_flt (s : State) (x : Fld) : (s.flag x).flt = s.flt := State.setFld_flt s _ _
@[simp] theorem State.flag_ctxs (s : State) (x : Fld) : (s.flag x).ctxs = s.ctxs := State.setFld_ctxs s _ _
@[simp] theorem State.flag_tiles (s : State) (x : Fld) : (s.flag x).tiles = s.tiles := State.setFld_tiles s _ _
@[simp] theorem State.flag_work (s : State) (x : Fld) : (s.flag x).work = s.work := State.setFld_work s _ _
@[simp] theorem State.flag_ink (s : State) (x : Fld) : (s.flag x).ink = s.ink := State.setFld_ink s _ _
@[simp] theorem State.flag_sync (s : State) (x : Fld) : (s.flag x).sync = s.sync := State.setFld_sync s _ _
@[simp] theorem State.flag_data (s : State) (x : Fld) : (s.flag x).data = s.data := State.setFld_data s _ _
@[simp] theorem State.flag_vocs (s : State) (x : Fld) : (s.flag x).vocs = s.vocs := State.setFld_vocs s _ _
@[simp] theorem State.flag_net (s : State) (x : Fld) : (s.flag x).net = s.net := State.setFld_net s _ _
@[simp] theorem State.flag_clk (s : State) (x : Fld) : (s.flag x).clk = s.clk := State.setFld_clk s _ _
@[simp] theorem State.flag_dice (s : State) (x : Fld) : (s.flag x).dice = s.dice := State.setFld_dice s _ _
@[simp] theorem State.flag_sec (s : State) (x : Fld) : (s.flag x).sec = s.sec := State.setFld_sec s _ _
@[simp] theorem State.flag_media (s : State) (x : Fld) : (s.flag x).media = s.media := State.setFld_media s _ _
@[simp] theorem State.flag_ledger (s : State) (x : Fld) : (s.flag x).ledger = s.ledger := State.setFld_ledger s _ _
@[simp] theorem State.flag_lan (s : State) (x : Fld) : (s.flag x).lan = s.lan := State.setFld_lan s _ _
@[simp] theorem State.flag_mod (s : State) (x : Fld) : (s.flag x).mod = s.mod := State.setFld_mod s _ _
@[simp] theorem State.flag_pwr (s : State) (x : Fld) : (s.flag x).pwr = s.pwr := State.setFld_pwr s _ _
@[simp] theorem State.flag_clock (s : State) (x : Fld) : (s.flag x).clock = s.clock := State.setFld_clock s _ _
@[simp] theorem State.flag_fw (s : State) (x : Fld) : (s.flag x).fw = s.fw := State.setFld_fw s _ _

@[simp] theorem State.unflag_hw (s : State) (x : Fld) : (s.unflag x).hw = s.hw := State.setFld_hw s _ _
@[simp] theorem State.unflag_dtime (s : State) (x : Fld) : (s.unflag x).dtime = s.dtime := State.setFld_dtime s _ _
@[simp] theorem State.unflag_freeCtr (s : State) (x : Fld) : (s.unflag x).freeCtr = s.freeCtr := State.setFld_freeCtr s _ _
@[simp] theorem State.unflag_pending (s : State) (x : Fld) : (s.unflag x).pending = s.pending := State.setFld_pending s _ _
@[simp] theorem State.unflag_out (s : State) (x : Fld) : (s.unflag x).out = s.out := State.setFld_out s _ _
@[simp] theorem State.unflag_host (s : State) (x : Fld) : (s.unflag x).host = s.host := State.setFld_host s _ _
@[simp] theorem State.unflag_flt (s : State) (x : Fld) : (s.unflag x).flt = s.flt := State.setFld_flt s _ _
@[simp] theorem State.unflag_ctxs (s : State) (x : Fld) : (s.unflag x).ctxs = s.ctxs := State.setFld_ctxs s _ _
@[simp] theorem State.unflag_tiles (s : State) (x : Fld) : (s.unflag x).tiles = s.tiles := State.setFld_tiles s _ _
@[simp] theorem State.unflag_work (s : State) (x : Fld) : (s.unflag x).work = s.work := State.setFld_work s _ _
@[simp] theorem State.unflag_ink (s : State) (x : Fld) : (s.unflag x).ink = s.ink := State.setFld_ink s _ _
@[simp] theorem State.unflag_sync (s : State) (x : Fld) : (s.unflag x).sync = s.sync := State.setFld_sync s _ _
@[simp] theorem State.unflag_data (s : State) (x : Fld) : (s.unflag x).data = s.data := State.setFld_data s _ _
@[simp] theorem State.unflag_vocs (s : State) (x : Fld) : (s.unflag x).vocs = s.vocs := State.setFld_vocs s _ _
@[simp] theorem State.unflag_net (s : State) (x : Fld) : (s.unflag x).net = s.net := State.setFld_net s _ _
@[simp] theorem State.unflag_clk (s : State) (x : Fld) : (s.unflag x).clk = s.clk := State.setFld_clk s _ _
@[simp] theorem State.unflag_dice (s : State) (x : Fld) : (s.unflag x).dice = s.dice := State.setFld_dice s _ _
@[simp] theorem State.unflag_sec (s : State) (x : Fld) : (s.unflag x).sec = s.sec := State.setFld_sec s _ _
@[simp] theorem State.unflag_media (s : State) (x : Fld) : (s.unflag x).media = s.media := State.setFld_media s _ _
@[simp] theorem State.unflag_ledger (s : State) (x : Fld) : (s.unflag x).ledger = s.ledger := State.setFld_ledger s _ _
@[simp] theorem State.unflag_lan (s : State) (x : Fld) : (s.unflag x).lan = s.lan := State.setFld_lan s _ _
@[simp] theorem State.unflag_mod (s : State) (x : Fld) : (s.unflag x).mod = s.mod := State.setFld_mod s _ _
@[simp] theorem State.unflag_pwr (s : State) (x : Fld) : (s.unflag x).pwr = s.pwr := State.setFld_pwr s _ _
@[simp] theorem State.unflag_clock (s : State) (x : Fld) : (s.unflag x).clock = s.clock := State.setFld_clock s _ _
@[simp] theorem State.unflag_fw (s : State) (x : Fld) : (s.unflag x).fw = s.fw := State.setFld_fw s _ _

@[simp] theorem State.bump_hw (s : State) (x : Fld) (n : Nat) : (s.bump x n).hw = s.hw := State.setFld_hw s _ _
@[simp] theorem State.bump_dtime (s : State) (x : Fld) (n : Nat) : (s.bump x n).dtime = s.dtime := State.setFld_dtime s _ _
@[simp] theorem State.bump_freeCtr (s : State) (x : Fld) (n : Nat) : (s.bump x n).freeCtr = s.freeCtr := State.setFld_freeCtr s _ _
@[simp] theorem State.bump_pending (s : State) (x : Fld) (n : Nat) : (s.bump x n).pending = s.pending := State.setFld_pending s _ _
@[simp] theorem State.bump_out (s : State) (x : Fld) (n : Nat) : (s.bump x n).out = s.out := State.setFld_out s _ _
@[simp] theorem State.bump_host (s : State) (x : Fld) (n : Nat) : (s.bump x n).host = s.host := State.setFld_host s _ _
@[simp] theorem State.bump_flt (s : State) (x : Fld) (n : Nat) : (s.bump x n).flt = s.flt := State.setFld_flt s _ _
@[simp] theorem State.bump_ctxs (s : State) (x : Fld) (n : Nat) : (s.bump x n).ctxs = s.ctxs := State.setFld_ctxs s _ _
@[simp] theorem State.bump_tiles (s : State) (x : Fld) (n : Nat) : (s.bump x n).tiles = s.tiles := State.setFld_tiles s _ _
@[simp] theorem State.bump_work (s : State) (x : Fld) (n : Nat) : (s.bump x n).work = s.work := State.setFld_work s _ _
@[simp] theorem State.bump_ink (s : State) (x : Fld) (n : Nat) : (s.bump x n).ink = s.ink := State.setFld_ink s _ _
@[simp] theorem State.bump_sync (s : State) (x : Fld) (n : Nat) : (s.bump x n).sync = s.sync := State.setFld_sync s _ _
@[simp] theorem State.bump_data (s : State) (x : Fld) (n : Nat) : (s.bump x n).data = s.data := State.setFld_data s _ _
@[simp] theorem State.bump_vocs (s : State) (x : Fld) (n : Nat) : (s.bump x n).vocs = s.vocs := State.setFld_vocs s _ _
@[simp] theorem State.bump_net (s : State) (x : Fld) (n : Nat) : (s.bump x n).net = s.net := State.setFld_net s _ _
@[simp] theorem State.bump_clk (s : State) (x : Fld) (n : Nat) : (s.bump x n).clk = s.clk := State.setFld_clk s _ _
@[simp] theorem State.bump_dice (s : State) (x : Fld) (n : Nat) : (s.bump x n).dice = s.dice := State.setFld_dice s _ _
@[simp] theorem State.bump_sec (s : State) (x : Fld) (n : Nat) : (s.bump x n).sec = s.sec := State.setFld_sec s _ _
@[simp] theorem State.bump_media (s : State) (x : Fld) (n : Nat) : (s.bump x n).media = s.media := State.setFld_media s _ _
@[simp] theorem State.bump_ledger (s : State) (x : Fld) (n : Nat) : (s.bump x n).ledger = s.ledger := State.setFld_ledger s _ _
@[simp] theorem State.bump_lan (s : State) (x : Fld) (n : Nat) : (s.bump x n).lan = s.lan := State.setFld_lan s _ _
@[simp] theorem State.bump_mod (s : State) (x : Fld) (n : Nat) : (s.bump x n).mod = s.mod := State.setFld_mod s _ _
@[simp] theorem State.bump_pwr (s : State) (x : Fld) (n : Nat) : (s.bump x n).pwr = s.pwr := State.setFld_pwr s _ _
@[simp] theorem State.bump_clock (s : State) (x : Fld) (n : Nat) : (s.bump x n).clock = s.clock := State.setFld_clock s _ _
@[simp] theorem State.bump_fw (s : State) (x : Fld) (n : Nat) : (s.bump x n).fw = s.fw := State.setFld_fw s _ _

@[simp] theorem State.used_hw (s : State)  : (s.used).hw = s.hw := rfl
@[simp] theorem State.used_dtime (s : State)  : (s.used).dtime = s.dtime := rfl
@[simp] theorem State.used_freeCtr (s : State)  : (s.used).freeCtr = s.freeCtr + 1 := rfl
@[simp] theorem State.used_pending (s : State)  : (s.used).pending = s.pending := rfl
@[simp] theorem State.used_out (s : State)  : (s.used).out = s.out := rfl
@[simp] theorem State.used_regs (s : State)  : (s.used).regs = s.regs := rfl
@[simp] theorem State.used_host (s : State)  : (s.used).host = s.host := rfl
@[simp] theorem State.used_flt (s : State)  : (s.used).flt = s.flt := rfl
@[simp] theorem State.used_ctxs (s : State)  : (s.used).ctxs = s.ctxs := rfl
@[simp] theorem State.used_tiles (s : State)  : (s.used).tiles = s.tiles := rfl
@[simp] theorem State.used_work (s : State)  : (s.used).work = s.work := rfl
@[simp] theorem State.used_ink (s : State)  : (s.used).ink = s.ink := rfl
@[simp] theorem State.used_sync (s : State)  : (s.used).sync = s.sync := rfl
@[simp] theorem State.used_data (s : State)  : (s.used).data = s.data := rfl
@[simp] theorem State.used_vocs (s : State)  : (s.used).vocs = s.vocs := rfl
@[simp] theorem State.used_net (s : State)  : (s.used).net = s.net := rfl
@[simp] theorem State.used_clk (s : State)  : (s.used).clk = s.clk := rfl
@[simp] theorem State.used_dice (s : State)  : (s.used).dice = s.dice := rfl
@[simp] theorem State.used_sec (s : State)  : (s.used).sec = s.sec := rfl
@[simp] theorem State.used_media (s : State)  : (s.used).media = s.media := rfl
@[simp] theorem State.used_ledger (s : State)  : (s.used).ledger = s.ledger := rfl
@[simp] theorem State.used_lan (s : State)  : (s.used).lan = s.lan := rfl
@[simp] theorem State.used_mod (s : State)  : (s.used).mod = s.mod := rfl
@[simp] theorem State.used_pwr (s : State)  : (s.used).pwr = s.pwr := rfl
@[simp] theorem State.used_clock (s : State)  : (s.used).clock = s.clock := rfl
@[simp] theorem State.used_fw (s : State)  : (s.used).fw = s.fw := rfl

@[simp] theorem State.emit_hw (s : State) (o : Out) : (s.emit o).hw = s.hw := rfl
@[simp] theorem State.emit_dtime (s : State) (o : Out) : (s.emit o).dtime = s.dtime := rfl
@[simp] theorem State.emit_freeCtr (s : State) (o : Out) : (s.emit o).freeCtr = s.freeCtr := rfl
@[simp] theorem State.emit_pending (s : State) (o : Out) : (s.emit o).pending = s.pending := rfl
@[simp] theorem State.emit_out (s : State) (o : Out) : (s.emit o).out = s.out ++ [o] := rfl
@[simp] theorem State.emit_regs (s : State) (o : Out) : (s.emit o).regs = s.regs := rfl
@[simp] theorem State.emit_host (s : State) (o : Out) : (s.emit o).host = s.host := rfl
@[simp] theorem State.emit_flt (s : State) (o : Out) : (s.emit o).flt = s.flt := rfl
@[simp] theorem State.emit_ctxs (s : State) (o : Out) : (s.emit o).ctxs = s.ctxs := rfl
@[simp] theorem State.emit_tiles (s : State) (o : Out) : (s.emit o).tiles = s.tiles := rfl
@[simp] theorem State.emit_work (s : State) (o : Out) : (s.emit o).work = s.work := rfl
@[simp] theorem State.emit_ink (s : State) (o : Out) : (s.emit o).ink = s.ink := rfl
@[simp] theorem State.emit_sync (s : State) (o : Out) : (s.emit o).sync = s.sync := rfl
@[simp] theorem State.emit_data (s : State) (o : Out) : (s.emit o).data = s.data := rfl
@[simp] theorem State.emit_vocs (s : State) (o : Out) : (s.emit o).vocs = s.vocs := rfl
@[simp] theorem State.emit_net (s : State) (o : Out) : (s.emit o).net = s.net := rfl
@[simp] theorem State.emit_clk (s : State) (o : Out) : (s.emit o).clk = s.clk := rfl
@[simp] theorem State.emit_dice (s : State) (o : Out) : (s.emit o).dice = s.dice := rfl
@[simp] theorem State.emit_sec (s : State) (o : Out) : (s.emit o).sec = s.sec := rfl
@[simp] theorem State.emit_media (s : State) (o : Out) : (s.emit o).media = s.media := rfl
@[simp] theorem State.emit_ledger (s : State) (o : Out) : (s.emit o).ledger = s.ledger := rfl
@[simp] theorem State.emit_lan (s : State) (o : Out) : (s.emit o).lan = s.lan := rfl
@[simp] theorem State.emit_mod (s : State) (o : Out) : (s.emit o).mod = s.mod := rfl
@[simp] theorem State.emit_pwr (s : State) (o : Out) : (s.emit o).pwr = s.pwr := rfl
@[simp] theorem State.emit_clock (s : State) (o : Out) : (s.emit o).clock = s.clock := rfl
@[simp] theorem State.emit_fw (s : State) (o : Out) : (s.emit o).fw = s.fw := rfl

@[simp] theorem State.setData_hw (s : State) (c : Nat) (d : CtxData) : (s.setData c d).hw = s.hw := State.with_data_hw s _
@[simp] theorem State.setData_dtime (s : State) (c : Nat) (d : CtxData) : (s.setData c d).dtime = s.dtime := State.with_data_dtime s _
@[simp] theorem State.setData_freeCtr (s : State) (c : Nat) (d : CtxData) : (s.setData c d).freeCtr = s.freeCtr := State.with_data_freeCtr s _
@[simp] theorem State.setData_pending (s : State) (c : Nat) (d : CtxData) : (s.setData c d).pending = s.pending := State.with_data_pending s _
@[simp] theorem State.setData_out (s : State) (c : Nat) (d : CtxData) : (s.setData c d).out = s.out := State.with_data_out s _
@[simp] theorem State.setData_regs (s : State) (c : Nat) (d : CtxData) : (s.setData c d).regs = s.regs := State.with_data_regs s _
@[simp] theorem State.setData_host (s : State) (c : Nat) (d : CtxData) : (s.setData c d).host = s.host := State.with_data_host s _
@[simp] theorem State.setData_flt (s : State) (c : Nat) (d : CtxData) : (s.setData c d).flt = s.flt := State.with_data_flt s _
@[simp] theorem State.setData_ctxs (s : State) (c : Nat) (d : CtxData) : (s.setData c d).ctxs = s.ctxs := State.with_data_ctxs s _
@[simp] theorem State.setData_tiles (s : State) (c : Nat) (d : CtxData) : (s.setData c d).tiles = s.tiles := State.with_data_tiles s _
@[simp] theorem State.setData_work (s : State) (c : Nat) (d : CtxData) : (s.setData c d).work = s.work := State.with_data_work s _
@[simp] theorem State.setData_ink (s : State) (c : Nat) (d : CtxData) : (s.setData c d).ink = s.ink := State.with_data_ink s _
@[simp] theorem State.setData_sync (s : State) (c : Nat) (d : CtxData) : (s.setData c d).sync = s.sync := State.with_data_sync s _
@[simp] theorem State.setData_data (s : State) (c : Nat) (d : CtxData) : (s.setData c d).data = Map.put s.data c d := rfl
@[simp] theorem State.setData_vocs (s : State) (c : Nat) (d : CtxData) : (s.setData c d).vocs = s.vocs := State.with_data_vocs s _
@[simp] theorem State.setData_net (s : State) (c : Nat) (d : CtxData) : (s.setData c d).net = s.net := State.with_data_net s _
@[simp] theorem State.setData_clk (s : State) (c : Nat) (d : CtxData) : (s.setData c d).clk = s.clk := State.with_data_clk s _
@[simp] theorem State.setData_dice (s : State) (c : Nat) (d : CtxData) : (s.setData c d).dice = s.dice := State.with_data_dice s _
@[simp] theorem State.setData_sec (s : State) (c : Nat) (d : CtxData) : (s.setData c d).sec = s.sec := State.with_data_sec s _
@[simp] theorem State.setData_media (s : State) (c : Nat) (d : CtxData) : (s.setData c d).media = s.media := State.with_data_media s _
@[simp] theorem State.setData_ledger (s : State) (c : Nat) (d : CtxData) : (s.setData c d).ledger = s.ledger := State.with_data_ledger s _
@[simp] theorem State.setData_lan (s : State) (c : Nat) (d : CtxData) : (s.setData c d).lan = s.lan := State.with_data_lan s _
@[simp] theorem State.setData_mod (s : State) (c : Nat) (d : CtxData) : (s.setData c d).mod = s.mod := State.with_data_mod s _
@[simp] theorem State.setData_pwr (s : State) (c : Nat) (d : CtxData) : (s.setData c d).pwr = s.pwr := State.with_data_pwr s _
@[simp] theorem State.setData_clock (s : State) (c : Nat) (d : CtxData) : (s.setData c d).clock = s.clock := State.with_data_clock s _
@[simp] theorem State.setData_fw (s : State) (c : Nat) (d : CtxData) : (s.setData c d).fw = s.fw := State.with_data_fw s _

@[simp] theorem State.mapRun_hw (s : State) (c : Nat) (g : RunRec → RunRec) : (s.mapRun c g).hw = s.hw := State.setData_hw s _ _
@[simp] theorem State.mapRun_dtime (s : State) (c : Nat) (g : RunRec → RunRec) : (s.mapRun c g).dtime = s.dtime := State.setData_dtime s _ _
@[simp] theorem State.mapRun_freeCtr (s : State) (c : Nat) (g : RunRec → RunRec) : (s.mapRun c g).freeCtr = s.freeCtr := State.setData_freeCtr s _ _
@[simp] theorem State.mapRun_pending (s : State) (c : Nat) (g : RunRec → RunRec) : (s.mapRun c g).pending = s.pending := State.setData_pending s _ _
@[simp] theorem State.mapRun_out (s : State) (c : Nat) (g : RunRec → RunRec) : (s.mapRun c g).out = s.out := State.setData_out s _ _
@[simp] theorem State.mapRun_regs (s : State) (c : Nat) (g : RunRec → RunRec) : (s.mapRun c g).regs = s.regs := State.setData_regs s _ _
@[simp] theorem State.mapRun_host (s : State) (c : Nat) (g : RunRec → RunRec) : (s.mapRun c g).host = s.host := State.setData_host s _ _
@[simp] theorem State.mapRun_flt (s : State) (c : Nat) (g : RunRec → RunRec) : (s.mapRun c g).flt = s.flt := State.setData_flt s _ _
@[simp] theorem State.mapRun_ctxs (s : State) (c : Nat) (g : RunRec → RunRec) : (s.mapRun c g).ctxs = s.ctxs := State.setData_ctxs s _ _
@[simp] theorem State.mapRun_tiles (s : State) (c : Nat) (g : RunRec → RunRec) : (s.mapRun c g).tiles = s.tiles := State.setData_tiles s _ _
@[simp] theorem State.mapRun_work (s : State) (c : Nat) (g : RunRec → RunRec) : (s.mapRun c g).work = s.work := State.setData_work s _ _
@[simp] theorem State.mapRun_ink (s : State) (c : Nat) (g : RunRec → RunRec) : (s.mapRun c g).ink = s.ink := State.setData_ink s _ _
@[simp] theorem State.mapRun_sync (s : State) (c : Nat) (g : RunRec → RunRec) : (s.mapRun c g).sync = s.sync := State.setData_sync s _ _
@[simp] theorem State.mapRun_vocs (s : State) (c : Nat) (g : RunRec → RunRec) : (s.mapRun c g).vocs = s.vocs := State.setData_vocs s _ _
@[simp] theorem State.mapRun_net (s : State) (c : Nat) (g : RunRec → RunRec) : (s.mapRun c g).net = s.net := State.setData_net s _ _
@[simp] theorem State.mapRun_clk (s : State) (c : Nat) (g : RunRec → RunRec) : (s.mapRun c g).clk = s.clk := State.setData_clk s _ _
@[simp] theorem State.mapRun_dice (s : State) (c : Nat) (g : RunRec → RunRec) : (s.mapRun c g).dice = s.dice := State.setData_dice s _ _
@[simp] theorem State.mapRun_sec (s : State) (c : Nat) (g : RunRec → RunRec) : (s.mapRun c g).sec = s.sec := State.setData_sec s _ _
@[simp] theorem State.mapRun_media (s : State) (c : Nat) (g : RunRec → RunRec) : (s.mapRun c g).media = s.media := State.setData_media s _ _
@[simp] theorem State.mapRun_ledger (s : State) (c : Nat) (g : RunRec → RunRec) : (s.mapRun c g).ledger = s.ledger := State.setData_ledger s _ _
@[simp] theorem State.mapRun_lan (s : State) (c : Nat) (g : RunRec → RunRec) : (s.mapRun c g).lan = s.lan := State.setData_lan s _ _
@[simp] theorem State.mapRun_mod (s : State) (c : Nat) (g : RunRec → RunRec) : (s.mapRun c g).mod = s.mod := State.setData_mod s _ _
@[simp] theorem State.mapRun_pwr (s : State) (c : Nat) (g : RunRec → RunRec) : (s.mapRun c g).pwr = s.pwr := State.setData_pwr s _ _
@[simp] theorem State.mapRun_clock (s : State) (c : Nat) (g : RunRec → RunRec) : (s.mapRun c g).clock = s.clock := State.setData_clock s _ _
@[simp] theorem State.mapRun_fw (s : State) (c : Nat) (g : RunRec → RunRec) : (s.mapRun c g).fw = s.fw := State.setData_fw s _ _

@[simp] theorem State.raise_hw (s : State) (src : Nat) (st : Status) (unit ctx : Nat) (cls : FClass) : (s.raise src st unit ctx cls).hw = s.hw := State.with_flt_hw s _
@[simp] theorem State.raise_dtime (s : State) (src : Nat) (st : Status) (unit ctx : Nat) (cls : FClass) : (s.raise src st unit ctx cls).dtime = s.dtime := State.with_flt_dtime s _
@[simp] theorem State.raise_freeCtr (s : State) (src : Nat) (st : Status) (unit ctx : Nat) (cls : FClass) : (s.raise src st unit ctx cls).freeCtr = s.freeCtr := State.with_flt_freeCtr s _
@[simp] theorem State.raise_pending (s : State) (src : Nat) (st : Status) (unit ctx : Nat) (cls : FClass) : (s.raise src st unit ctx cls).pending = s.pending := State.with_flt_pending s _
@[simp] theorem State.raise_out (s : State) (src : Nat) (st : Status) (unit ctx : Nat) (cls : FClass) : (s.raise src st unit ctx cls).out = s.out := State.with_flt_out s _
@[simp] theorem State.raise_regs (s : State) (src : Nat) (st : Status) (unit ctx : Nat) (cls : FClass) : (s.raise src st unit ctx cls).regs = s.regs := State.with_flt_regs s _
@[simp] theorem State.raise_host (s : State) (src : Nat) (st : Status) (unit ctx : Nat) (cls : FClass) : (s.raise src st unit ctx cls).host = s.host := State.with_flt_host s _
@[simp] theorem State.raise_ctxs (s : State) (src : Nat) (st : Status) (unit ctx : Nat) (cls : FClass) : (s.raise src st unit ctx cls).ctxs = s.ctxs := State.with_flt_ctxs s _
@[simp] theorem State.raise_tiles (s : State) (src : Nat) (st : Status) (unit ctx : Nat) (cls : FClass) : (s.raise src st unit ctx cls).tiles = s.tiles := State.with_flt_tiles s _
@[simp] theorem State.raise_work (s : State) (src : Nat) (st : Status) (unit ctx : Nat) (cls : FClass) : (s.raise src st unit ctx cls).work = s.work := State.with_flt_work s _
@[simp] theorem State.raise_ink (s : State) (src : Nat) (st : Status) (unit ctx : Nat) (cls : FClass) : (s.raise src st unit ctx cls).ink = s.ink := State.with_flt_ink s _
@[simp] theorem State.raise_sync (s : State) (src : Nat) (st : Status) (unit ctx : Nat) (cls : FClass) : (s.raise src st unit ctx cls).sync = s.sync := State.with_flt_sync s _
@[simp] theorem State.raise_data (s : State) (src : Nat) (st : Status) (unit ctx : Nat) (cls : FClass) : (s.raise src st unit ctx cls).data = s.data := State.with_flt_data s _
@[simp] theorem State.raise_vocs (s : State) (src : Nat) (st : Status) (unit ctx : Nat) (cls : FClass) : (s.raise src st unit ctx cls).vocs = s.vocs := State.with_flt_vocs s _
@[simp] theorem State.raise_net (s : State) (src : Nat) (st : Status) (unit ctx : Nat) (cls : FClass) : (s.raise src st unit ctx cls).net = s.net := State.with_flt_net s _
@[simp] theorem State.raise_clk (s : State) (src : Nat) (st : Status) (unit ctx : Nat) (cls : FClass) : (s.raise src st unit ctx cls).clk = s.clk := State.with_flt_clk s _
@[simp] theorem State.raise_dice (s : State) (src : Nat) (st : Status) (unit ctx : Nat) (cls : FClass) : (s.raise src st unit ctx cls).dice = s.dice := State.with_flt_dice s _
@[simp] theorem State.raise_sec (s : State) (src : Nat) (st : Status) (unit ctx : Nat) (cls : FClass) : (s.raise src st unit ctx cls).sec = s.sec := State.with_flt_sec s _
@[simp] theorem State.raise_media (s : State) (src : Nat) (st : Status) (unit ctx : Nat) (cls : FClass) : (s.raise src st unit ctx cls).media = s.media := State.with_flt_media s _
@[simp] theorem State.raise_ledger (s : State) (src : Nat) (st : Status) (unit ctx : Nat) (cls : FClass) : (s.raise src st unit ctx cls).ledger = s.ledger := State.with_flt_ledger s _
@[simp] theorem State.raise_lan (s : State) (src : Nat) (st : Status) (unit ctx : Nat) (cls : FClass) : (s.raise src st unit ctx cls).lan = s.lan := State.with_flt_lan s _
@[simp] theorem State.raise_mod (s : State) (src : Nat) (st : Status) (unit ctx : Nat) (cls : FClass) : (s.raise src st unit ctx cls).mod = s.mod := State.with_flt_mod s _
@[simp] theorem State.raise_pwr (s : State) (src : Nat) (st : Status) (unit ctx : Nat) (cls : FClass) : (s.raise src st unit ctx cls).pwr = s.pwr := State.with_flt_pwr s _
@[simp] theorem State.raise_clock (s : State) (src : Nat) (st : Status) (unit ctx : Nat) (cls : FClass) : (s.raise src st unit ctx cls).clock = s.clock := State.with_flt_clock s _
@[simp] theorem State.raise_fw (s : State) (src : Nat) (st : Status) (unit ctx : Nat) (cls : FClass) : (s.raise src st unit ctx cls).fw = s.fw := State.with_flt_fw s _

@[simp] theorem State.commit_hw (s t : State) : (s.commit t).hw = s.hw := rfl
@[simp] theorem State.commit_dtime (s t : State) : (s.commit t).dtime = t.dtime := rfl
@[simp] theorem State.commit_freeCtr (s t : State) : (s.commit t).freeCtr = t.freeCtr := rfl
@[simp] theorem State.commit_pending (s t : State) : (s.commit t).pending = s.pending := rfl
@[simp] theorem State.commit_out (s t : State) : (s.commit t).out = t.out := rfl
@[simp] theorem State.commit_regs (s t : State) : (s.commit t).regs = t.regs := rfl
@[simp] theorem State.commit_host (s t : State) : (s.commit t).host = t.host := rfl
@[simp] theorem State.commit_flt (s t : State) : (s.commit t).flt = t.flt := rfl
@[simp] theorem State.commit_ctxs (s t : State) : (s.commit t).ctxs = t.ctxs := rfl
@[simp] theorem State.commit_tiles (s t : State) : (s.commit t).tiles = t.tiles := rfl
@[simp] theorem State.commit_work (s t : State) : (s.commit t).work = t.work := rfl
@[simp] theorem State.commit_ink (s t : State) : (s.commit t).ink = t.ink := rfl
@[simp] theorem State.commit_sync (s t : State) : (s.commit t).sync = t.sync := rfl
@[simp] theorem State.commit_data (s t : State) : (s.commit t).data = t.data := rfl
@[simp] theorem State.commit_vocs (s t : State) : (s.commit t).vocs = t.vocs := rfl
@[simp] theorem State.commit_net (s t : State) : (s.commit t).net = t.net := rfl
@[simp] theorem State.commit_clk (s t : State) : (s.commit t).clk = t.clk := rfl
@[simp] theorem State.commit_dice (s t : State) : (s.commit t).dice = t.dice := rfl
@[simp] theorem State.commit_sec (s t : State) : (s.commit t).sec = t.sec := rfl
@[simp] theorem State.commit_media (s t : State) : (s.commit t).media = t.media := rfl
@[simp] theorem State.commit_ledger (s t : State) : (s.commit t).ledger = t.ledger := rfl
@[simp] theorem State.commit_lan (s t : State) : (s.commit t).lan = t.lan := rfl
@[simp] theorem State.commit_mod (s t : State) : (s.commit t).mod = t.mod := rfl
@[simp] theorem State.commit_pwr (s t : State) : (s.commit t).pwr = t.pwr := rfl
@[simp] theorem State.commit_clock (s t : State) : (s.commit t).clock = t.clock := rfl
@[simp] theorem State.commit_fw (s t : State) : (s.commit t).fw = t.fw := rfl

end Sys2Proof.Machine
end

