-- ==== Sys2Proof/Laws/Regs.lean ====
section
/-!
SUPPORT. Registers and their fields: what a write leaves in the field, in the other fields, in the other registers, and
the canonical form of the map.
-/
namespace Sys2Proof.Machine

/-! ## Bit fields of a number -/

theorem bitsOf_lt (x lo w : Nat) : bitsOf x lo w < 2 ^ w := Nat.mod_lt _ (by positivity)

/-- A number splits at a field: below it, the field, above it. -/
theorem bits_split (x lo w : Nat) :
    x = x % 2 ^ lo + 2 ^ lo * (bitsOf x lo w + 2 ^ w * (x / 2 ^ (lo + w))) := by
  unfold bitsOf
  rw [pow_add, ← Nat.div_div_eq_div_mul, Nat.mod_add_div, Nat.mod_add_div]

theorem putBits_eq (x lo w v : Nat) :
    putBits x lo w v = x % 2 ^ lo + 2 ^ lo * (v % 2 ^ w + 2 ^ w * (x / 2 ^ (lo + w))) := by
  have h := bits_split x lo w
  unfold putBits
  have e1 : bitsOf x lo w * 2 ^ lo = 2 ^ lo * bitsOf x lo w := Nat.mul_comm _ _
  have e2 : v % 2 ^ w * 2 ^ lo = 2 ^ lo * (v % 2 ^ w) := Nat.mul_comm _ _
  rw [Nat.mul_add] at h ⊢
  omega

theorem bitsOf_putBits_same (x lo w v : Nat) : bitsOf (putBits x lo w v) lo w = v % 2 ^ w := by
  have hp : 0 < 2 ^ lo := by positivity
  rw [putBits_eq, bitsOf, Nat.add_mul_div_left _ _ hp, Nat.div_eq_of_lt (Nat.mod_lt _ hp), Nat.zero_add,
    Nat.add_mul_mod_self_left, Nat.mod_mod]

theorem bitsOf_putBits_below (x lo w v lo' w' : Nat) (h : lo' + w' ≤ lo) :
    bitsOf (putBits x lo w v) lo' w' = bitsOf x lo' w' := by
  have key : ∀ y : Nat, bitsOf y lo' w' = bitsOf (y % 2 ^ lo) lo' w' := by
    intro y
    obtain ⟨d, rfl⟩ := Nat.exists_eq_add_of_le h
    unfold bitsOf
    rw [show lo' + w' + d = lo' + (w' + d) by omega, pow_add, Nat.mod_mul_right_div_self, pow_add,
      Nat.mod_mul_right_mod]
  rw [key, key x, putBits_eq, Nat.add_mul_mod_self_left, Nat.mod_mod]

theorem bitsOf_putBits_above (x lo w v lo' w' : Nat) (h : lo + w ≤ lo') :
    bitsOf (putBits x lo w v) lo' w' = bitsOf x lo' w' := by
  have hp : 0 < 2 ^ lo := by positivity
  have hw : 0 < 2 ^ w := by positivity
  have key : putBits x lo w v / 2 ^ (lo + w) = x / 2 ^ (lo + w) := by
    rw [putBits_eq, pow_add, ← Nat.div_div_eq_div_mul, Nat.add_mul_div_left _ _ hp,
      Nat.div_eq_of_lt (Nat.mod_lt _ hp), Nat.zero_add, Nat.add_mul_div_left _ _ hw,
      Nat.div_eq_of_lt (Nat.mod_lt _ hw), Nat.zero_add]
  obtain ⟨d, rfl⟩ := Nat.exists_eq_add_of_le h
  unfold bitsOf
  rw [pow_add 2 (lo + w) d, ← Nat.div_div_eq_div_mul, ← Nat.div_div_eq_div_mul, key]

theorem putBits_lt {x lo w v n : Nat} (hx : x < 2 ^ n) (h : lo + w ≤ n) : putBits x lo w v < 2 ^ n := by
  obtain ⟨d, rfl⟩ := Nat.exists_eq_add_of_le h
  have h1 : x / 2 ^ (lo + w) < 2 ^ d := by
    rw [Nat.div_lt_iff_lt_mul (by positivity), ← pow_add, Nat.add_comm d]; exact hx
  have h2 : x % 2 ^ lo < 2 ^ lo := Nat.mod_lt _ (by positivity)
  have h3 : v % 2 ^ w < 2 ^ w := Nat.mod_lt _ (by positivity)
  rw [putBits_eq]
  calc x % 2 ^ lo + 2 ^ lo * (v % 2 ^ w + 2 ^ w * (x / 2 ^ (lo + w)))
      < 2 ^ lo + 2 ^ lo * (v % 2 ^ w + 2 ^ w * (x / 2 ^ (lo + w))) := by omega
    _ = 2 ^ lo * (v % 2 ^ w + 1 + 2 ^ w * (x / 2 ^ (lo + w))) := by ring
    _ ≤ 2 ^ lo * (2 ^ w + 2 ^ w * (x / 2 ^ (lo + w))) := by gcongr; omega
    _ = 2 ^ lo * (2 ^ w * (x / 2 ^ (lo + w) + 1)) := by ring
    _ ≤ 2 ^ lo * (2 ^ w * 2 ^ d) := by gcongr; omega
    _ = 2 ^ (lo + w + d) := by rw [pow_add, pow_add]; ring

/-! ## Registers -/

theorem State.reg_lt (s : State) (a : Nat) : s.reg a < 2 ^ 64 := BitVec.isLt _

theorem State.reg_putReg (s : State) (a b v : Nat) :
    (s.putReg a v).reg b = if a = b then v % 2 ^ 64 else s.reg b := by
  unfold State.reg
  rw [State.putReg_hw]
  have := Map.getD_setD (fun x => regReset s.hw x) s.regs a b (BitVec.ofNat 64 v)
  unfold State.putReg
  rw [this]
  split
  · exact BitVec.toNat_ofNat v 64
  · rfl

@[simp] theorem State.reg_putReg_same (s : State) (a v : Nat) : (s.putReg a v).reg a = v % 2 ^ 64 := by
  rw [State.reg_putReg, if_pos rfl]

theorem State.reg_putReg_other (s : State) {a b : Nat} (v : Nat) (h : b ≠ a) : (s.putReg a v).reg b = s.reg b := by
  rw [State.reg_putReg, if_neg (Ne.symm h)]

/-- Every register write keeps the map's canonical form. -/
theorem State.regs_canonical_putReg {s : State} (a v : Nat)
    (h : Map.canonical (fun x => regReset s.hw x) s.regs = true) :
    Map.canonical (fun x => regReset s.hw x) (s.putReg a v).regs = true :=
  Map.canonical_setD (fun x => regReset s.hw x) a (BitVec.ofNat 64 v) h

theorem State.reg_setFld_other (s : State) (f : Fld) (v : Nat) {b : Nat} (h : b ≠ f.addr) :
    (s.setFld f v).reg b = s.reg b := State.reg_putReg_other s _ h

/-! ## Fields -/

theorem State.fld_lt (s : State) (f : Fld) : s.fld f < 2 ^ f.width := bitsOf_lt _ _ _

theorem State.reg_setFld_same (s : State) (f : Fld) (v : Nat) (h : f.lo + f.width ≤ 64) :
    (s.setFld f v).reg f.addr = putBits (s.reg f.addr) f.lo f.width v := by
  unfold State.setFld
  rw [State.reg_putReg_same, Nat.mod_eq_of_lt (putBits_lt (s.reg_lt _) h)]

theorem State.fld_setFld_same (s : State) (f : Fld) (v : Nat) (h : f.lo + f.width ≤ 64) :
    (s.setFld f v).fld f = v % 2 ^ f.width := by
  unfold State.fld
  rw [State.reg_setFld_same _ _ _ h, bitsOf_putBits_same]

theorem State.fld_setFld_addr (s : State) (f g : Fld) (v : Nat) (h : g.addr ≠ f.addr) :
    (s.setFld f v).fld g = s.fld g := by
  unfold State.fld; rw [State.reg_setFld_other _ _ _ h]

theorem State.fld_setFld_other (s : State) (f g : Fld) (v : Nat) (hf : f.lo + f.width ≤ 64)
    (h : g.addr ≠ f.addr ∨ g.lo + g.width ≤ f.lo ∨ f.lo + f.width ≤ g.lo) : (s.setFld f v).fld g = s.fld g := by
  by_cases ha : g.addr = f.addr
  · unfold State.fld
    rw [ha, State.reg_setFld_same _ _ _ hf]
    rcases h with h | h | h
    · exact absurd ha h
    · exact bitsOf_putBits_below _ _ _ _ _ _ h
    · exact bitsOf_putBits_above _ _ _ _ _ _ h
  · exact State.fld_setFld_addr _ _ _ _ ha

/-- A state with the same fuses and registers shows the same registers. -/
theorem State.reg_congr {s t : State} (h1 : t.hw = s.hw) (h2 : t.regs = s.regs) (a : Nat) : t.reg a = s.reg a := by
  unfold State.reg; rw [h1, h2]

theorem State.fld_congr {s t : State} (h1 : t.hw = s.hw) (h2 : t.regs = s.regs) (f : Fld) : t.fld f = s.fld f := by
  unfold State.fld; rw [State.reg_congr h1 h2]

@[simp] theorem State.reg_used (s : State) (a : Nat) : s.used.reg a = s.reg a := State.reg_congr rfl rfl a
@[simp] theorem State.reg_emit (s : State) (o : Out) (a : Nat) : (s.emit o).reg a = s.reg a := State.reg_congr rfl rfl a
@[simp] theorem State.reg_setData (s : State) (c : Nat) (d : CtxData) (a : Nat) : (s.setData c d).reg a = s.reg a :=
  State.reg_congr (State.setData_hw ..) (State.setData_regs ..) a
@[simp] theorem State.reg_mapRun (s : State) (c : Nat) (g : RunRec → RunRec) (a : Nat) :
    (s.mapRun c g).reg a = s.reg a := State.reg_congr (State.mapRun_hw ..) (State.mapRun_regs ..) a
@[simp] theorem State.reg_raise (s : State) (src : Nat) (st : Status) (unit ctx : Nat) (cls : FClass) (a : Nat) :
    (s.raise src st unit ctx cls).reg a = s.reg a := State.reg_congr (State.raise_hw ..) (State.raise_regs ..) a

@[simp] theorem State.fld_used (s : State) (f : Fld) : s.used.fld f = s.fld f := State.fld_congr rfl rfl f
@[simp] theorem State.fld_emit (s : State) (o : Out) (f : Fld) : (s.emit o).fld f = s.fld f := State.fld_congr rfl rfl f
@[simp] theorem State.fld_setData (s : State) (c : Nat) (d : CtxData) (f : Fld) : (s.setData c d).fld f = s.fld f :=
  State.fld_congr (State.setData_hw ..) (State.setData_regs ..) f
@[simp] theorem State.fld_mapRun (s : State) (c : Nat) (g : RunRec → RunRec) (f : Fld) :
    (s.mapRun c g).fld f = s.fld f := State.fld_congr (State.mapRun_hw ..) (State.mapRun_regs ..) f
@[simp] theorem State.fld_raise (s : State) (src : Nat) (st : Status) (unit ctx : Nat) (cls : FClass) (f : Fld) :
    (s.raise src st unit ctx cls).fld f = s.fld f := State.fld_congr (State.raise_hw ..) (State.raise_regs ..) f

/-- What a command leaves shows the registers of its effect (an effect never changes the fuses). -/
theorem State.reg_commit {s t : State} (h : t.hw = s.hw) (a : Nat) : (s.commit t).reg a = t.reg a :=
  State.reg_congr (s := t) (t := s.commit t) h.symm rfl a

theorem State.fld_commit {s t : State} (h : t.hw = s.hw) (f : Fld) : (s.commit t).fld f = t.fld f :=
  State.fld_congr (s := t) (t := s.commit t) h.symm rfl f

end Sys2Proof.Machine
end

