-- ==== Sys2Proof/WellFormed.lean ====
section
/-!
DEFINITION. Well-formed commands: operands whose widths the spec fixes and their types do not. Each check names the table
it follows. A command outside them has a meaning too (exec is total); no such command reaches the part.
-/
namespace Sys2Proof

open Sys2Proof.Machine

/-- Fields of a Lantern control message fit Table 18.1, and its body has at most 768 bytes. -/
def lanMsgWf (m : LanMsg) : Bool :=
  m.kind < 2 ^ 8 && m.ctx < 2 ^ 8 && m.sender < 2 ^ 16 && m.nonce < 2 ^ 32 && m.view < 2 ^ 32 && m.seq < 2 ^ 64
    && m.arg0 < 2 ^ 64 && m.arg1 < 2 ^ 64 && m.arg2 < 2 ^ 64 && m.body.length ≤ 768

/-- Levels of a firmware image fit Table 21.3, and its digest is a SHA-384. -/
def fwImageWf (i : FwImage) : Bool :=
  i.version < 2 ^ 32 && i.content < 2 ^ 16 && i.compat < 2 ^ 16 && i.sv < 2 ^ 8 && i.settings < 2 ^ 16
    && i.wireMin < 2 ^ 16 && i.wireMax < 2 ^ 16 && i.targetLen < 2 ^ 32 && i.digest.length == 48

/-- What a debug token binds (R380): a u64 serial number, a 48-byte nonce; the two signatures have their fixed lengths. -/
def tokenWf (t : DebugToken) : Bool :=
  t.level < 2 ^ 8 && t.serial < 2 ^ 64 && t.nonce.length == 48 && t.notAfter < 2 ^ 64 && t.sigEcdsa.length == 96
    && t.sigMldsa.length == 4627

/-- Numbers of an RDMA packet: 24-bit QPN and PSN, a RETH of 64, 32 and 32 bits (Table 10.3). -/
def pktWf : Pkt → Bool
  | .write qpn psn _ _ reth imm _ => qpn < 2 ^ 24 && psn < 2 ^ 24
      && (match reth with | some (a, k, l) => decide (a < 2 ^ 64) && decide (k < 2 ^ 32) && decide (l < 2 ^ 32) | none => true)
      && (match imm with | some i => decide (i < 2 ^ 32) | none => true)
  | .readReq qpn psn addr key len => qpn < 2 ^ 24 && psn < 2 ^ 24 && addr < 2 ^ 64 && key < 2 ^ 32 && len < 2 ^ 32
  | .readResp qpn psn _ _ => qpn < 2 ^ 24 && psn < 2 ^ 24
  | .ack qpn psn _ => qpn < 2 ^ 24 && psn < 2 ^ 24
  | .lantern dest m => dest < 2 ^ 16 && lanMsgWf m
  | .journal dest slot _ => dest < 2 ^ 16 && slot < 2
  | .ptp _ => true
  | .pfc _ => true
  | .management _ => true

/-- A frame carries a packet of well-formed numbers. -/
def rxBodyWf : RxBody → Bool
  | .rdma _ p => pktWf p
  | .unsupported _ qpn psn => qpn < 2 ^ 24 && psn < 2 ^ 24
  | _ => true

/-- Accesses are of 1 to 64 bytes (PCIe sends no other size to a BAR). -/
def accessWf (a : Access1) : Bool := 1 ≤ a.size && a.size ≤ 64

/-- A command as the part can meet it. -/
def Instr.wf : Instr → Bool
  | .registerWrite a _ => accessWf a
  | .rcRegisterRead a => accessWf a
  | .rwtRegisterWrite a _ => accessWf a
  | .debugUnlock _ t => tokenWf t
  | .governorSample _ _ est _ _ _ => est.length ≤ 96
  | .frameReceive _ _ _ _ body => rxBodyWf body
  | .mixDistReceive m => lanMsgWf m
  | .mixAckReceive m => lanMsgWf m
  | .mixOutcomeReceive m => lanMsgWf m
  | .heartbeatReceive m => lanMsgWf m
  | .deviceLostReceive m => lanMsgWf m
  | .lossReportReceive m => lanMsgWf m
  | .viewProposeReceive m => lanMsgWf m
  | .viewAckReceive m => lanMsgWf m
  | .viewCommitReceive m => lanMsgWf m
  | .legAbortReceive m => lanMsgWf m
  | .abortDoneReceive m => lanMsgWf m
  | .stepReportReceive m => lanMsgWf m
  | .stepCommitReceive m => lanMsgWf m
  | .restartReceive m _ => lanMsgWf m
  | .sealMessageReceive m => lanMsgWf m
  | .controlAckReceive m => lanMsgWf m
  | .journalCopyReceive m _ => lanMsgWf m
  | .journalAckReceive m => lanMsgWf m
  | .bootStage f => f.bank0.all fwImageWf && f.bank1.all fwImageWf
  | _ => true

end Sys2Proof
end

