-- ==== Sys2Proof/Tests/Slice0.lean ====
section
/-!
SUPPORT. Tests: the spec's worked examples, the smoke test of WellFormed, and, for every statement with hypotheses, a state
and operands that meet them clause by clause (`met_<statement>`).
-/
namespace Sys2Proof.Tests

set_option Elab.async false

open Sys2Proof Sys2Proof.Machine

/-! ## Small states -/

/-- Register values listed over a map; the first of two values for one address stands. -/
def listed (m : Map (BitVec 64)) (l : List (Nat × Nat)) : Map (BitVec 64) :=
  l.foldr (fun e m => Map.put m e.1 (BitVec.ofNat 64 e.2)) m

/-- A part in service (FLT_STATUS.READY, boot done) at DTIME 10^13, with registers as listed. -/
def up (l : List (Nat × Nat)) : State :=
  { State.reset with
    dtime := 10 ^ 13
    mod := { ModState.on with booted := 5 }
    regs := listed [(aFLT_STATUS, 0x80#64)] l }

/-- Every tile's TILE_STATE and every context's CTX_INFO listed as unseated and free, so that a test reads them at once. -/
def idleRegs : List (Nat × Nat) :=
  (List.range 96).map (fun n => (aTILE_STATE n, 0)) ++ (List.range 64).map (fun c => (aCTX_INFO c, c))

/-- TILE_STATE of a tile seated to a context. -/
def seated (n c st : Nat) : Nat × Nat := (aTILE_STATE n, 0x800000 + c * 0x10000 + st)

def event (k : EventKind) (cls : FClass) (src stamp : Nat) : ErrEvent :=
  { kind := k, src := src, status := stOK, unit := 0, ctx := noCtx, cls := cls, stamp := stamp, forced := false,
    discrepancy := false, concurrent := false }

def item (ctx step image : Nat) : WorkItem :=
  { id := 1, ctx := ctx, step := step, place := 0, index := 0, image := image, inHandle := 0, storedLen := 0, plainLen := 0,
    codec := 0, mediaType := 0, dataset := 0, flags := 0, seekOffset := 0, params := [], mixWord := 0, needBy := 0, copy := 0,
    noSplit := false, header := [], ownerSite := false }

def doneItem (w : WorkItem) (tile : Nat) : DoneItem :=
  { item := w, tile := tile, outHandle := 0, outLen := 0, verdict := 0, at_ := 0 }

/-- An image with 2 work slots, one solo kernel for lanes 0 to 31, and barrier slots 0 (lanes 0 and 1) and 1 (lane 0). -/
def image : ImageRec :=
  { bytes := [], digest := [], compat := 0, ownerSite := false, profiles := 3, tensorRow := false, workSlots := 2,
    paramCount := 0, code := zeros 256, const := [], kernels := [⟨0, 1000, 1, false, 0⟩], masks := [3, 1], params := [],
    vocabs := [], models := [], constEnd := 256, workBase := 0x1000, slotSize := 0x100, scratchBase := 0x2000,
    scratchEnd := 0x8000, cost := [], split := [] }

def running : Lane := { Lane.off with run := .running }

/-- A tile with the image, lane 0 as given. -/
def tileWith (x : Lane) : TileRec := { TileRec.off with lanes := [(0, x)], image := some 0 }

/-- Tile 0 READY in context 1 with the image, in a running quarter. -/
def tiled (l : List (Nat × Nat)) (r : TileRec) : State :=
  { up (seated 0 1 tsREADY :: l) with
    tiles := [(0, r)]
    work := { WorkState.off with images := [(0, image)] }
    clock := { ClockState.off with links := [0, 1, 2, 3] } }

/-- A request that is examined and started. -/
def request (ctx opcode : Nat) (len : Nat) (args : Bytes) : HostReq :=
  { ctx := ctx, sq := 0, opcode := opcode, staged := false, tag := 7, addr := 0, len := len, effStep := 100, args := args,
    sqHead := 1 }

def asked (s : State) (r : HostReq) : State := { s with host := { s.host with started := [r] } }

def isOk {ε α : Type} : Except ε α → Bool
  | .ok _ => true
  | .error _ => false

/-! ## Hypotheses that some state meets -/

def bar0 (off size : Nat) : Access1 := { fn := 0, bar := .bar0, off := off, size := size }

theorem met_RegisterAccessCompletes :
    (let x := bar0 0x20010 8;
      (up []).safe = false ∧ x.served (up []) ∧ x.goodForm ∧ x.bar ≠ .bar2 ∧ x.size = 8 ∧ x.readable (up []))
    ∧ (let x := bar0 aSTEP_CFG 8;
      (up []).safe = false ∧ x.served (up []) ∧ x.goodForm ∧ x.bar ≠ .bar2 ∧ isRwt x.addr ∧ x.addr < 0x100000000
        ∧ regAbsent (up []).hw.variant x.addr = false)
    ∧ (let x : Access1 := bar0 (0x20013 / 8 * 8) 4; x.served (up []) ∧ x.readable (up []))
    ∧ (let x : Access1 := bar0 (0x20013 / 8 * 8 + 4) 4;
      let s := { up [] with host := { HostState.off with latches := [(0, { addr := x.addr, upper := 5 })] } };
      x.served s ∧ x.readable s ∧ Map.find s.host.latches 0 = some { addr := x.addr, upper := 5 })
    ∧ (let x : Access1 := { fn := 0, bar := .bar2, off := 8, size := 8 };
      (up []).safe = false ∧ x.served (up []) ∧ (8 : Nat) % 8 = 0)
    ∧ (let x : Access1 := { fn := 0, bar := .bar4, off := 0x1008 + (3 : Fin 256).val * 0x20, size := 8 };
      (up []).safe = false ∧ x.served (up [])) := by
  refine ⟨?_, ?_, ?_, ?_, ?_, ?_⟩ <;> decide +kernel

theorem met_FaultCollectorCompletes :
    (let s := { up [] with flt := { FaultState.off with lines := [event .fault .f1 8 (10 ^ 13 - 24)] } };
      firstEvent (s.flt.lines.filter (fun x => x.stamp + 24 ≤ s.dtime)) = some (event .fault .f1 8 (10 ^ 13 - 24)))
    ∧ sourceListed 8
    ∧ ({ up [] with flt := { FaultState.off with committed := [event .ackF3 .f3 0 5] } }).safe = false
    ∧ (up []).reaches 0
    ∧ (let v : BitVec 64 := 0x00080200#64;
      FClass.named (bitsOf v.toNat 8 3) = some .f2 ∧ sourceListed (bitsOf v.toNat 16 16)) := by
  refine ⟨?_, ?_, ?_, ?_, ?_⟩ <;> decide +kernel

/-- Tiles 0 and 24 are READY in context 1 with one image; the second has the item that the pair doubles. -/
def pairState (p : List ShadowPair) : State :=
  let s := tiled (seated 24 1 tsREADY :: idleRegs.filter (fun e => e.1 != aTILE_STATE 0 && e.1 != aTILE_STATE 24))
    (tileWith running)
  { s with
    tiles := [(0, tileWith running), (24, tileWith running)]
    work := { s.work with queued := [item 1 5 0], pairs := p } }

def pairOf (results : List DoneItem) (third : Option Nat) : ShadowPair :=
  { ctx := 1, tile := 0, second := 24, third := third, item := item 1 5 0, first := 0, started := 3, results := results }

def copyDone (k verdict : Nat) : DoneItem := { doneItem { item 1 5 0 with copy := k } 0 with verdict := verdict }

theorem met_ShadowPair :
    (let s := pairState [];
      s.safe = false ∧ s.tileState 0 = tsREADY ∧ s.work.pairs.any (fun p => p.tile == 0) = false ∧ s.openSlots 0 ≠ []
        ∧ s.pairItem 0 = some (item 1 5 0, 0) ∧ s.partners 0 [0] = [24])
    ∧ (let s := pairState [pairOf [copyDone 0 1, copyDone 1 1] none];
      s.safe = false ∧ s.work.pairs.find? (fun p => p.tile == 0) = some (pairOf [copyDone 0 1, copyDone 1 1] none)
        ∧ (pairOf [copyDone 0 1, copyDone 1 1] none).result 0 = some (copyDone 0 1)
        ∧ (pairOf [copyDone 0 1, copyDone 1 1] none).result 1 = some (copyDone 1 1)
        ∧ s.shadowKey (copyDone 0 1) = s.shadowKey (copyDone 1 1))
    ∧ (let p := pairOf [copyDone 0 1, copyDone 1 2, copyDone 2 1] (some 48);
      let s := pairState [p];
      s.safe = false ∧ s.work.pairs.find? (fun p => p.tile == 0) = some p ∧ p.result 0 = some (copyDone 0 1)
        ∧ p.result 1 = some (copyDone 1 2) ∧ p.result 2 = some (copyDone 2 1) ∧ p.second ≠ p.tile
        ∧ s.shadowKey (copyDone 2 1) = s.shadowKey (copyDone 0 1)) := by
  refine ⟨?_, ?_, ?_⟩ <;> decide +kernel

/-- The one partner is the choice, whatever the free value. -/
theorem met_ShadowPartner : (pairState []).choose ((pairState []).partners 0 [0]) = some 24 := by
  rw [met_ShadowPair.1.2.2.2.2.2]
  simp [State.choose, Nat.mod_one]

/-- A monitor whose channel A is asserted for 1 ms at time 10^13. -/
def monitor (a b : Channel) (timer : Option Nat) : FaultState :=
  { FaultState.off with chanA := a, chanB := b, timer := timer }

def asserted (q : Bool) : Channel := { raw := true, edgeAt := 10 ^ 13 - 1000000, qualified := q, qualAt := 10 ^ 13 - 500000 }
def released (q : Bool) : Channel := { raw := false, edgeAt := 10 ^ 13 - 1000000, qualified := q, qualAt := 10 ^ 13 - 500000 }

theorem met_RoundsAndInterlock :
    (let s := tiled [] { tileWith running with lanes := [] };
      s.safe = false ∧ s.tilePresent 0 ∧ s.fld (fTILE_STATE_SEATED 0) = 1 ∧ s.tileState 0 ≠ tsFENCED
        ∧ (s.tile 0).slice = none ∧ s.tileIdle 0 ∧ Map.getD s.flt.roundsSlices 0 0 < 4095
        ∧ s.passedAt 0 + 50 * 60 * 10 ^ 9 ≤ s.dtime ∧ s.flt.withheld.contains 0 = false)
    ∧ (let s := tiled [] { tileWith running with slice := some 9 }; s.safe = false ∧ (s.tile 0).slice ≠ none)
    ∧ ((up []).safe = false ∧ (up []).tilePresent 95 ∧ (up []).tileState 95 = tsUNSEATED)
    ∧ (({ up [] with flt := monitor Channel.idle Channel.idle none }).channel .safeStopA).raw ≠ true
    ∧ (let s := { up [] with flt := monitor Channel.idle (asserted false) none };
      (s.channel .safeStopB).raw ≠ (s.channel .safeStopB).qualified
        ∧ (s.channel .safeStopB).edgeAt + s.filterNs ≤ s.monTime)
    ∧ (let s := { up [] with flt := monitor (asserted true) Channel.idle (some (10 ^ 13 - 20000000)) };
      s.flt.timer = some (10 ^ 13 - 20000000) ∧ 10 ^ 13 - 20000000 + s.discrepancyNs ≤ s.monTime) := by
  refine ⟨?_, ?_, ?_, ?_, ?_, ?_⟩ <;> decide +kernel

theorem met_ResetsAndFunctionsComplete :
    ((up []).safe = false ∧ (up []).mod.perst = false ∧ (up []).mod.modReset = false ∧ (up []).pcieUp
      ∧ (up []).host.numVFs = 0)
    ∧ (let s := { up [] with host := { HostState.off with numVFs := 3, vfReady := [1, 2] } };
      s.safe = false ∧ s.host.vfReady.contains 2 ∧ (3 : Nat) ≤ s.host.numVFs ∧ s.host.vfReady.contains 3 = false)
    ∧ (let s := { up [] with mod := { ModState.on with modReset := true } }; s.safe = false ∧ s.mod.modReset) := by
  refine ⟨?_, ?_, ?_⟩ <;> decide +kernel

theorem met_PowerCompletes :
    ((up []).mod.p54v ∧ (up []).mod.p3v3 ∧ (up []).mod.pwrGood)
    ∧ (let s := { up [] with mod := { ModState.on with p12v := false, p54v := false } };
      s.mod.p12v = false ∧ s.mod.p3v3)
    ∧ (let s := { up [] with mod := { ModState.on with p54v := false } }; s.mod.p54v = false ∧ s.mod.p3v3 ∧ s.mod.p12v)
    ∧ ({ up [] with mod := ModState.dead }).mod.p3v3 = false
    ∧ (let s := up [(aPWR_STATUS, 4)];
      s.mod.pwrGood ∧ s.fld fPWR_STATUS_HOLDUP_OK = 1 ∧ s.hw.variant.hasMedia)
    ∧ ({ up [] with mod := { ModState.on with pwrGood := false } }).mod.pwrGood = false
    ∧ (let s := up [(aPWR_STATUS, 0), (aPWR_THERMAL, 0)];
      s.mod.p54v ∧ s.fld fPWR_STATUS_HOLDUP_OK = 0 ∧ s.mod.measuredAt = 0 ∧ s.safe = false ∧ s.pwr.samples = []
        ∧ s.fld fPWR_THERMAL_TJ_MAX_C = 0)
    ∧ (let s := { up [(aPWR_STATUS, 1)] with pwr := { PowerState.off with falling := true, stepAt := 10 ^ 13 - 1000000 } };
      s.safe = false ∧ s.fld fPWR_STATUS_THROTTLE_SOFT ≠ 0 ∧ s.pwr.falling ∧ s.pwr.stepAt + 1000000 ≤ s.dtime)
    ∧ (let s := { up [(aPWR_STATUS, 1)] with pwr := { PowerState.off with lowered := 2, stepAt := 10 ^ 13 - 10000000 } };
      s.safe = false ∧ s.fld fPWR_STATUS_THROTTLE_SOFT ≠ 0 ∧ s.pwr.falling = false ∧ s.pwr.stepAt + 10000000 ≤ s.dtime
        ∧ 1 < s.pwr.lowered) := by
  refine ⟨?_, ?_, ?_, ?_, ?_, ?_, ?_, ?_, ?_⟩ <;> decide +kernel

/-- CLK_STATUS with every quarter and the hub locked, quarter 0 in a power state. -/
def locked (qps : Nat) : Nat × Nat := (aCLK_STATUS, qps * 2 ^ 32 + 0xF000001)

theorem met_ClocksComplete :
    (let s := up (locked 0 :: (aCLK_QPS_CFG, 100 * 2 ^ 16) :: idleRegs);
      s.safe = false ∧ s.quarterPresent 0 ∧ s.qps 0 = 0 ∧ s.quarterIdle 0 ∧ s.fld fCLK_QPS_CFG_IDLE1_US ≠ 0
        ∧ s.fld fCLK_QPS_CFG_IDLE1_US * 1000 ≤ 100000)
    ∧ (let s := up [locked 1]; s.safe = false ∧ s.quarterPresent 0 ∧ s.qps 0 ≠ 0)
    ∧ (let r := request 0 0x4A 0 [];
      let s := asked (up [locked 0]) r;
      Asked s 0 0 0x4A r ∧ (s.taken r).anySeatedRun = false)
    ∧ (let s := up [locked 0];
      s.safe = false ∧ s.fld (fCLK_STATUS_PLL_LOCK.bit 3) ≠ 0 ∧ s.quarterPresent 3 ∧ s.fld fCLK_STATUS_HUB_LOCK ≠ 0)
    ∧ (let s := up [(aCLK_PPS_CFG, 2), (aCLK_PPS_IN_STAMP, 0)];
      s.safe = false ∧ s.fld fCLK_PPS_CFG_PPS_IN_EN ≠ 0 ∧ s.clock.ppsMissed = false
        ∧ s.reg aCLK_PPS_IN_STAMP + 1500000000 ≤ s.dtime)
    ∧ (let s := up [(aCLK_PPS_CFG, 1), (aSTEP_STATUS, 0)];
      s.safe = false ∧ s.clock.ppsOutAt = none ∧ s.fld fCLK_PPS_CFG_PPS_OUT_EN = 1 ∧ s.fld fSTEP_STATUS_TIME ≤ 1
        ∧ s.dtime % 10 ^ 9 = 0)
    ∧ (let s := { up [(aCLK_PPS_CFG, 1)] with clock := { ClockState.off with ppsOutAt := some 5 } };
      s.safe = false ∧ 5 + s.fld fCLK_PPS_CFG_OUT_WIDTH_MS * 1000000 ≤ s.dtime)
    ∧ (let s := up [locked 0];
      s.safe = false ∧ s.quarterPresent 1 ∧ s.clock.links.contains 1 = false ∧ s.clock.fenced.contains 1 = false
        ∧ s.clockRuns 1 ∧ Map.find s.clock.syncAt 1 = none)
    ∧ (let s := { up [locked 0] with clock := { ClockState.off with syncAt := [(1, 10 ^ 13 - 9999)] } };
      s.safe = false ∧ s.quarterPresent 1 ∧ s.clockRuns 1 ∧ Map.find s.clock.syncAt 1 = some (10 ^ 13 - 9999)
        ∧ s.dtime < 10 ^ 13 - 9999 + 10000)
    ∧ (let s := { up [] with clock := { ClockState.off with syncAt := [(1, 10 ^ 13 - 10000)] } };
      Map.find s.clock.syncAt 1 = some (10 ^ 13 - 10000) ∧ 10 ^ 13 - 10000 + 10000 ≤ s.dtime)
    ∧ (let s := { up [locked 0] with clock := { ClockState.off with links := [0], fifos := [(0, [7]), (4, [7])] } };
      s.safe = false ∧ Map.getD s.clock.fifos (fifoKey 0 true 0) [] = [7] ∧ 7 + 4 ≤ s.dtime
        ∧ Map.getD s.clock.fifos (fifoKey 0 false 0) [] = [7] ∧ s.quarterRuns 0
        ∧ max 7 (Map.getD s.clock.clockAt 0 0) + 4 ≤ s.dtime) := by
  refine ⟨?_, ?_, ?_, ?_, ?_, ?_, ?_, ?_, ?_, ?_, ?_⟩ <;> (try unfold Asked) <;> decide +kernel

/-- RING_CFG of an enabled ring of 16 entries. -/
def ring (c r kind : Nat) : Nat × Nat := (aRING_CFG c r, 2 ^ 63 + kind * 2 ^ 56 + 4 * 2 ^ 48 + 1 * 2 ^ 32)

def completion (ctx : Nat) : Completion :=
  { ctx := ctx, cq := 1, tag := 7, status := stOK, sq := 0, sqHead := 1, result0 := 0, result1 := 0 }

def eventItem : EventItem := { ctx := 0, type := 1, record := zeros 40 }

theorem met_RingsComplete :
    (let s := up [(aGLB_STATUS, 1), ring 0 0 rkSQ, ring 0 1 rkCQ, (aRING_STATUS 0 0, 3), (aRING_STATUS 0 1, 0)];
      s.safe = false ∧ s.canExamine 0 0)
    ∧ (let s := { up [ring 0 1 rkCQ, (aRING_STATUS 0 1, 0)] with host := { HostState.off with done := [completion 0] } };
      s.safe = false ∧ s.atQuantum 0 ∧ s.host.done.find? (fun e => e.ctx == 0 && e.cq == 1) = some (completion 0)
        ∧ s.ringOn 0 1 rkCQ ∧ s.ringError 0 1 = false ∧ s.ringRoom 0 1)
    ∧ (let s := { up [ring 0 0 rkEVENT, (aRING_STATUS 0 0, 0)] with host := { HostState.off with events := [eventItem] } };
      s.safe = false ∧ s.host.events.find? (fun e => e.ctx == 0) = some eventItem ∧ s.eventRing eventItem = some 0
        ∧ s.ringError 0 0 = false ∧ s.ringRoom 0 0)
    ∧ (let s := up [(aCTX_SHARE1 1, 1000 * 2 ^ 48)]; s.safe = false ∧ s.atQuantum 1)
    ∧ (let s := { up [] with host := { HostState.off with msix := [(0, { masked := 1, pendingBits := 1, held := 0 })] } };
      s.safe = false ∧ s.reaches 0 ∧ bitOf (s.msixOf 0).masked 0 ∧ bitOf (s.msixOf 0).pendingBits 0)
    ∧ (let r := request 2 1 0 []; Asked (asked (up []) r) 2 0 0x01 r)
    ∧ (let r := request 2 2 64 [];
      let s := asked { up [] with sec := { SecState.off with roots := [(2, zeros 32)] } } r;
      Asked s 2 0 0x02 r ∧ ∃ n ct tag t, (s.taken r).sealOut 2 ((s.taken r).syncDump 2) = some (n, ct, tag, t)
        ∧ (sealedBytes n ct tag).length ≤ r.len) := by
  refine ⟨?_, ?_, ?_, ?_, ?_, ?_, ?_, _, _, _, _, rfl, ?_⟩ <;> (try unfold Asked) <;> decide +kernel

/-- Sealed blobs of the all-zero root key with SEQUENCE 1 for context 1: a seed of zeros (kind 5), one byte (kind 3), and
`ingestPlain` (kind 10). -/
def seedBlob : Bytes := toLE 80 0x9374661c14e0fcefd6a069d3d23b9394bd2ff45a0ad1b011a1e653b2c82f6bb576da57037ef6135053c1cf05de345016000000000000000000000000000000200000000000000001010500014c42464f
def vocBlob : Bytes := toLE 49 0x68b711b9f271e16752a29d83d3cd2c3b17000000000000000000000000000000010000000000000001010300014c42464f
def ingestBlob : Bytes := toLE 64 0x139281316fbd7e0bd01ecb54a5bf44a676da573c7ef6155053c1cf05de354612000000000000000000000000000000100000000000000001010a00014c42464f

def ingestPlain : Bytes := toLE 1 4 ++ toLE 1 22 ++ toLE 2 1 ++ zeros 4 ++ toLE 1 0 ++ toLE 1 6 ++ zeros 2 ++ toLE 4 0x3F

def keyed (s : State) : State := { s with sec := { s.sec with roots := [(1, zeros 32)] } }

/-- K_blob of the all-zero root key and serial number 0. -/
def blobKey : Bytes := toLE 32 0x2dcd5a058b9eba843bed8054947b3dd23d3ec6d38a038ffbb5f2060801171e58

theorem test_blobKey : kBlob (zeros 32) 0 = blobKey := by decide +kernel

/-- A blob's plaintext under `blobKey`. -/
def opened (b : Bytes) : Option Bytes :=
  let n := fieldAt b 16 4
  gcmOpen blobKey (slice b 8 8 ++ zeros 4) (b.take 32) (slice b 32 n) (slice b (32 + n) 16)

theorem takeBlob_opened {s : State} {c : Nat} {b p : Bytes} (hk : s.rootKey c = some (zeros 32)) (hs : s.hw.serial = 0)
    (ho : opened b = some p) (hf : s.freshSeq c (fieldAt b 8 8) = true) :
    s.takeBlob c b = .ok (some p, s.acceptSeq c (fieldAt b 8 8)) := by
  have h : openBlob (zeros 32) 0 b = some p := by unfold openBlob; rw [test_blobKey]; exact ho
  unfold State.takeBlob
  simp [hk, hs, h, hf]

/-- The smallest vocabulary: 256 byte tokens and one special. -/
def vocabImage : Bytes :=
  let total := 64 + 32 + 8 * 257 + 1
  toLE 4 0x4356464F ++ toLE 2 1 ++ toLE 1 2 ++ zeros 1 ++ toLE 4 257 ++ toLE 2 1 ++ toLE 2 16 ++ toLE 4 total ++ toLE 4 0
    ++ toLE 4 64 ++ toLE 4 64 ++ toLE 4 96 ++ toLE 4 (96 + 8 * 257) ++ toLE 4 1 ++ toLE 4 0xFFFFFFFF ++ toLE 4 256 ++ zeros 12
    ++ zeros 32 ++ ((List.range 256).map (fun i => toLE 4 i ++ toLE 2 1 ++ toLE 1 2 ++ zeros 1)).flatten
    ++ toLE 4 0 ++ toLE 2 1 ++ toLE 1 1 ++ zeros 1 ++ [0x73#8]

theorem test_vocabParses : (parseVocab vocabImage).isSome := by decide +kernel

def report : Report := { digest := zeros 48, ecdhSeed := [], kemSeed := [], made := 10 ^ 13 - 60 * 10 ^ 9 + 1 }

def delivery : Bytes := toLE 4 0x444B464F ++ toLE 2 1 ++ toLE 1 1 ++ zeros 1769

/-- VOC_SLOT 0 assigned to context 1, bank 0 in a state. -/
def vocSlot (st : Nat) : Nat × Nat := (aVOC_SLOTn 0, 0x81 + st * 2 ^ 32)


theorem met_SecretsComplete_reports :
    (let r := request 1 3 48 []; Asked (asked (up []) r) 1 0 0x03 r ∧ (zeros 48).length = r.len
      ∧ (Map.getD (asked (up []) r).sec.reports 1 []).length < 4)
    ∧ (let r := request 1 4 1776 [];
      let s := { asked (up []) r with sec := { SecState.off with reports := [(1, [report])] } };
      Asked s 1 0 0x04 r ∧ delivery.length = 1776 ∧ (s.taken r).keysHeld 1 = false ∧ fieldAt delivery 0 4 = 0x444B464F
        ∧ fieldAt delivery 4 2 = 1 ∧ fieldAt delivery 6 1 = 1
        ∧ (Map.getD s.sec.reports 1 []).find? (fun x => x.digest == slice delivery 8 48) = some report
        ∧ report.expired s.dtime = false) := by
  refine ⟨?_, ?_⟩ <;> unfold Asked <;> decide +kernel

def blobReq (len : Nat) : HostReq := { request 1 5 len [0#8] with effStep := 0 }

theorem met_SecretsComplete_blobs :
    (let r := blobReq 80; let s := asked (keyed (up [])) r;
      Asked s 1 0 0x05 r ∧ blobKind seedBlob ≠ 3 ∧ blobHeaderOk 1 (blobKinds 1) r.len seedBlob
        ∧ blobArgsOk (blobKind seedBlob) r)
    ∧ (let r := blobReq 49; let s := asked (keyed (up [])) r;
      Asked s 1 0 0x05 r ∧ blobKind vocBlob = 3 ∧ blobHeaderOk 1 (blobKinds 1) r.len vocBlob ∧ blobArgsOk 3 r) := by
  refine ⟨?_, ?_⟩ <;> unfold Asked <;> decide +kernel

theorem test_blobsOpen :
    opened seedBlob = some (zeros 32) ∧ opened vocBlob = some [1#8] ∧ opened ingestBlob = some ingestPlain := by
  decide +kernel

/-- The blobs are taken (with the hypotheses of the theorem above, all those of the rows that take a blob). -/
theorem met_SecretsComplete_taken :
    (∃ t, ((asked (keyed (up [])) (blobReq 80)).taken (blobReq 80)).takeBlob 1 seedBlob = .ok (some (zeros 32), t))
    ∧ (∃ t, ((asked (keyed (up [])) (blobReq 49)).taken (blobReq 49)).takeBlob 1 vocBlob = .ok (some [1#8], t))
    ∧ ∃ t, ((asked (keyed (up [])) (request 1 0x18 64 [])).taken (request 1 0x18 64 [])).takeBlob 1 ingestBlob
      = .ok (some ingestPlain, t) :=
  ⟨⟨_, takeBlob_opened (by decide +kernel) rfl test_blobsOpen.1 (by decide +kernel)⟩,
    ⟨_, takeBlob_opened (by decide +kernel) rfl test_blobsOpen.2.1 (by decide +kernel)⟩,
    ⟨_, takeBlob_opened (by decide +kernel) rfl test_blobsOpen.2.2 (by decide +kernel)⟩⟩

theorem met_SecretsComplete_vocabularies :
    (let s := { up [vocSlot vbLOADING] with vocs := [(0, { image := vocabImage, digest := [1#8], loader := 1 })] };
      s.safe = false ∧ Map.find s.vocs (bankNum 0 0) = some { image := vocabImage, digest := [1#8], loader := 1 }
        ∧ s.fld (fBankState 0 0) = vbLOADING)
    ∧ (let r := request 1 6 0 [];
      let s := asked (up (vocSlot vbREADY :: idleRegs)) r;
      Asked s 1 0 0x06 r ∧ (s.taken r).slotOf 1 0 ∧ s.fld (fBankState 0 0) ≠ vbEMPTY ∧ s.fld (fBankState 0 0) ≠ vbLOADING
        ∧ (s.taken r).bankBound (bankNum 0 0) = false) := by
  refine ⟨?_, ?_⟩ <;> (try unfold Asked) <;> decide +kernel

theorem met_SecretsComplete_owner :
    (let r := request 0 0x47 0 []; Asked (asked (up []) r) 0 0 0x47 r)
    ∧ (let r := request 0 0x48 48 []; Asked (asked (up []) r) 0 0 0x48 r ∧ 48 ≤ r.len)
    ∧ (let r := request 0 0x49 0 []; Asked (asked (up []) r) 0 0 0x49 r)
    ∧ (let s := up [(aSEC_STATUS, 1)];
      s.safe = false ∧ s.reaches 0 ∧ s.mod.recovery = false ∧ s.fld fSEC_STATUS_DEBUG ≠ 2) := by
  refine ⟨?_, ?_, ?_, ?_⟩ <;> (try unfold Asked) <;> decide +kernel

def client (st : QpState) : Qp :=
  { gen := 1, kind := .client, cls := 3, ctx := 1, pd := 0, port := 0, sub := 0, peerGid := [], peerQpn := 9, pmtu := 1024,
    timeout := 7, retryCnt := 7, initDepth := 1, respDepth := 1, state := st, flushed := false, cause := stOK, sends := [],
    nextPsn := 0, unacked := 0, retries := 0, timer := none, ePsn := 0, gapNak := false, rx := none, coalesce := none,
    rate := 1000, tAdj := 0, paceAt := 0, probes := [], sealSeq := 0, sealHigh := none, sealSeen := [], peerRank := 0,
    serves := false }

def withQp (s : State) (q : Qp) : State := { s with net := { s.net with qps := [(3, q)] } }

def pack : PackCfg :=
  { consumers := 1, rows := 2, group := 1, q := 1, lead := 2, layout := 0, fitMode := 0, overlong := 0, rowTokens := 8,
    segMax := 4, owners := 1, padId := 0, entryBytes := 0, reserve := 100000, creditPoll := 1000, raw := zeros 64 }

def runCfg : RunCfg :=
  { power := 0, replay := false, runId := 9, firstStep := 10, replayFrom := 0, pegBase := 0, ranks := [0], spares := [],
    splitMax := 0, splitMargin := 0, splitTimeout := 1000, pack := pack, consumers := [], frames := [] }

def run : RunRec :=
  { cfg := runCfg, epochs := [], carries := [0], carriers := [], nextPlan := 11, nextSet := 11, fetches := [], groups := [],
    rows := [], credits := [], landing := [], landingKey := 0, peerKeys := [], peers := [], peers0 := [], delivery := [(0, 3)],
    nextCommit := 10, reported := [], late := [], missed := [], restarts := 0, aborted := none, abortAt := 0, exempt := 0,
    imported := [] }

/-- Context 1 with content. -/
def withData (s : State) (d : CtxData) : State := { s with data := [(1, d)] }
def seatedRun (r : RunRec) : CtxData := { CtxData.off with run := some r }

def logbook : Logbook := { runId := 9, frames := [[1#8], [2#8]], lastDigest := zeros 48 }


def stream : IngestRec :=
  { dataset := 4, sizeLog2 := 22, pods := [], gen := 1, next := 0, extents := [], first := 0, records := [], lastSeq := none }

theorem met_RunsAndLogsComplete :
    (let r := request 1 7 0 [];
      let s := { asked (withQp (keyed (up [(aSTEP_LAST, 5)])) (client .rts)) r with
        sec := { SecState.off with sessions := [(1, zeros 32)] } };
      Asked s 1 0 0x07 r ∧ s.findQpn 0x4003 = some (3, client .rts) ∧ (client .rts).ctx = 1 ∧ (client .rts).kind = .client
        ∧ Map.has s.sec.sessions 1 ∧ (((s.targetImage 1).bind s.imageRec).map (·.compat)).getD 0 ≤ 0)
    ∧ (let r := request 1 0x11 0 []; let s := asked (withData (up []) (seatedRun run)) r;
      Asked s 1 0 0x11 r ∧ s.runOf 1 = some run)
    ∧ (let r := request 1 0x12 8 []; let s := asked (withData (up []) { CtxData.off with logs := [(9, logbook)] }) r;
      Asked s 1 0 0x12 r ∧ Map.find (s.ctxData 1).logs 9 = some logbook ∧ (1 : Nat) < logbook.frames.length
        ∧ (((logbook.frames.drop 0).take (1 + 1 - 0)).flatten).length ≤ r.len)
    ∧ (let r := request 1 0x13 0 []; let s := asked (withData (up []) { CtxData.off with logs := [(9, logbook)] }) r;
      Asked s 1 0 0x13 r ∧ Map.has (s.ctxData 1).logs 9 ∧ s.runWithId 1 9 = none)
    ∧ (let r := request 1 0x14 72 [];
      let s := asked (keyed (withData (up []) { seatedRun run with logs := [(9, logbook)] })) r;
      Asked s 1 0 0x14 r ∧ s.runOf 1 = some run ∧ Map.find (s.ctxData 1).logs run.cfg.runId = some logbook
        ∧ ((s.taken r).sealOut 1 logbook.lastDigest).isSome)
    ∧ (let r := request 1 0x18 64 []; let s := asked (keyed (up [])) r;
      Asked s 1 0 0x18 r ∧ s.hw.variant.hasMedia ∧ blobHeaderOk 1 [10] r.len ingestBlob
        ∧ ingestParams ingestPlain = some (4, 22, [{ pod := 0, mask := 0x3F }]))
    ∧ (let r := request 1 0x19 0 [];
      let s := asked (keyed (withData (up []) { CtxData.off with ingest := [(2, stream)] })) r;
      Asked s 1 0 0x19 r ∧ Map.find (s.ctxData 1).ingest 2 = some stream ∧ (s.taken r).keysHeld 1) := by
  refine ⟨?_, ?_, ?_, ?_, ?_, ?_, ?_⟩ <;> (try unfold Asked) <;> decide +kernel

/-- Shares of context 1: queue pairs, windows, tiles; pegs, barriers; slots 0 to 63. -/
def shares : List (Nat × Nat) :=
  [(aCTX_SHARE0 1, 8 * 2 ^ 48 + 8 * 2 ^ 32 + 4 * 2 ^ 16), (aCTX_SHARE1 1, 4 * 2 ^ 32 + 16), (aCTX_SHARE2 1, 64 * 2 ^ 16)]

def chain (cls owner tile : Nat) : Chain := { gen := 1, bufs := [(cls, 0)], owner := owner, tile := tile, bytes := [] }

/-- Context 1 holds chain 0. -/
def withChain (s : State) (c : Chain) : State := { s with ink := { s.ink with chains := [(1, [(0, c)])] } }

def handle1 (cls : Nat) : Nat := handleWord cls 1 1 0

def window1 (k : WinKind) (closing : Option Nat) : Window :=
  { tag := 5, ctx := 1, pd := 0, kind := k, len := 4096, canWrite := true, canRead := true, isOpen := closing.isNone,
    closing := closing }

def withWindow (s : State) (w : Window) : State := { s with net := { s.net with windows := [(2, w)] } }

def dbar : Dbar :=
  { stepMode := false, sense := false, gen := 0, members := [0, 1], arrived := [], gate := false, waiters := [] }

def ledgerQueue (cmds : List LedgerCmd) : LedgerQueue :=
  { LedgerQueue.fresh 1 0 0 8 3 0 0 8 with cmds := cmds }

theorem met_HostResourcesComplete :
    (let r := request 1 0x20 0 []; let s := asked (up shares) r;
      Asked s 1 0 0x20 r ∧ (s.taken r).qpArgsOk 3 0 0 0 1024 7 7 1 1
        ∧ isOk ((s.taken r).openQp false .client 3 1 0 0 0 1024 7 7 1 1))
    ∧ (let r := request 1 0x21 0 []; let s := asked (withQp (up []) (client .init)) r;
      Asked s 1 0 0x21 r ∧ s.clientQp 1 0x4003 = some (3, client .init) ∧ (client .init).state = .init)
    ∧ (let r := request 1 0x22 0 []; let s := asked (withQp (up []) (client .rts)) r;
      Asked s 1 0 0x22 r ∧ s.clientQp 1 0x4003 = some (3, client .rts) ∧ (client .rts).state ≠ .err)
    ∧ (let q := { client .err with flushed := true };
      let r := request 1 0x23 0 []; let s := asked (withQp (up []) q) r;
      Asked s 1 0 0x23 r ∧ s.clientQp 1 0x4003 = some (3, q) ∧ q.state = .err ∧ q.flushed)
    ∧ (let r := request 1 0x24 0 []; let s := asked (withChain (up shares) (chain 0 agHOST 0)) r;
      Asked s 1 0 0x24 r ∧ (s.taken r).winKindOk 1 5 (handle1 0) 4096 true false = some (.handle (handle1 0))
        ∧ isOk ((s.taken r).openWindow 1 0 (.handle (handle1 0)) 4096 true false))
    ∧ (let r := request 1 0x25 0 []; let s := asked (withWindow (up []) (window1 .mailbox none)) r;
      Asked s 1 0 0x25 r ∧ s.windowAt (keyOf 2 5) = some (window1 .mailbox none) ∧ (window1 .mailbox none).ctx = 1)
    ∧ (let s := withWindow (up []) (window1 .mailbox (some 3));
      s.safe = false ∧ Map.find s.net.windows 2 = some (window1 .mailbox (some 3))
        ∧ (window1 .mailbox (some 3)).closing.isSome)
    ∧ (let r := request 1 0x28 0 []; let s := asked (up shares) r;
      Asked s 1 0 0x28 r ∧ s.peg 1 16383 = none ∧ s.mappedPegs < 65536 ∧ (s.pegsOf 1).length < s.sharePegs 1)
    ∧ (let r := request 1 0x29 0 [];
      let s := asked { up [] with sync := { SyncState.off with pegs := [(1, [(4, { phys := 0, value := 2 })])] } } r;
      Asked s 1 0 0x29 r ∧ s.peg 1 4 = some { phys := 0, value := 2 })
    ∧ (let r := request 1 0x2A 0 []; let s := asked (up shares) r;
      Asked s 1 0 0x2A r ∧ Map.has (s.barsOf 1) 255 = false
        ∧ (s.sync.bars.map (fun e => e.2.length)).foldl (· + ·) 0 < 1024 ∧ (s.barsOf 1).length < s.shareDbars 1)
    ∧ (let r := request 1 0x2B 0 [];
      let s := asked { up [] with sync := { SyncState.off with bars := [(1, [(4, dbar)])] } } r;
      Asked s 1 0 0x2B r ∧ Map.find (s.barsOf 1) 4 = some dbar)
    ∧ (let r := request 1 0x2C 0 []; let s := asked (withQp (up shares) (client .rts)) r;
      Asked s 1 0 0x2C r ∧ s.ledger.length < 1024 ∧ s.clientQp 1 0x4003 = some (3, client .rts)
        ∧ (s.taken r).queueOk 1 1023 0 0 8 8 64 (some (3, client .rts)))
    ∧ (let r := request 1 0x2D 0 []; let s := asked { up [] with ledger := [(6, ledgerQueue [])] } r;
      Asked s 1 0 0x2D r ∧ s.queue 6 = some (ledgerQueue []) ∧ (ledgerQueue []).ctx = 1
        ∧ (ledgerQueue []).recovery = false) := by
  refine ⟨?_, ?_, ?_, ?_, ?_, ?_, ?_, ?_, ?_, ?_, ?_, ?_, ?_⟩ <;> (try unfold Asked) <;> decide +kernel

def txn (st : TxnState) : Txn := { num := 4, eff := 100, state := st, marked := false, staged := 0, items := [] }

def withTxn (s : State) (c : Nat) (t : Txn) : State := { s with host := { s.host with txns := [(c, [t])] } }

theorem met_TransactionsComplete :
    (let r := request 1 0x38 0 (toLE 4 5); let s := asked { up [] with host := { HostState.off with lastNum := [(1, 4)] } } r;
      Asked s 1 0 0x38 r ∧ allZero (r.args.drop 4) ∧ s.openTxn 1 = none ∧ fieldAt r.args 0 4 = 5)
    ∧ (let r := request 1 0x39 0 []; let s := asked (withTxn (up idleRegs) 1 (txn .open_)) r;
      Asked s 1 0 0x39 r ∧ s.openTxn 1 = some (txn .open_) ∧ isOk (((s.taken r).dropOpen 1).commitTxn 1 (txn .open_)))
    ∧ (let r := request 1 0x3A 0 []; let s := asked (withTxn (up []) 1 (txn .open_)) r;
      Asked s 1 0 0x3A r ∧ s.openTxn 1 ≠ none)
    ∧ (let r := request 1 0x3B 0 []; let s := asked (withTxn (up []) 1 (txn .pending)) r;
      Asked s 1 0 0x3B r ∧ (s.txnsOf 1).find? (fun t => !t.isOpen && t.num == 4) = some (txn .pending)
        ∧ (txn .pending).state ≠ .fixed)
    ∧ (let r := request 0 0x40 64 []; let s := asked (withTxn (up []) 0 (txn .open_)) r;
      Asked s 0 0 0x40 r ∧ (zeros 64).length = r.len ∧ s.openTxn 0 = some (txn .open_) ∧ (txn .open_).staged < 64) := by
  refine ⟨?_, ?_, ?_, ?_, ?_⟩ <;> (try unfold Asked) <;> decide +kernel

/-- CTX_INFO of a context in a state. -/
def ctxIn (c st : Nat) : Nat × Nat := (aCTX_INFO c, st * 256 + c)

theorem met_SeatsAndContextsComplete :
    (let r := request 0 0x41 0 [];
      let s := asked (up (locked 0 :: shares ++ idleRegs ++ [ctxIn 1 csACTIVE])) r;
      Asked s 0 0 0x41 r ∧ s.ctxState 1 ≠ csTEARDOWN ∧ (s.taken r).seatStatus 1 3 = none ∧ (s.taken r).awake 3)
    ∧ (let r := request 0 0x42 0 []; let s := asked (up [locked 0, seated 0 1 tsREADY]) r;
      Asked s 0 0 0x42 r ∧ (tilesIn 1).all s.tilePresent ∧ (tilesIn 1).all (s.seatedTo 1) ∧ (s.taken r).awake 1)
    ∧ (let r := request 0 0x43 0 []; let s := asked (up [ctxIn 1 csACTIVE, (aVOC_SLOTn 0, 0)]) r;
      Asked s 0 0 0x43 r ∧ s.ctxState 1 ≠ csTEARDOWN ∧ s.fld (fVOC_SLOTn_ASSIGNED 0) ≠ 1)
    ∧ (let r := request 0 0x44 0 []; let s := asked (up [(aVOC_SLOTn 0, 0)]) r;
      Asked s 0 0 0x44 r ∧ ∀ b, b < 2 → s.bankBound (bankNum 0 b) = false ∧ s.fld (fBankState 0 b) ≠ vbLOADING)
    ∧ (let r := request 0 0x45 0 []; let s := asked (up [ctxIn 1 csSTOPPED]) r;
      Asked s 0 0 0x45 r ∧ (s.taken r).ownerReset 1 = some (s.taken r))
    ∧ (let r := request 0 0x46 0 []; let s := asked (up [ctxIn 1 csACTIVE]) r;
      Asked s 0 0 0x46 r ∧ s.ctxState 1 ≠ csFREE ∧ s.ctxState 1 ≠ csTEARDOWN)
    ∧ (let s := up (ctxIn 1 csTEARDOWN :: idleRegs.filter (fun e => e.1 != aCTX_INFO 1));
      s.safe = false ∧ s.ctxState 1 = csTEARDOWN ∧ s.tilesOf 1 = [] ∧ s.keysHeld 1 = false)
    ∧ (let s := up [ctxIn 1 csACTIVE];
      s.safe = false ∧ s.reaches 0 ∧ s.mod.recovery = false ∧ s.ctxState 1 = csACTIVE)
    ∧ (let s := { up [(aCTX_STATUS 1, 1)] with host := { HostState.off with numVFs := 1, vfReady := [1] } };
      s.safe = false ∧ s.reaches 1 ∧ s.mod.recovery = false ∧ s.fld (fCTX_STATUS_STOPPED 1) ≠ 0)
    ∧ (let s := up [ctxIn 1 csSTOPPED]; s.safe = false ∧ s.ctxState 1 = csSTOPPED)
    ∧ (let s := up (ctxIn 1 csRESETTING :: idleRegs.filter (fun e => e.1 != aCTX_INFO 1));
      s.safe = false ∧ s.ctxState 1 = csRESETTING ∧ s.resetDone 1) := by
  refine ⟨?_, ?_, ?_, ?_, ?_, ?_, ?_, ?_, ?_, ?_, ?_⟩ <;> (try unfold Asked) <;> decide +kernel

/-- A header of component c without blocks, with n payload bytes. -/
def fwHeader (c n : Nat) : Bytes :=
  toLE 4 0x5746464F ++ toLE 2 1 ++ toLE 1 c ++ zeros 1 ++ zeros 28 ++ toLE 4 n ++ zeros (4928 - 40)

def fit : FwFit := { readable := true, wire := none }

/-- UPD_STATE of a component. -/
def updReg (c st : Nat) : Nat × Nat := (aUPD_STATEn c, st)

def fwImage0 : FwImage :=
  { version := 0, content := 0, compat := 0, sv := 0, settings := 0, wireMin := 0, wireMax := 0, targetLen := 0, digest := [] }

/-- Component c in an update state, bank 1 holding its header and image. -/
def updating (c st : Nat) : State :=
  { up (idleRegs ++ [updReg c st]) with
    fw := { FwState.off with
      banks := [(c * 2 + 1, { header := (fwHeader c 1).take 40, payload := [], blocks := [], image := some fwImage0 })] } }

theorem met_UpdateAndBootComplete :
    (let r := request 0 0xF0 4928 []; let s := asked (up []) r; let b := fwHeader 2 0;
      Asked s 0 0 0xF0 r ∧ r.len = b.length ∧ headerOk b ∧ fieldAt b 6 1 = 2 ∧ (s.taken r).updComp = none
        ∧ (s.taken r).levelStatus 2 (hdrImage b []) fit = none ∧ hdrDelta b = false)
    ∧ (let r := request 0 0xF1 1 []; let x := ((asked (updating 2 usDOWNLOADING) r).taken r).runUpd (.write 0 [9#8]);
      Asked (asked (updating 2 usDOWNLOADING) r) 0 0 0xF1 r ∧ r.len = 1 ∧ x.1 = stOK ∧ x.2.2 = none)
    ∧ (let r := request 0 0xF2 0 []; let x := ((asked (updating 2 usDOWNLOADING) r).taken r).runUpd (.verify none fit);
      Asked (asked (updating 2 usDOWNLOADING) r) 0 0 0xF2 r ∧ x.1 = stOK ∧ x.2.2 = none)
    ∧ (let r := request 0 0xF3 0 []; let x := ((asked (updating 2 usVERIFIED) r).taken r).runUpd (.activate fit true);
      Asked (asked (updating 2 usVERIFIED) r) 0 0 0xF3 r ∧ x.1 = stOK ∧ x.2.2 = some 2)
    ∧ (let r := request 0 0xF3 0 []; let x := ((asked (updating 0 usVERIFIED) r).taken r).runUpd (.activate fit true);
      Asked (asked (updating 0 usVERIFIED) r) 0 0 0xF3 r ∧ x.1 = stOK ∧ x.2.2 = none)
    ∧ (let r := request 0 0xF4 0 []; let x := ((asked (updating 2 usTRIAL) r).taken r).runUpd (.confirm true);
      Asked (asked (updating 2 usTRIAL) r) 0 0 0xF4 r ∧ x.1 = stOK ∧ x.2.2 = none)
    ∧ (let r := request 0 0xF5 0 []; let x := ((asked (updating 2 usDOWNLOADING) r).taken r).runUpd .abort;
      Asked (asked (updating 2 usDOWNLOADING) r) 0 0 0xF5 r ∧ x.1 = stOK ∧ x.2.2 = none)
    ∧ (let r := request 0 0xF6 0 []; let x := ((asked (updating 0 usTRIAL) r).taken r).runUpd .revert;
      Asked (asked (updating 0 usTRIAL) r) 0 0 0xF6 r ∧ x.1 = stOK ∧ x.2.2 = none)
    ∧ (let s := { up [] with fw := { FwState.off with switching := some (2, 1, false) } };
      s.safe = false ∧ s.fw.switching = some (2, 1, false) ∧ s.fw.switchStep = none)
    ∧ (let s := { up [updReg 2 usTRIAL, (aUPD_CFG, 600 * 2 ^ 32)] with fw := { FwState.off with trialAt := [(2, 1)] } };
      s.safe = false ∧ Map.find s.fw.trialAt 2 = some 1 ∧ s.updState 2 = usTRIAL
        ∧ 1 + s.fld fUPD_CFG_CONFIRM_S * 10 ^ 9 ≤ s.dtime)
    ∧ (State.reset.safe = false ∧ State.reset.mod.held = false ∧ State.reset.mod.pwrGood
        ∧ State.reset.mod.modReset = false ∧ State.reset.mod.recovery = false ∧ State.reset.mod.stopped = false
        ∧ State.reset.mod.booted < 5)
    ∧ ((up []).safe = false ∧ (up []).lan.fwKicked + 50000000 ≤ (up []).dtime ∧ (up []).mctpServed) := by
  refine ⟨?_, ?_, ?_, ?_, ?_, ?_, ?_, ?_, ?_, ?_, ?_, ?_⟩ <;> (try unfold Asked) <;> decide +kernel

/-- A run configuration of two devices, ranks 0 (this one) and 5: RUN_ID 9, FIRST_STEP 10, one consumer, B = 2, G = 1. -/
def cfgPlain : Bytes :=
  toLE 4 0x4352464F ++ toLE 2 1 ++ toLE 1 0 ++ toLE 1 0 ++ toLE 8 9 ++ toLE 8 10 ++ toLE 8 0 ++ toLE 2 0 ++ toLE 2 2 ++ toLE 2 0
    ++ toLE 2 0 ++ toLE 8 0 ++ toLE 8 1000 ++ toLE 4 0 ++ zeros 4
    ++ toLE 4 1 ++ toLE 2 2 ++ toLE 2 1 ++ toLE 4 1 ++ toLE 1 1 ++ toLE 1 0 ++ toLE 1 0 ++ toLE 1 0 ++ toLE 4 8 ++ toLE 2 4
    ++ toLE 1 1 ++ toLE 1 0 ++ toLE 4 0 ++ toLE 4 0 ++ toLE 8 100000 ++ toLE 8 1000 ++ zeros 16
    ++ toLE 2 0 ++ toLE 2 5 ++ zeros 60
    ++ toLE 4 0 ++ toLE 4 4 ++ toLE 8 0 ++ toLE 4 7 ++ toLE 4 1024 ++ toLE 8 0 ++ toLE 4 7 ++ zeros 4 ++ zeros 16 ++ toLE 4 0
    ++ zeros 4

/-! What seating a run keeps: registers, the hardware's constants, and that every queue pair lies on a port that exists. -/

def Ports (s : State) : Prop := ∀ e ∈ s.net.qps, e.2.port < s.hw.variant.ports
def Like (s t : State) : Prop := t.regs = s.regs ∧ t.hw = s.hw ∧ (Ports s → Ports t)

theorem Like.refl (s : State) : Like s s := ⟨rfl, rfl, id⟩
theorem Like.trans {s t u : State} (h : Like s t) (k : Like t u) : Like s u :=
  ⟨k.1.trans h.1, k.2.1.trans h.2.1, fun p => k.2.2 (h.2.2 p)⟩
theorem Like.same {s t : State} (h1 : t.regs = s.regs) (h2 : t.hw = s.hw) (h3 : t.net.qps = s.net.qps) : Like s t :=
  ⟨h1, h2, fun p => by unfold Ports; rw [h2, h3]; exact p⟩
theorem Like.fold {α : Type} (f : State → α → State) (h : ∀ s a, Like s (f s a)) : ∀ (l : List α) (s : State),
    Like s (l.foldl f s)
  | [], s => .refl s
  | a :: l, s => (h s a).trans (Like.fold f h l (f s a))

theorem like_setQp (s : State) (i : Nat) (q : Qp) (h : q.port < s.hw.variant.ports) : Like s (s.setQp i q) :=
  ⟨rfl, rfl, fun p e he => (Map.mem_put he).elim (fun x => x ▸ h) (fun x => p e x)⟩

theorem like_openQp {s t : State} {serves : Bool} {kind : QpKind} {cls ctx pd port sub pmtu a b x y i : Nat}
    (h : s.openQp serves kind cls ctx pd port sub pmtu a b x y = .ok (i, t)) (hp : port < s.hw.variant.ports) :
    Like s t ∧ ∀ q, t.qp i = some q → q.port = port := by
  unfold State.openQp at h
  split at h
  · cases h
  · split at h
    · cases h
    · cases h
      refine ⟨(Like.same rfl rfl rfl : Like s s.used).trans (like_setQp _ _ _ hp), fun q hq => ?_⟩
      rw [State.qp, State.setQp] at hq
      exact Option.some.inj ((Map.find_put_same _ _ _).symm.trans hq) ▸ rfl

theorem like_openLink {s t : State} {kind : QpKind} {cls ctx peer i : Nat} {gid : Bytes} {n : Option Nat}
    (h : s.openLink kind cls ctx peer gid n = some (i, t)) : Like s t := by
  unfold State.openLink at h
  simp only at h
  split at h
  · cases h
  · rename_i hq
    obtain ⟨hl, hport⟩ := like_openQp hq (Nat.mod_lt _ (by cases s.hw.variant <;> decide))
    split at h
    · cases h
    · rename_i hf
      cases h
      refine (hl.trans (.same rfl rfl rfl)).trans (like_setQp _ _ _ ?_)
      show Qp.port _ < _
      rw [Qp.connect, hport _ hf]
      exact lt_of_lt_of_eq (Nat.mod_lt _ (by cases s.hw.variant <;> decide)) (congrArg (fun h => h.variant.ports) hl.2.1.symm)

theorem like_openPeers (s : State) (c : Nat) : Like s (s.openPeers c) := by
  unfold State.openPeers
  split
  · exact .refl s
  · refine Like.fold _ (fun s k => ?_) _ s
    split
    · exact .refl s
    · rename_i h
      split
      · exact like_openLink h
      · rename_i h'
        exact ((like_openLink h).trans (like_openLink h')).trans (.same rfl rfl rfl)

theorem like_openConsumers (s : State) (c : Nat) : Like s (s.openConsumers c) := by
  unfold State.openConsumers
  split
  · exact .refl s
  · refine Like.fold _ (fun s k => ?_) _ s
    split
    · exact .refl s
    · split
      · exact .refl s
      · rename_i h
        exact (like_openLink h).trans (.same rfl rfl rfl)

theorem like_writeRec (s : State) (c : Nat) (r : LogRec) : Like s (s.writeRec c r) := by
  unfold State.writeRec
  simp only
  split
  · exact .same rfl rfl rfl
  · exact .refl s

theorem like_landing (s : State) (c : Nat) :
    Like s (match s.openWindow c 0 .landing (2 ^ 64) true false with
      | .ok (key, t) => t.mapRun c (fun r => { r with landingKey := key })
      | .error _ => s) := by
  split
  · rename_i h
    refine Like.trans ?_ (.same rfl rfl rfl)
    unfold State.openWindow at h
    simp only at h
    split at h
    · cases h
    · split at h
      · cases h
      · cases h; exact .same rfl rfl rfl
  · exact .refl s

theorem openLog_off {s : State} (hv : s.hw.variant.hasMedia = false) (c run : Nat) : s.openLog c run = s := by
  unfold State.openLog; rw [hv]; rfl

theorem like_seatRun {s : State} {c : Nat} (ht : s.txnsOf c = []) (hc : c ≠ 0) (hv : s.hw.variant.hasMedia = false)
    (cfg : RunCfg) (a o : Nat) (seed : Bytes) : Like s (s.seatRun c cfg a o seed []) := by
  have h : s.applyTxns c = s.setTxns c [] := by unfold State.applyTxns; rw [ht]; rfl
  unfold State.seatRun
  rw [h, State.setTxns]
  simp only [List.foldl_nil, if_neg hc]
  rw [openLog_off (by exact hv)]
  refine Like.trans ?_ (.same rfl rfl rfl)
  refine Like.trans ?_ ((like_openPeers _ c).trans (like_openConsumers _ c))
  refine Like.trans ?_ (like_landing _ c)
  refine Like.trans ?_ (Like.fold (fun s v => s.used.setPegs c (Map.put (s.pegsOf c) v ⟨s.freePhys, 0⟩))
    (fun s v => .same rfl rfl rfl) _ _)
  refine Like.trans ?_ (like_writeRec _ c _)
  exact .same rfl rfl rfl

theorem configRun_ok {s : State} {c : Nat} {plain trk seed : Bytes} {cfg : RunCfg} (hc : c ≠ 0)
    (hp : parseRunCfg plain = .ok cfg) (hk : s.rootKey c = some trk) (hr : cfg.replay = false)
    (hid : (s.ctxData c).minRunId ≤ cfg.runId) (hs : (s.ctxData c).seed = some seed)
    (hst : s.runStatus c cfg cfg.firstStep = none) (ht : s.txnsOf c = []) (hq : s.net.qps = [])
    (hv : s.hw.variant.hasMedia = false)
    (hm : ∀ p, p < s.hw.variant.ports → s.fld (fNET_PORT_CFG_MACSEC_EN p) = 1) :
    ∃ u, s.configRun c plain = .ok u := by
  have hl := like_seatRun ht hc hv cfg cfg.firstStep 0 seed
  have hsec : (s.seatRun c cfg cfg.firstStep 0 seed []).runSecure c = true := by
    unfold State.runSecure
    rw [List.all_eq_true]
    intro e he
    have := hl.2.2 (by unfold Ports; rw [hq]; exact fun e h => by cases h) e he
    rw [hl.2.1] at this
    rw [State.fld_congr hl.2.1 hl.1, hm _ this]
    simp
  refine ⟨s.seatRun c cfg cfg.firstStep 0 seed [], ?_⟩
  unfold State.configRun
  simp [hp, hk, hr, hs, hst, hsec, Nat.not_lt.mpr hid]

/-- Context 1 ready for the run of `cfgPlain`, on the variant without media, every port with MACSEC_EN. -/
def runReady : State :=
  let s := keyed (up (shares ++ (List.range 32).map (fun p => (aNET_PORT_CFG p, 0x10))))
  { s with
    hw := { s.hw with variant := .c }
    vocs := [(0, { image := zeros 6 ++ [2#8] ++ zeros 1 ++ toLE 4 257, digest := [], loader := 1 })]
    work := { WorkState.off with images := [(0, { image with profiles := 0x11 })] }
    data := [(1, { CtxData.off with
      seed := some (zeros 32), images := [(0, 0)], binds := [(0, [0])],
      manifests := [(0, { version := 1, total := 10, digest := zeros 48, datasets := [] })] })] }

/-- The sealed blob of `cfgPlain` (kind 9, SEQUENCE 1, the all-zero root key). -/
def cfgBlob : Bytes := toLE 304 (2 ^ 1024 * 0xd25f7b575d554eee7c233a898445c5666d14b392594174c433a335b8888c8b636eb1669f007d145fc496d30c8fe058c4b3832987e730bd292e8c8d4456da774e05827edb25aa1e7ce3ae1994be4d4fa4c34ba6c02d505237b4aef8737ad153cf12428defb12986a5585750ecefc65e0354da634112ba5e160c4941d6417c60ef73f0ec68ccd3336dbc328c341c31b841011bce940b535013630cb8eb04b2059d5c3b0aff9d58cbb138b5fa740d57cca6
  + 0x787515cfa8c8286cf257ddf12208d08794a316e339337236dcf9cc799ffd684f0cf055f6f8321403cec72744f80d8ebd3e289810da49f6f1a61c9888498b2f2cbd2ff45a0ad1b011a1e653b2c82f6bbf76da57037ef6135953c1cf049d661659000000000000000000000000000001000000000000000001010900014c42464f)

def cfgReq : HostReq := request 1 0x10 304 []
def cfgState : State := (asked runReady cfgReq).taken cfgReq

theorem test_cfgBlobOpens : opened cfgBlob = some cfgPlain := by decide +kernel

def cfg10 : RunCfg :=
  { runCfg with
    ranks := [0, 5]
    pack := { pack with lead := 1, raw := slice cfgPlain 64 64 }
    consumers := [{ num := 0, slots := 4, ringAddr := 0, ringKey := 7, stride := 1024, creditAddr := 0, creditKey := 7,
                    gid := zeros 16, qpnBase := 0 }] }

def isCfg (c : RunCfg) : Except Status RunCfg → Bool
  | .ok x => decide (x = c)
  | .error _ => false

theorem test_cfg10 : isCfg cfg10 (parseRunCfg cfgPlain) := by decide +kernel

theorem parse_cfg10 : parseRunCfg cfgPlain = .ok cfg10 := by
  have h := test_cfg10
  unfold isCfg at h
  split at h
  · rename_i hx; rw [hx, of_decide_eq_true h]
  · cases h

theorem met_RunsAndLogsComplete_asked :
    Asked (asked runReady cfgReq) 1 0 0x10 cfgReq ∧ (asked runReady cfgReq).runOf 1 = none
      ∧ blobHeaderOk 1 [9] cfgReq.len cfgBlob := by
  unfold Asked; decide +kernel

theorem met_RunsAndLogsComplete_config :
    ∃ t u, cfgState.takeBlob 1 cfgBlob = .ok (some cfgPlain, t) ∧ t.configRun 1 cfgPlain = .ok u := by
  refine ⟨_, (configRun_ok (cfg := cfg10) (trk := zeros 32) (seed := zeros 32) (by decide) parse_cfg10 ?_ rfl ?_ ?_ ?_ ?_ ?_
    ?_ ?_).elim fun u h => ⟨u, takeBlob_opened (by decide +kernel) rfl test_cfgBlobOpens (by decide +kernel), h⟩⟩
  all_goals decide +kernel
/-! Lanes, engines and shared services: tile 0, lane 0, context 1. -/

def lane0 : State := tiled [] (tileWith running)
def laneRec (x : Lane) : State := tiled [] (tileWith x)
def withStore (r : TileRec) (a : Nat) (b : Bytes) : TileRec := { r with store := Mem.write r.store a b }

/-- A slot record of work slot 0, taken by lane 0. -/
def slotRec : SlotRec := { item := item 1 5 0, taken := 1 }

/-- Descriptor of a call: engine, op, input, output, auxiliary input, the bytes from 32 on. -/
def desc (e op : Nat) (i o a : Nat × Nat) (rest : Bytes) : Bytes :=
  toLE 1 e ++ toLE 1 op ++ zeros 2 ++ toLE 4 i.1 ++ toLE 4 i.2 ++ toLE 4 o.1 ++ toLE 4 o.2 ++ toLE 4 a.1 ++ toLE 4 a.2
    ++ zeros 4 ++ rest ++ zeros (32 - rest.length)

/-- Tickets 0 to 6 are held: ticket 7 is the one that is free. -/
def sevenTickets : Map Ticket := (List.range 7).map (fun k => (k, ⟨0, none⟩))

theorem met_LaneInstructionsComplete :
    Issues lane0 0 0 ∧ lane0.safe = false
    ∧ (let s := laneRec { running with g := [(1, 0x1000#64)] };
      Issues s 0 0 ∧ badAddr (((s.tile 0).lane 0).addr 1 0xFFF0#16) 16 = false
        ∧ s.readOnly 0 (((s.tile 0).lane 0).addr 1 0xFFF0#16) = false ∧ badAddr (((s.tile 0).lane 0).addr 1 0xFFFF#16) 1 = false)
    ∧ (∃ v, fpResult .add .half 0#64 0x3C00#64 0x3C00#64 = some v ∧ fpResult .eq .single 0#64 0#64 0#64 = some 1)
    ∧ ((lane0.tile 0).arriveFault 0 1 (lane0.maskOf 0 1) = none ∧ (lane0.tile 0).arriveFault 0 0 (lane0.maskOf 0 0) = none
        ∧ ((lane0.arrive 0 0 1 (lane0.maskOf 0 1)).tile 0).released 0 1 = some true
        ∧ lane0.laneIssues 0 0 (· == .bar 1 true) ∧ ((lane0.tile 0).lane 0).stall ≠ .bar 1 true)
    ∧ (let s := tiled [] { tileWith { running with arrivals := [(0, 4)], stall := .bar 0 false } with bars := [(0, ⟨0, 5⟩)] };
      s.laneIssues 0 0 (· == .bar 0 false) ∧ (s.tile 0).released 0 0 = some true)
    ∧ notMember (lane0.maskOf 0 0) 0 = false
    ∧ (let s := tiled [] { tileWith { running with g := [(1, 0x1000#64)] } with slots := [(0, slotRec)] };
      Issues s 0 0 ∧ s.heldSlot 0 0 0x1000 = some (0, slotRec) ∧ (((s.tile 0).lane 0).getG 1).toNat = 0x1000)
    ∧ (let x := { running with g := [(1, 3#64)], stall := .ewait 3, tickets := [(3, ⟨0, some (9, stOK)⟩)] };
      let s := laneRec x;
      s.laneIssues 0 0 (· == .ewait 3) ∧ Map.find x.tickets 3 = some ⟨0, some (9, stOK)⟩ ∧ (x.getG 1).toNat = 3)
    ∧ (let x := { running with tickets := [(0, ⟨0, none⟩), (1, ⟨0, some (1, stOK)⟩)] };
      Issues (laneRec x) 0 0 ∧ Map.find x.tickets 0 = some ⟨0, none⟩) := by
  refine ⟨?_, ?_, ?_, ⟨_, rfl, ?_⟩, ?_, ?_, ?_, ?_, ?_, ?_⟩ <;> (try unfold Issues) <;> decide +kernel

/-- WORK.GET: one item waits in the tile, so it is the one chosen. -/
theorem met_workGet :
    let s := tiled [] { tileWith { running with stall := .workGet 4 } with slots := [(1, { slotRec with taken := 0 })] };
    s.safe = false ∧ s.laneIssues 0 0 (· == .workGet 4) ∧ s.tileImage 0 = some image
      ∧ image.kernelOf 0 = some ⟨0, 1000, 1, false, 0⟩ ∧ s.choose (s.tile 0).freeItems = some 1 := by
  refine ⟨rfl, by decide +kernel, rfl, by decide +kernel, ?_⟩
  have h : (State.tile (tiled [] { tileWith { running with stall := .workGet 4 } with
    slots := [(1, { slotRec with taken := 0 })] }) 0).freeItems = [1] := by decide +kernel
  rw [h]
  simp [State.choose, Nat.mod_one]

def engLane : Lane := { running with tickets := sevenTickets, g := [(1, 0x1000#64)] }
def engState : State :=
  tiled [] (withStore (tileWith engLane) 0x1000 (desc 0 1 (0, 0) (0x2000, 8) (0, 0) []))

/-- ENG: seven tickets are held, so the eighth is the one chosen. -/
theorem met_eng :
    engState.safe = false ∧ engState.laneIssues 0 0 (· == .eng)
      ∧ engState.choose ((List.range 8).filter (fun k => !Map.has engLane.tickets k)) = some 7
      ∧ engineKnown 0 ∧ (0x1000 : Nat) + 64 ≤ storeSize ∧ engState.engineAbsent 0 = false
      ∧ descBad ((engState.tileImage 0).elim 0 (·.constEnd)) 0 1 (engState.loadTile 0 0x1000 64) = false
      ∧ (engState.tile 0).foreignOverlap 0 (engState.loadTile 0 0x1000 64) = false := by
  refine ⟨rfl, by decide +kernel, ?_, by decide +kernel, by decide, by decide +kernel, by decide +kernel, by decide +kernel⟩
  have h : (List.range 8).filter (fun k => !Map.has engLane.tickets k) = [7] := by decide +kernel
  rw [h]
  simp [State.choose, Nat.mod_one]

/-- A tile with one call. -/
def callOf (e op : Nat) (d : Bytes) : Call := { seq := 0, lane := 0, ticket := 0, engine := e, op := op, descAddr := 0, desc := d }
def withCall (s : State) (c : Call) : State := s.mapTile 0 (fun r => { r with calls := [c] })

/-- A run of one vocabulary: the image's one bank is bank 0 of VOC_SLOT 0. -/
def vocState (l : List (Nat × Nat)) : State :=
  let s := tiled (vocSlot vbREADY :: l) { tileWith running with slots := [(0, slotRec)] }
  { s with
    vocs := [(0, { image := vocabImage, digest := [], loader := 1 })]
    data := [(1, { CtxData.off with binds := [(0, [0])] })] }

theorem met_EngineCallsComplete :
    (let c := callOf 0 1 (desc 0 1 (0, 0) (0x2000, 8) (0, 0) (toLE 8 (handle1 0)));
      let s := withCall (withChain lane0 (chain 0 agTILE 0)) c;
      Called s 0 0 1 c ∧ isOk (s.findChain (s.tileCtx 0) (fieldAt c.desc 32 8) none) ∧ fieldAt c.desc 40 8 + 8 ≤ 0x1000)
    ∧ (let c := callOf 0 2 (desc 0 2 (0x2000, 8) (0, 0) (0, 0) (toLE 8 (handle1 0)));
      let s := withCall (withChain lane0 (chain 0 agTILE 0)) c;
      Called s 0 0 2 c ∧ isOk (s.findChain (s.tileCtx 0) (fieldAt c.desc 32 8) (some (agTILE, 0))))
    ∧ (let c := callOf 1 1 (desc 1 1 (0x2000, 4) (0x3000, 4) (0, 0) (toLE 8 1 ++ toLE 4 4));
      let s := withCall lane0 c; Called s 0 1 1 c ∧ fieldAt c.desc 40 4 ≤ (descOut c.desc).2)
    ∧ (let c := callOf 2 3 (desc 2 3 (0x2000, 4) (0x3000, 64) (0, 0) (toLE 1 2)); Called (withCall lane0 c) 0 2 3 c)
    ∧ (let c := callOf 2 1 (desc 2 1 (0x2000, 4) (0x3000, 64) (0, 0) (toLE 1 2)); Called (withCall lane0 c) 0 2 1 c)
    ∧ (let c := callOf 2 2 (desc 2 2 (0x2000, 4) (0x3000, 64) (0, 0) (toLE 1 2)); Called (withCall lane0 c) 0 2 2 c)
    ∧ (let c := callOf 3 1 (desc 3 1 (0x2000, 4) (0x3000, 64) (0, 0) []); Called (withCall lane0 c) 0 3 1 c)
    ∧ (let c := callOf 3 2 (desc 3 2 (0x2000, 4) (0x3000, 64) (0, 0) []); Called (withCall lane0 c) 0 3 2 c)
    ∧ (let c := callOf 5 1 (desc 5 1 (0x2000, 4) (0x3000, 64) (0, 0) []); Called (withCall lane0 c) 0 5 1 c)
    ∧ (let c := callOf 5 0x10 (desc 5 0x10 (0x2000, 4) (0x3000, 64) (0, 0) (toLE 8 0 ++ toLE 4 0x1000));
      let s := withCall (vocState []) c;
      Called s 0 5 0x10 c ∧ s.tileImage 0 = some image ∧ s.callItem 0 c = some (item 1 5 0) ∧ (descAux c.desc).2 = 0)
    ∧ (let c := callOf 5 0x11 (desc 5 0x11 (0x2000, 4) (0x3000, 64) (0, 0) (toLE 8 0 ++ toLE 4 0x1000));
      let s := withCall (vocState []) c;
      Called s 0 5 0x11 c ∧ s.callItem 0 c = some (item 1 5 0) ∧ (descAux c.desc).2 = 0)
    ∧ (let rect := toLE 2 0 ++ toLE 2 0 ++ toLE 2 16 ++ toLE 2 16;
      let c := callOf 0x15 1 (desc 0x15 1 (0, 0) (0, 0) (0x2000, 16) []);
      let s := withCall (withChain (tiled [] (withStore (tileWith running) 0x2000 (rect ++ toLE 8 (handle1 2)))) (chain 2 agTILE 0)) c;
      Called s 0 0x15 1 c ∧ 8 ≤ (s.auxBytes 0 c).length
        ∧ s.handlesErr (s.tileCtx 0) (handle1 2 :: handleList ((s.auxBytes 0 c).drop 8)) = none)
    ∧ (up []).hw.variant.hasVdc := by
  refine ⟨?_, ?_, ?_, ?_, ?_, ?_, ?_, ?_, ?_, ?_, ?_, ?_, ?_⟩ <;> (try unfold Called) <;> decide +kernel

/-- A stored block of raw DEFLATE with the bytes 0x41 0x42. -/
def storedBlock : Bytes := [1#8, 2#8, 0#8, 0xFD#8, 0xFF#8, 0x41#8, 0x42#8]

theorem met_hubDecompress :
    let c := callOf 0x14 1 (desc 0x14 1 (0, 0) (0, 0) (0x2000, 8) (toLE 8 (handle1 2) ++ toLE 4 0 ++ toLE 4 7 ++ toLE 4 2
      ++ toLE 1 1));
    let ch := { chain 2 agTILE 0 with bytes := Mem.write [] 0 storedBlock };
    let s := withCall (withChain (tiled [] (withStore (tileWith running) 0x2000 (toLE 8 (handle1 2)))) ch) c;
    Called s 0 0x14 1 c ∧ handleList (s.auxBytes 0 c) = [handle1 2] ∧ (descAux c.desc).2 % 8 = 0
      ∧ s.handlesErr (s.tileCtx 0) (handle1 2 :: [handle1 2]) = none
      ∧ decodeCodec (some (2 ^ 27)) (fieldAt c.desc 52 1) (s.readHandle (handle1 2) 0 7) 2
        = { status := stOK, len := 2, out := [0x41#8, 0x42#8] } := by
  unfold Called; decide +kernel

theorem met_tokens :
    (let c := callOf 4 1 (desc 4 1 (0x2000, 4) (0x3000, 64) (0, 0) (toLE 1 0 ++ toLE 1 15));
      let s := withCall (vocState []) c;
      Called s 0 4 1 c ∧ (s.boundBanks 0)[fieldAt c.desc 32 1]? = some 0
        ∧ Map.find s.vocs 0 = some { image := vocabImage, digest := [], loader := 1 } ∧ fieldAt c.desc 33 1 < 16
        ∧ (descAux c.desc).2 = 0 ∧ s.bankState 0 ≠ 3)
    ∧ (let c := callOf 4 2 (desc 4 2 (0x2000, 4) (0x3000, 64) (0x2800, 8) (toLE 1 0 ++ toLE 1 7));
      let s := withCall (vocState []) c;
      Called s 0 4 2 c ∧ (s.boundBanks 0)[fieldAt c.desc 32 1]? = some 0 ∧ fieldAt c.desc 33 1 < 8 ∧ (descAux c.desc).2 = 8
        ∧ (descIn c.desc).2 % 2 = 0 ∧ holdOk (s.auxBytes 0 c)) := by
  refine ⟨?_, ?_⟩ <;> unfold Called <;> decide +kernel

/-- A tile's service call, with chain 0 of the tile, peg 4 mapped with value 2, DBAR 4 of tiles 0 and 1. -/
def services (caps : List (Nat × Nat)) : State :=
  { withChain (tiled caps (tileWith running)) (chain 0 agTILE 0) with
    sync := { SyncState.off with pegs := [(1, [(4, { phys := 0, value := 2 })])], bars := [(1, [(4, dbar)])] } }

def service (e op : Nat) (out : Nat) (rest : Bytes) : Call := callOf e op (desc e op (0, 0) (0x3000, out) (0, 0) rest)

/-- INK_CAPn of context 1: 4 buffers of each class. -/
def caps : List (Nat × Nat) := [(aINK_CAPn 1, 4 * 2 ^ 40 + 4 * 2 ^ 20 + 4)]

theorem met_SharedServicesComplete :
    (let c := service 0x10 1 8 (zeros 8 ++ toLE 1 0 ++ zeros 1 ++ toLE 2 2); let s := withCall (services caps) c;
      Called s 0 0x10 1 c ∧ unusedZero c.desc [(40, 1), (42, 2)] ∧ allocArgsOk (fieldAt c.desc 40 1) (fieldAt c.desc 42 2)
        ∧ isOk (s.alloc 1 0 2 agTILE 0) ∧ 8 ≤ (descOut c.desc).2 ∧ isOk (s.alloc 1 2 1 agEXCHANGE 0) ∧ allocArgsOk 2 2048)
    ∧ (let c := service 0x10 2 0 (toLE 8 (handle1 0) ++ toLE 1 0 ++ zeros 1 ++ toLE 2 2); let s := withCall (services caps) c;
      Called s 0 0x10 2 c ∧ unusedZero c.desc [(32, 8), (40, 1), (42, 2)]
        ∧ s.findChain 1 (handle1 0) (some (agTILE, 0)) = .ok (0, chain 0 agTILE 0)
        ∧ isOk (s.extend 1 0 (chain 0 agTILE 0) 0 2))
    ∧ (let c := service 0x10 3 0 (toLE 8 (handle1 0)); let s := withCall (services []) c;
      Called s 0 0x10 3 c ∧ (s.tile 0).accesses (handle1 0) = false ∧ unusedZero c.desc [(32, 8)])
    ∧ (let c := service 0x10 4 0 (toLE 8 (handle1 0) ++ zeros 4 ++ toLE 1 agDISPATCH); let s := withCall (services []) c;
      Called s 0 0x10 4 c ∧ unusedZero c.desc [(32, 8), (44, 1)] ∧ laneMayGive agDISPATCH ∧ laneMayGive agPACKER)
    ∧ (let s := withChain (up []) (chain 0 agFETCH 0); s.findChain 1 (handle1 0) (some (7, 0)) = .ok (0, chain 0 agFETCH 0))
    ∧ (let c := service 0x10 5 10 (toLE 8 (handle1 0)); let s := withCall (services []) c;
      Called s 0 0x10 5 c ∧ s.findChain 1 (handle1 0) none = .ok (0, chain 0 agTILE 0) ∧ 10 ≤ (descOut c.desc).2)
    ∧ (let s := { up [] with ink := { InkState.off with pools := [(2, { fresh := 0, ring := [], cache := [], scrub := [5, 6] })] } };
      s.safe = false ∧ (s.pool 2).scrub = [5, 6])
    ∧ (let c := service 0x11 1 0 (toLE 2 4 ++ zeros 2 ++ toLE 4 0xFFFFFFFD); let s := withCall (services []) c;
      Called s 0 0x11 1 c ∧ unusedZero c.desc [(32, 2), (36, 4)] ∧ fieldAt c.desc 36 4 ≠ 0
        ∧ s.peg 1 4 = some { phys := 0, value := 2 } ∧ 2 + fieldAt c.desc 36 4 ≤ 0xFFFFFFFF)
    ∧ (let c := service 0x11 2 0 (toLE 2 4 ++ zeros 2 ++ toLE 4 2); let s := withCall (services []) c;
      Called s 0 0x11 2 c ∧ unusedZero c.desc [(32, 2), (36, 4)] ∧ fieldAt c.desc 36 4 ≤ 2)
    ∧ (let c := service 0x11 3 4 (toLE 2 4); let s := withCall (services []) c;
      Called s 0 0x11 3 c ∧ unusedZero c.desc [(32, 2)] ∧ 4 ≤ (descOut c.desc).2)
    ∧ (let c := service 0x11 4 0 (toLE 2 4 ++ zeros 2 ++ toLE 4 0); let s := withCall (services []) c;
      Called s 0 0x11 4 c ∧ unusedZero c.desc [(32, 2), (36, 4)])
    ∧ (let c := service 0x12 1 0 (toLE 2 4 ++ toLE 1 1); let s := withCall (services []) c;
      Called s 0 0x12 1 c ∧ unusedZero c.desc [(32, 2), (34, 1)] ∧ isOk (s.dbarArrive 1 0 4 true))
    ∧ (let c := service 0x12 2 0 (toLE 2 4 ++ toLE 1 0); let s := withCall (services []) c;
      Called s 0 0x12 2 c ∧ unusedZero c.desc [(32, 2), (34, 1)] ∧ Map.find (s.barsOf 1) 4 = some dbar
        ∧ dbar.sense = (fieldAt c.desc 34 1 == 1)) := by
  refine ⟨?_, ?_, ?_, ?_, ?_, ?_, ?_, ?_, ?_, ?_, ?_, ?_, ?_⟩ <;> (try unfold Called) <;> decide +kernel
/-! Tiles and work. -/

/-- A run with RUN_ID 9 of ranks 0 (this device), seated with a manifest of one dataset of one extent and an image. -/
def dataset : DatasetEnt :=
  { id := 4, sizeLog2 := 22, gen := 1, count := 2, base := 0, extents := [{ first := 0, count := 1, used := 112 }],
    pods := [{ pod := 0, mask := 0x3F }] }

def manifest : ManifestRec := { version := 1, total := 2, digest := zeros 48, datasets := [dataset] }

def content (r : RunRec) : CtxData :=
  { seatedRun r with seed := some (zeros 32), manifests := [(0, manifest)], images := [(0, 0)], binds := [(0, [0])] }

/-- Tile 0 READY for the run, without work. -/
def worker (l : List (Nat × Nat)) (d : CtxData) : State :=
  { tiled (l ++ idleRegs.filter (fun e => e.1 != aTILE_STATE 0)) (tileWith running) with data := [(1, d)] }

/-- A load split with one item out. -/
def splitOf : SplitRec := { enabled := true, level := 1, pendingOn := none, sent := [(item 1 5 0, 10 ^ 12)], late := 0, badAuth := 0 }

def diceJob (x : Nat) : DiceJob := { ctx := 1, step := 12, place := 0, epoch := 0, k := 2, count := 2, x := x, unit := 3 }

/-- Tile 0 in a state, as given. -/
def tileIn (st : Nat) (r : TileRec) (d : CtxData) : State :=
  { up (seated 0 1 st :: idleRegs.filter (fun e => e.1 != aTILE_STATE 0)) with
    tiles := [(0, r)], data := [(1, d)], work := { WorkState.off with images := [(0, image)] } }

theorem met_TilesAndWorkComplete :
    (let s := { worker [locked 0] (content run) with work := { WorkState.off with images := [(0, image)], queued := [item 1 5 0] } };
      s.safe = false ∧ s.queueArrived 1 = s ∧ s.seatedTo 1 0 ∧ s.tileState 0 = tsREADY ∧ (s.openSlots 0).contains 1
        ∧ s.flt.withheld.contains 0 = false ∧ s.quarterRuns (quarterOf 0) ∧ s.hasCredit (quarterOf 0) false 2
        ∧ s.nextItem 0 = some (item 1 5 0) ∧ s.splits (item 1 5 0) = false)
    ∧ (let s := { up (caps ++ idleRegs) with work := { WorkState.off with split := [(1, splitOf)] } , data := [(1, content run)] };
      s.safe = false ∧ (s.splitRec 1).sent.find? (fun e => e.1.id == 1) = some (item 1 5 0, 10 ^ 12)
        ∧ isOk (s.allocBytes 1 5000 agHOST) ∧ s.runOf 1 = some run ∧ 10 ^ 12 + run.cfg.splitTimeout ≤ s.dtime)
    ∧ (let s := tileIn tsSEATED TileRec.off (content run);
      s.safe = false ∧ s.tileState 0 = tsSEATED ∧ s.targetImage (s.tileCtx 0) = some 0)
    ∧ (let s := tileIn tsLOADING { TileRec.off with nextImage := some 0 } (content run);
      s.tileState 0 = tsLOADING ∧ (s.tile 0).nextImage = some 0 ∧ s.imageRec 0 = some image)
    ∧ (let s := tileIn tsREADY { TileRec.off with image := some 1 } (content run);
      s.tileState 0 = tsREADY ∧ s.changeTo 0 = some 0)
    ∧ (let s := tileIn tsDRAINING { TileRec.off with image := some 1, drainAt := 10 ^ 13 - 1000000 } (content run);
      s.safe = false ∧ s.tileState 0 = tsDRAINING ∧ (s.tile 0).items = [] ∧ (s.tile 0).drainAt + 1000000 ≤ s.dtime)
    ∧ (let s := tileIn tsSCRUB { TileRec.off with drainFor := .reset } (content run);
      s.tileState 0 = tsSCRUB ∧ (s.tile 0).drainFor = .reset)
    ∧ (let s := tileIn tsSCRUB TileRec.off (content run); s.tileState 0 = tsSCRUB ∧ (s.tile 0).drainFor ≠ .reset)
    ∧ ((up []).tilePresent 95 ∧ (up []).reaches 0 ∧ (up []).mod.recovery = false ∧ (up []).fld (fTILE_CTRL_FENCE_REQ 95) ≠ 1)
    ∧ (up [vocSlot vbREADY]).fld (fBankState 0 0) = vbREADY
    ∧ (let s := up [(aDICE_CTRL, 8)];
      s.safe = false ∧ bitOf (s.fld fDICE_CTRL_FENCE_REQ) 3 ∧ s.dice.any (fun j => j.unit == 3) = false) := by
  refine ⟨?_, ?_, ?_, ?_, ?_, ?_, ?_, ?_, ?_, ?_, ?_⟩ <;> decide +kernel

/-- The Throw of seed zero, epoch 0 and domain 2^2 takes place 0 to 1: below a COUNT of 2, not below a COUNT of 1. -/
theorem met_diceEvaluation :
    (let s := { up [] with data := [(1, content run)], dice := [diceJob 0, { diceJob 1 with unit := 2 }] };
      s.safe = false ∧ s.diceFenced 3 = false ∧ s.dice.find? (fun j => j.unit == 3) = some (diceJob 0)
        ∧ s.diceResult (diceJob 0) = some 1 ∧ (1 : Nat) < (diceJob 0).count ∧ { diceJob 0 with count := 1 }.count ≤ 1) := by
  decide +kernel

/-- Extent 0 of `dataset`: one record of no bytes, encrypted under the dataset key of the all-zero root key. -/
def extentKey : Bytes := toLE 64 0x2cab070ae4e63b4b596c9fb8d67535482e588144686026e158444ca0062be7db220315dc6a8fe23b24f031bf163e25757151066b8a9b05faf10d71417847c229
def extentBytes : Bytes := toLE 112 (2 ^ 448 * 0x882323b6fdba569bd4226380531f5eac3a9df239650ada82daa4174aa04438bc45da86b8b592c1c2c9ebe7b60246151cfc3d2cd32f7d1c55
  + 0x2d0390c793f8ccc7827a3c647c56d2b9d90019bd0f4518f662b56dc49709caec3e186b93bb295388952da23fdb193ad92a580e5c46dede29)
def record0 : Bytes := zeros 17 ++ [6#8] ++ zeros 6 ++ [242#8, 16#8, 207#8, 33#8, 128#8, 40#8, 32#8, 117#8]

theorem test_extentKey : kDataset (zeros 32) 4 1 = extentKey := by decide +kernel
theorem test_extentDecrypts : checkSample extentKey dataset 0 extentBytes [] = some record0 := by decide +kernel

def extentFrag : Frag :=
  { tag := 1, stripe := 0, num := 0, ctx := 1, dataset := 4, gen := 1, pods := dataset.pods, extents := 1, data := extentBytes,
    lost := [] }

def fetching : State :=
  { keyed (up ((aMED_STATUS, msREADY) :: caps)) with
    data := [(1, content { run with fetches := [{ step := 12, place := 0, index := 0 }] })]
    media := { MediaState.off with frags := [extentFrag] } }

theorem met_sampleFetch :
    fetching.safe = false ∧ (fetching.runOf 1).isSome ∧ (fetching.ctxData 1).manifestAt 12 = some manifest
      ∧ fetching.mediaServes ∧ manifest.datasetOf 0 = some dataset ∧ isOk (fetching.allocBytes 1 0 agFETCH)
      ∧ (fetching.itemFor 1 12 0 0 (handle1 0) record0 false (fetching.ownerSite 1 12)).isSome := by
  decide +kernel

theorem fetch_clean {s : State} {ctx g : Nat} {m : DatasetEnt} {trk d1 d2 r : Bytes} {f : Frag} (hk : s.rootKey ctx = some trk)
    (hf : s.fragAt ctx m.id m.gen (m.extentOf (g - m.base) / 10) (m.extentOf (g - m.base) % 10) = some f)
    (hc : checkSample (kDataset trk m.id m.gen) m g f.data d1 = some r) : s.fetchSample ctx m g d1 d2 none = .clean r := by
  unfold State.fetchSample
  simp [hk, hf, hc]

theorem met_sampleClean : fetching.fetchSample 1 dataset 0 [] [] none = .clean record0 := by
  have hc : checkSample (kDataset (zeros 32) 4 1) dataset 0 extentBytes [] = some record0 := by
    rw [test_extentKey]; exact test_extentDecrypts
  exact fetch_clean (f := extentFrag) (by decide +kernel) (by decide +kernel) hc
/-! Network, steps and delivery. -/

/-- The timeline in a state, with steps 9 and 10 accepted and step 11 due now: period 0.1 s, LATE_LIMIT 2, EXTRAP_MAX 3. -/
def timed (st : Nat) (l : List (Nat × Nat)) : State :=
  { up ([(aSTEP_STATUS, st * 2 ^ 8), (aSTEP_LAST, 10), (aSTEP_PERIOD, 10 ^ 8), (aSTEP_CFG, 3 * 2 ^ 24 + 2 * 2 ^ 16 + 2 * 2 ^ 8)] ++ l) with
    clk := { StepState.off with
      history := [(9, 10 ^ 13 - 2 * 10 ^ 8), (10, 10 ^ 13 - 10 ^ 8)], computeLen := 6 * 10 ^ 7, uncert := some 100
      syncAt := some (10 ^ 13 - 1000), syncInterval := 10 ^ 9, uncertainAt := 10 ^ 13 - 1000 } }

/-- Gate plan entry 0: TC1, from 0 µs for 1 ms, port 0; time quality GOOD. -/
def gated : State := timed tlLOCKED [(aSTEP_GATE_PLANn 0, 2 ^ 63 + 1 * 2 ^ 60 + 1000), (aSTEP_GATE_PORTSn 0, 1)]

def gate0 : GateEntry := { cls := 1, start := 0, len := 1000000, ports := 1 }

/-- A frame received on subport 0 of port 0. -/
def rxFrame (cls : Nat) (tag : Option (Nat × Bool)) (b : RxBody) : RxFrame := { port := 0, sub := 0, cls := cls, tag := tag, body := b }

def received (s : State) (f : RxFrame) : State := { s with net := { s.net with ingress := [f] } }

/-- Port 0 with its link up, MACSEC_EN and PFC_EN and a link key; MACsec state of subport 0 as given. -/
def linked (m : Nat) : State :=
  up [(aNET_PORT_CFG 0, 0x30), (aNET_PORT_STATUS 0, m * 256 + 1), (aSEC_STATUS, 2), (aNET_TC_PCP, 0)]

def arrivedQp (q : Qp) (p : Pkt) : State := received (withQp (linked 2) q) (rxFrame 3 none (.rdma true p))

def frame0 : EgFrame := { port := 0, sub := 0, cls := 4, ctx := 0, qp := none, bytes := 256, at_ := 0, body := .ptp [] }

def reading : Qp :=
  { client .rts with
    sends := [{ what := .read 0 7 8, owner := .plain, issued := true, psn := 5, count := 1, got := [] }], unacked := 5, nextPsn := 6 }

/-- What the spec asks of a packet before it is handled, the existentials given. -/
theorem arrived_of {s : State} {p : Pkt → Bool} {x : Pkt} {i : Nat} {q : Qp} (f : RxFrame) (hs : s.safe = false) (hp : p x = true)
    (ht : s.net.ingress = [f]) (hport : f.port = 0) (hsub : f.sub = 0) (hb : f.body = .rdma true x)
    (hc : RxBody.carries p f.body = true)
    (hq : s.findQpn x.qpn = some (i, q)) (h1 : q.state ≠ .init) (h2 : q.state ≠ .err) (h3 : q.sealed = false) :
    Arrived s 0 0 p x i q { s with net := { s.net with ingress := [] } } := by
  refine ⟨hs, hp, f, { s with net := { s.net with ingress := [] } }, q, ?_, hb, hq, h1, h2, Or.inl ⟨h3, rfl, rfl⟩⟩
  unfold State.takeRx
  simp [ht, hport, hsub, hc]

theorem met_NetworkCompletes :
    (let s := received (linked 2) (rxFrame 4 none .ptp);
      s.safe = false ∧ s.groupSwitches 0 = false ∧ (s.takeRx 0 0 (· == .ptp)).isSome)
    ∧ (gated.safe = false ∧ gated.clk.uncertainAt + 1000 ≤ gated.dtime)
    ∧ (let s := { gated with dtime := 10 ^ 13 + 1000 };
      s.gatesRun ∧ s.subPresent 0 0 ∧ s.gateEntry 0 = some gate0 ∧ s.gateStep = some 11
        ∧ s.nominalGate gate0 11 = some (10 ^ 13, 10 ^ 13 + 1000000)
        ∧ s.effectiveGate gate0 11 = some (10 ^ 13 + 1100, 10 ^ 13 + 998900))
    ∧ (let s := { gated with dtime := 10 ^ 13 + 1100 };
      s.safe = false ∧ s.gatesRun ∧ s.gateStep = some 11 ∧ bitOf gate0.ports 0 ∧ 10 ^ 13 + 1100 ≤ s.dtime
        ∧ s.net.skipped.contains (0, 0, 11) = false ∧ Map.has s.net.gates 0 = false
        ∧ 2 * s.guard 0 ≤ 10 ^ 13 + 998900 - (10 ^ 13 + 1100) ∧ s.fld fSTEP_STATUS_TIME ≠ 2)
    ∧ (let g : OpenGate := { entry := 0, cls := 1, step := 11, close := 10 ^ 13, lastStart := 10 ^ 13 - 50 };
      let s := { gated with net := { NetState.off with gates := [(0, g)] } };
      Map.find s.net.gates (subKey 0 0) = some g ∧ g.close ≤ s.dtime)
    ∧ (let s := { linked 2 with net := { NetState.off with egress := [frame0] } };
      s.subPresent 0 0 ∧ s.linkUp 0 0 ∧ Map.getD s.net.busyUntil (subKey 0 0) 0 ≤ s.dtime ∧ s.nextFrame 0 0 = some frame0)
    ∧ (gated.portPresent 31 ∧ Map.getD gated.net.sampledAt 31 0 + gated.sampleNs ≤ gated.dtime)
    ∧ (gated.startOf (gated.fld fSTEP_LAST_STEP + 1) = some (10 ^ 13)
        ∧ Map.find gated.net.summarised 0 ≠ some (gated.fld fSTEP_LAST_STEP))
    ∧ ((linked 0).macsec 0 0 ≠ 2)
    ∧ (let s := received (linked 2) (rxFrame 0 none (.pfc 0 100));
      (s.takeRx 0 0 RxBody.isPfc).isSome ∧ s.fld (fNET_PORT_CFG_PFC_EN 0) = 1 ∧ (0 : Nat) = s.pcp0)
    ∧ (let s := (linked 2).setSub 0 0 { discards := [], pausedUntil := some 5 };
      s.safe = false ∧ (s.subState 0 0).pausedUntil = some 5 ∧ 5 ≤ s.dtime)
    ∧ (let s := received (linked 1) (rxFrame 7 none (.mka []));
      (s.takeRx 0 0 RxBody.isMka).isSome ∧ s.fld (fNET_PORT_CFG_MACSEC_EN 0) ≠ 0 ∧ s.fld fSEC_STATUS_LINK_KEY ≠ 0)
    ∧ (let s := up [(aNET_PORT_CFG 0, 0x30), (aNET_PORT_STATUS 0, 0)];
      s.safe = false ∧ s.subPresent 0 0 ∧ s.linkUp 0 0 = false ∧ 4 ≤ s.mod.booted ∧ s.groupSwitches 0 = false)
    ∧ (let s := withQp (linked 2) { client .rts with coalesce := some 5 };
      s.qp 3 = some { client .rts with coalesce := some 5 })
    ∧ (let q := { client .rts with timer := some 5 }; let s := withQp (linked 2) q;
      s.qp 3 = some q ∧ 5 + q.timeoutNs ≤ s.dtime ∧ q.retries < q.retryCnt)
    ∧ (let s := withQp (linked 2) (client .err); s.qp 3 = some (client .err) ∧ (client .err).flushed = false) := by
  refine ⟨?_, ?_, ?_, ?_, ?_, ?_, ?_, ?_, ?_, ?_, ?_, ?_, ?_, ?_, ?_, ?_⟩ <;> decide +kernel

/-- Packets of a client queue pair: an RDMA WRITE into a mailbox window, a READ of a chain, a response, an Acknowledge. -/
def writePkt : Pkt := .write 0x4003 0 true true (some (0, keyOf 2 5, 1)) none [9#8]
def readPkt : Pkt := .readReq 0x4003 0 0 (keyOf 2 5) 64
def writeState : State := withWindow (arrivedQp (client .rts) writePkt) (window1 .mailbox none)
def readState : State :=
  withChain (withWindow (arrivedQp (client .rts) readPkt) (window1 (.handle (handle1 0)) none)) (chain 0 agHOST 0)
def respState : State := arrivedQp reading (.readResp 0x4003 5 true [1#8, 2#8, 3#8, 4#8, 5#8, 6#8, 7#8, 8#8])
def ackState : State := arrivedQp reading (.ack 0x4003 5 .ack)

theorem met_arrived :
    Arrived writeState 0 0 Pkt.isWrite writePkt 3 (client .rts) { writeState with net := { writeState.net with ingress := [] } }
    ∧ Arrived readState 0 0 Pkt.isReadReq readPkt 3 (client .rts) { readState with net := { readState.net with ingress := [] } }
    ∧ Arrived respState 0 0 Pkt.isReadResp (.readResp 0x4003 5 true [1#8, 2#8, 3#8, 4#8, 5#8, 6#8, 7#8, 8#8]) 3 reading
        { respState with net := { respState.net with ingress := [] } }
    ∧ Arrived ackState 0 0 Pkt.isAck (.ack 0x4003 5 .ack) 3 reading { ackState with net := { ackState.net with ingress := [] } } :=
  ⟨arrived_of (rxFrame 3 none (.rdma true writePkt)) rfl rfl rfl rfl rfl rfl rfl (by decide +kernel) (by decide) (by decide)
      (by decide),
    arrived_of (rxFrame 3 none (.rdma true readPkt)) rfl rfl rfl rfl rfl rfl rfl (by decide +kernel) (by decide) (by decide)
      (by decide),
    arrived_of (rxFrame 3 none _) rfl rfl rfl rfl rfl rfl rfl (by decide +kernel) (by decide) (by decide) (by decide),
    arrived_of (rxFrame 3 none _) rfl rfl rfl rfl rfl rfl rfl (by decide +kernel) (by decide) (by decide) (by decide)⟩

theorem met_packets :
    (psnOrder (client .rts).ePsn 0 = .inOrder
      ∧ writeState.accessOk (client .rts) (keyOf 2 5) 0 1 false = some (window1 .mailbox none)
      ∧ (writeState.place (window1 .mailbox none) 0 [9#8]).isSome)
    ∧ (readState.heldReads 3 < (client .rts).respDepth
      ∧ readState.accessOk (client .rts) (keyOf 2 5) 0 64 true = some (window1 (.handle (handle1 0)) none))
    ∧ reading.sends.findIdx? (fun r => r.awaits 5 reading.pmtu) = some 0 := by
  refine ⟨?_, ?_, ?_⟩ <;> decide +kernel

/-- A group of target step 12 whose one exchange failed (KIND 2), complete; a row of step 10; the consumer's credit. -/
def group12 : GroupRec :=
  { step := 12, consumer := 0, grp := 0, ordinal := 0, indices := [(0, 0)],
    localIn := [(0, { kind := 2, handle := handle1 0, len := 0, header := [] })], items := [], packed := false, failed := false,
    handles := [] }

def row10 (ph : RowPhase) : RowRec :=
  { step := 10, consumer := 0, row := 0, seq := 3, header := zeros 64, payload := zeros 256, phase := ph, pend := 0,
    handle := handle1 0 }

def working (rows : List RowRec) (cr : Credit) : RunRec :=
  { run with cfg := cfg10, groups := [group12], rows := rows, credits := [(0, cr)] }

def credit (r : Option Nat) (asked at' : Nat) : Credit := { released := r, asked := asked, reading := false, readAt := at' }

def stepping (st : Nat) (r : RunRec) : State :=
  { timed st [] with
    data := [(1, seatedRun r)], sync := { SyncState.off with pegs := [(1, [(0, { phys := 0, value := 1 })])] } }

def beaconBytes : Bytes :=
  let b := toLE 4 0x4253464F ++ toLE 2 1 ++ toLE 2 0 ++ toLE 8 11 ++ toLE 8 (10 ^ 13) ++ toLE 8 (6 * 10 ^ 7) ++ toLE 2 0 ++ zeros 14
  b ++ toLE 8 (crc64 b) ++ zeros 8

def beaconed : State :=
  { timed tlLOCKED [] with
    net := { NetState.off with
      messages := [{ kind := 0, ctx := 0, addr := 0, port := 0, qp := 3 }]
      winMem := [(winMemKey 0 0, Mem.write [] 0 beaconBytes)] } }

def isReady : PosCheck → Bool
  | .ready _ _ => true
  | _ => false

theorem met_StepsAndDeliveryComplete :
    (beaconed.safe = false ∧ (beaconed.takeMessage 0 none).isSome ∧ beaconed.winBytes 0 0 0 64 = beaconBytes
        ∧ beaconed.beaconFormatOk beaconBytes 0)
    ∧ (let s := timed tlLOCKED [];
      s.timeline = tlLOCKED ∧ s.startOf 11 = some (10 ^ 13) ∧ s.newest = some (10, 10 ^ 13 - 10 ^ 8)
        ∧ 10 ^ 13 + s.grace ≤ s.dtime)
    ∧ (let s := stepping tlLOCKED run; s.safe = false ∧ s.runOf 1 = some run ∧ s.setComplete (s.ctxData 1) run run.nextSet)
    ∧ (let r := working [row10 .packed] (credit none 0 0); let s := stepping tlLOCKED r;
      s.runOf 1 = some r ∧ s.timeline ≠ tlPAUSED ∧ r.exempt < 10 ∧ r.unstamped 10 ∧ s.passed 10
        ∧ s.fld fSTEP_CFG_LATE_LIMIT ≠ 0 ∧ r.late.contains 10 = false ∧ s.passed (10 + s.fld fSTEP_CFG_LATE_LIMIT) = false)
    ∧ (let s := { timed tlPAUSED [] with dtime := 10 ^ 13 + 10 ^ 8 }; s.safe = false ∧ s.timeline = tlPAUSED ∧ s.ungated)
    ∧ (let r := working [] (credit none 0 0); let s := stepping tlLOCKED r;
      s.queueArrived 1 = s
        ∧ r.groups.find? (fun g => g.step == 12 && g.consumer == 0 && g.grp == 0) = some group12
        ∧ ((s.peg 1 (r.cfg.groupPeg (12 - r.cfg.firstStep) group12.ordinal)).map (·.value)).getD 0 = 1
        ∧ (r.cfg.pack.group * r.cfg.pack.q = 1) ∧ isReady (s.checkPos 1 r group12 0))
    ∧ (let d := doneItem (item 1 12 0) 0;
      let s := { stepping tlLOCKED (working [] (credit none 0 0)) with work := { WorkState.off with returned := [d] } };
      (s.runOf 1).isSome ∧ s.work.returned.find? (fun d => d.item.ctx == 1 && d.item.id == 1 && !d.item.ownerSite) = some d)
    ∧ (let c := callOf 0x13 1 (desc 0x13 1 (0, 0) (0, 0) (0, 0) []); let s := withCall (withChain lane0 (chain 0 agTILE 0)) c;
      (s.safe = false ∧ s.headCall 0 0x13 = some c ∧ c.op = 1)
        ∧ s.findChain (s.tileCtx 0) (handle1 0) (some (agTILE, 0)) = .ok (0, chain 0 agTILE 0))
    ∧ (let r := working [row10 .packed] (credit none 0 0);
      (r.credit 0).reading = false ∧ (r.blocked 0).any (fun w => (r.credit 0).asked ≤ w.seq))
    ∧ (let r := working [row10 .packed] (credit (some 0) 4 5); let r := { r with rows := [{ row10 .packed with seq := 4 }] };
      (r.credit 0).reading = false ∧ r.blocked 0 ≠ [] ∧ 0 < (r.credit 0).asked
        ∧ (r.credit 0).readAt + r.cfg.pack.creditPoll ≤ (timed tlLOCKED []).dtime)
    ∧ (let r := working [row10 .packed] (credit (some 0) 1 0);
      r.rows.find? (fun w => w.step == 10 && w.consumer == 0 && w.row == 0) = some (row10 .packed)
        ∧ r.creditOk (row10 .packed) ∧ (row10 .payload).pend = 0 ∧ (row10 .header).phase = .header)
    ∧ (let r := working [row10 .stamped] (credit none 0 0);
      r.aborted = none ∧ r.nextCommit ≤ 10 ∧ 10 < r.nextPlan ∧ r.reported.contains 10 = false ∧ r.unstamped 10 = false) := by
  refine ⟨?_, ?_, ?_, ?_, ?_, ?_, ?_, ?_, ?_, ?_, ?_, ?_⟩ <;> decide +kernel
/-! The Ledger and media. -/

/-- A variant A part with READY media in MPS0; a media share of 1 GB for context 1. -/
def mediaReady : State := up [(aMED_STATUS, msREADY), (aCTX_SHARE3 1, 2 ^ 63 - 1), (aLDG_STATUS, 0)]

def task (op : Nat) (len : Nat) : TaskRec :=
  { opcode := op, flags := 0, tag := 5, seq := 0, object := 7, offset := 0, length := len, addr := 0, key := 9, gen := 1,
    timeout := 10, elem := 0 }

def cmdOf (t : TaskRec) (active : Bool) : LedgerCmd :=
  { slot := 2, order := 0, at_ := 5, task := t, active := active, parts := 0, finished := [], failed := none, inBuffer := false,
    taken := [], kept := [], sealWait := false, verdict := none }

/-- Queue 6 of context 1 with one command. -/
def commanded (c : LedgerCmd) (m : MediaState) : State :=
  { mediaReady with ledger := [(6, ledgerQueue [c])], media := m }

def obj7 : Obj := { ctx := 1, id := 7, data := zeros 32, damaged := false, queue := 6, tag := 1 }

def chunk0 : Chunk :=
  { id := 7, idx := 0, mode := 0, raw := zeros 64, stored := 96, rawCrc := 0, damaged := false, queue := 6, tag := 1 }

def gen1 (sld : Bool) : Gen := { ctx := 1, num := 1, isSealed := sld, damaged := false, chunks := [chunk0] }

def sealFlag (t : TaskRec) : TaskRec := { t with flags := 4 }

theorem moved_of {s : State} {n : Nat} {q : LedgerQueue} {c : LedgerCmd} (h1 : (s.collect n c).1.failed = none)
    (h2 : (s.collect n c).1.finished.length = (s.collect n c).1.parts) :
    Moved s n q c (q.setCmd (s.collect n c).1) (s.collect n c).1
      ((s.collect n c).2.setQueue n (q.setCmd (s.collect n c).1)) :=
  ⟨_, rfl, h1, h2, rfl, rfl⟩

theorem met_moved :
    (let c := cmdOf (task ldOBJECT_WRITE 0) true; let s := commanded c MediaState.off;
      Commanded s 6 2 ldOBJECT_WRITE (ledgerQueue [c]) c ∧ (s.collect 6 c).1.failed = none
        ∧ (s.collect 6 c).1.finished.length = (s.collect 6 c).1.parts ∧ s.mediaFits 1 0 ∧ s.writeThrough = false)
    ∧ (let c := { cmdOf (task ldCKPT_ABSORB 4) true with parts := 1, finished := [(0, zeros 4)] };
      let s := commanded c MediaState.off; let d := (s.collect 6 c).1;
      Commanded s 6 2 ldCKPT_ABSORB (ledgerQueue [c]) c ∧ s.mediaFits 1 4 ∧ s.writeThrough = false ∧ d.arrivedLen = 4
        ∧ d.failed = none ∧ (d.kept ++ d.arrived).length = d.parts) := by
  refine ⟨?_, ?_⟩ <;> unfold Commanded <;> decide +kernel

/-- A SAMPLE_READ of the record of `extentBytes`. -/
def sampleCmd : LedgerCmd := cmdOf { task ldSAMPLE_READ 64 with object := 4 * 2 ^ 48 } true
def sampleState : State :=
  { keyed (commanded sampleCmd { MediaState.off with frags := [extentFrag] }) with
    data := [(1, { content run with run := none })] }

theorem met_sampleRead :
    Commanded sampleState 6 2 ldSAMPLE_READ (ledgerQueue [sampleCmd]) sampleCmd ∧ sampleState.mediaReady
      ∧ (sampleState.ctxData 1).manifestAt sampleState.lastStep = some manifest
      ∧ manifest.datasets.find? (fun e => e.id == bitsOf sampleCmd.task.object 48 8) = some dataset
      ∧ sampleCmd.task.object % 2 ^ 48 < dataset.count ∧ manifest.sampleHolder 0 = sampleState.self
      ∧ sampleState.hw.variant.hasMedia ∧ fieldAt record0 8 4 ≤ sampleCmd.task.length := by
  unfold Commanded; decide +kernel

theorem met_sampleReadClean : sampleState.fetchSample 1 dataset 0 [] [] none = .clean record0 := by
  have hc : checkSample (kDataset (zeros 32) 4 1) dataset 0 extentBytes [] = some record0 := by
    rw [test_extentKey]; exact test_extentDecrypts
  exact fetch_clean (f := extentFrag) (by decide +kernel) (by decide +kernel) hc

theorem met_LedgerCommandsComplete :
    (let s := { mediaReady with
        ledger := [(6, ledgerQueue [])]
        net := { NetState.off with messages := [{ kind := 2, ctx := 1, addr := 256, port := 0, qp := 3 }] } };
      s.safe = false ∧ s.media.flushing = none ∧ (s.takeMessage 2 (some 1)).isSome
        ∧ s.ledger.find? (fun e => e.2.ctx == 1 && e.2.base ≤ s.slotBase 1 + 256 / 128
          && s.slotBase 1 + 256 / 128 < e.2.base + e.2.count) = some (6, ledgerQueue [])
        ∧ (ledgerQueue []).cmdAt 2 = none)
    ∧ (let c := cmdOf (task ldOBJECT_READ 8) false; let s := commanded c MediaState.off;
      s.queue 6 = some (ledgerQueue [c]) ∧ (ledgerQueue [c]).cmdAt 2 = some c ∧ (ledgerQueue [c]).mayStart c ∧ s.mediaReady)
    ∧ (let c := cmdOf (task ldOBJECT_READ 32) true; let s := commanded c { MediaState.off with objects := [obj7] };
      Commanded s 6 2 ldOBJECT_READ (ledgerQueue [c]) c ∧ s.mediaReady
        ∧ s.media.objects.find? (fun o => o.ctx == 1 && o.id == c.task.object) = some obj7
        ∧ c.task.offset + c.task.length ≤ obj7.data.length)
    ∧ (let c := cmdOf (task ldCKPT_RESTORE 64) true; let s := commanded c { MediaState.off with gens := [gen1 true] };
      Commanded s 6 2 ldCKPT_RESTORE (ledgerQueue [c]) c ∧ s.mediaReady ∧ s.findGen 1 c.task.gen = some (gen1 true)
        ∧ (∀ k ∈ (gen1 true).chunks, k.damaged = false) ∧ (gen1 true).bytes 7 1 0 = some (zeros 64)
        ∧ c.task.offset % 2 ^ 20 + c.task.length ≤ (zeros 64).length)
    ∧ (let c := cmdOf (task ldFLUSH 0) true; let s := commanded c MediaState.off;
      Commanded s 6 2 ldFLUSH (ledgerQueue [c]) c ∧ s.buffered 6 = false ∧ c.task.seals = false)
    ∧ (let c := cmdOf (sealFlag (task ldFLUSH 0)) true; let s := commanded c { MediaState.off with gens := [gen1 false] };
      Commanded s 6 2 ldFLUSH (ledgerQueue [c]) c ∧ c.task.seals ∧ s.findGen 1 1 = some (gen1 false)
        ∧ (ledgerQueue [c]).mode = 0)
    ∧ (let c := cmdOf (sealFlag (task ldTRIM 0)) true; let s := commanded c { MediaState.off with gens := [gen1 false] };
      Commanded s 6 2 ldTRIM (ledgerQueue [c]) c ∧ s.mediaReady ∧ c.task.seals)
    ∧ (let c := cmdOf (task ldTRIM 0) true; let s := commanded c { MediaState.off with objects := [obj7] };
      Commanded s 6 2 ldTRIM (ledgerQueue [c]) c ∧ s.media.objects.any (fun o => o.ctx == 1 && o.id == c.task.object))
    ∧ (let c := cmdOf { task ldFRAGMENT_READ 16 with object := 1, offset := 96 } true;
      let s := commanded c { MediaState.off with frags := [{ extentFrag with data := zeros 112 }] };
      Commanded s 6 2 ldFRAGMENT_READ (ledgerQueue [c]) c ∧ s.mediaReady
        ∧ s.media.frags.find? (fun f => f.tag == c.task.object && f.stripe == c.task.offset / 2 ^ 32 && f.num == c.task.elem)
          = some { extentFrag with data := zeros 112 } ∧ c.task.offset % 2 ^ 32 + c.task.length ≤ 112)
    ∧ (let q := { ledgerQueue [] with reset := some 5 }; let s := { mediaReady with ledger := [(6, q)] };
      s.queue 6 = some q)
    ∧ (let c := cmdOf (task ldFLUSH 0) true; let s := commanded c MediaState.off;
      (ledgerQueue [c]).cmdAt 2 = some c ∧ c.task.timeout ≠ 0 ∧ c.at_ + c.task.timeout * 1000 ≤ s.dtime)
    ∧ (let k : LedgerCpl := { tag := 5, status := stOK, slot := 2, seq := 0, result := 0 };
      let q := { ledgerQueue [] with cpls := [k] }; let s := { mediaReady with ledger := [(6, q)] };
      s.queue 6 = some q ∧ (([] : List LedgerCpl).any (fun x => x.seq == 2 ^ 64 - 1) || k.seq == 2 ^ 64 - 1) = false) := by
  refine ⟨?_, ?_, ?_, ?_, ?_, ?_, ?_, ?_, ?_, ?_, ?_, ?_⟩ <;> (try unfold Commanded) <;> decide +kernel

def block5 (slc : Bool) : Superblock :=
  { num := 5, group := 3, cls := .ledger, slc := slc, units := [(.obj 1 7, 64)], reads := 0, scanned := 0 }

def withMedia (m : MediaState) : State := { mediaReady with media := m }

/-- Fragment 0 of a one-extent stripe is lost here; parity P stands beside it. -/
def lostFrag : Frag := { extentFrag with data := zeros 16, lost := [(0, 16)] }
def parityFrag : Frag := { extentFrag with num := 10, data := toLE 16 77, lost := [] }
def recovery : Recovery := { tag := 1, stripe := 0, num := 0, off := 0, len := 16, asked := [] }

theorem met_MediaCompletes :
    (let s := up [(aMED_STATUS, msREADY), (aLDG_PS_CFG, 1 * 2 ^ 32 + 1), (aLDG_STATUS, 0)];
      s.safe = false ∧ s.hw.variant.hasMedia ∧ s.mediaServes ∧ s.mediaIdle ∧ s.fld fLDG_PS_CFG_IDLE1_US * 1000 ≠ 0
        ∧ s.mps = 0 ∧ s.media.lastOp + 1000 ≤ s.dtime)
    ∧ (let s := up [(aMED_STATUS, msREADY), (aLDG_PS_CFG, 1 * 2 ^ 32 + 1), (aLDG_STATUS, 1)];
      s.mps = 1 ∧ s.media.lastOp + 1000 + 1000000 ≤ s.dtime ∧ s.runHolds = false)
    ∧ (withMedia { MediaState.off with resumeDue := some 3 }).media.resumeDue = some 3
    ∧ (let s := withMedia { MediaState.off with blocks := [block5 true] };
      s.safe = false ∧ s.mediaRuns ∧ s.media.blocks.find? (fun b => b.num == 5) = some (block5 true)
        ∧ s.media.blocks.find? (fun b => b.slc) = some (block5 true) ∧ s.media.checkpointAt + 60 * 10 ^ 9 ≤ s.dtime)
    ∧ (let w : WbItem := { stream := .obj 1 7, bytes := 64, queue := some 6, tag := 5, cmd := none };
      let s := withMedia { MediaState.off with wb := [w], stale := [block5 true] };
      s.mediaRuns ∧ s.media.wb = [w] ∧ s.media.stale = [block5 true])
    ∧ (mediaReady.mediaServes ∧ mediaReady.diePresent 95 0)
    ∧ (let s := withMedia { MediaState.off with rebuilds := [(3, { double := false })], blocks := [block5 false] };
      Map.find s.media.rebuilds 3 = some { double := false } ∧ s.nextRebuild 3 = some (block5 false))
    ∧ (let s := withMedia { MediaState.off with rebuilds := [(3, { double := false })] }; s.nextRebuild 3 = none)
    ∧ (let s := withMedia { MediaState.off with lostQueue := [(1, 0, 0, 0, 16)], frags := [lostFrag] };
      s.media.lostQueue = [(1, 0, 0, 0, 16)] ∧ s.findFrag 1 0 0 = some lostFrag)
    ∧ (let s := withMedia { MediaState.off with recoveries := [recovery], frags := [lostFrag, parityFrag] };
      s.media.recoveries = [recovery] ∧ s.findFrag 1 0 0 = some lostFrag
        ∧ recoverFragment 16 0 (s.recovered lostFrag recovery 0) = some (toLE 16 77))
    ∧ (let s := up [(aMED_STATUS, msREADY), (aMED_CFG, 90 * 2 ^ 24)];
      s.measureHealth (.wear 90) = (0, true, (s.setMedia { s.media with wear := 90 }).setFld fMED_HEALTH_WEAR_PCT 90) ∧ bitOf s.media.health 0 = false
        ∧ s.fld (fMED_ERR_HEALTH_WEAR.bit 0) = 0 ∧ ((s.setMedia { s.media with wear := 90 }).setFld fMED_HEALTH_WEAR_PCT 90).fld (fMED_ERR_HEALTH_WEAR.bit 0) = 0)
    ∧ (let s := up [(aMED_STATUS, msREADY), (aMED_HEALTH, 1 * 2 ^ 8)]; s.mediaWrites ∧ s.fld fMED_HEALTH_SPARE_PCT < 2)
    ∧ (let s := withMedia { MediaState.off with flushing := some 5 };
      s.media.flushing.isSome ∧ s.safe = false ∧ s.mod.resetDue = false) := by
  refine ⟨?_, ?_, ?_, ?_, ?_, ?_, ?_, ?_, ?_, ?_, ?_, ?_, ?_⟩ <;> decide +kernel
/-! Lantern: pod 0 with devices 0 (this one, active keeper and coordinator) and 1 (standby), and device 5. -/

def view0 : View := { num := 4, live := [0, 1, 5], keepers := [(0, 0, 1)] }

def lantern (l : LanternState) : State :=
  { up [(aNET_LAN_STATUS, 2 ^ 2 + 2), (aNET_LAN_CFG, 100)] with lan := { l with joined := true, view := view0 } }

def msg (kind sender a0 a1 a2 : Nat) : LanMsg :=
  { kind := kind, ctx := 1, sender := sender, nonce := 0, view := 4, seq := 3, arg0 := a0, arg1 := a1, arg2 := a2, body := [] }

def peer (st : PeerState) : PeerRec := { state := st, lastBeat := 5, since := 5 }

theorem met_LanternViewsComplete :
    (let s := lantern LanternState.off;
      s.safe = false ∧ s.lan.joined ∧ s.lan.beatAt + 250000 ≤ s.dtime ∧ s.isKeeper ∧ s.isCoord ∧ s.isActive)
    ∧ (let s := lantern { LanternState.off with peers := [(5, peer .alive)] };
      s.watched.contains 5 ∧ (s.peerRec 5).watchable ∧ (s.peerRec 5).lastBeat + 2000000 ≤ s.dtime)
    ∧ (let s := lantern { LanternState.off with peers := [(5, peer .hung)] };
      s.isKeeper ∧ s.watched.contains 5 ∧ (s.peerRec 5).state = .hung
        ∧ (s.peerRec 5).since + s.fld fNET_LAN_CFG_HANG_MS * 1000000 ≤ s.dtime)
    ∧ (let s := lantern LanternState.off;
      s.lan.view.live.contains 5 ∧ s.lan.reports.any (fun e => e.1 == 5) = false)
    ∧ (let s := lantern { LanternState.off with gatherAt := some 5, reports := [(5, 0)] };
      s.lan.gatherAt = some 5 ∧ s.lan.proposal = none ∧ s.isCoord ∧ 5 + 100000 ≤ s.dtime)
    ∧ (let s := lantern LanternState.off; let x := s.lan.view.apply 5 (viewBody [5] (view0.without [5]));
      (msg lkVIEW_PROPOSE 1 5 0 0).arg0 = s.lan.view.num + 1 ∧ x.1.active s.ownPod = some s.self)
    ∧ (let p : Proposal := { view := view0.without [5], removed := [5], acks := [] };
      let s := lantern { LanternState.off with proposal := some p };
      s.lan.proposal = some p ∧ (msg lkVIEW_ACK 1 p.view.num 0 0).arg0 = p.view.num)
    ∧ (let s := lantern LanternState.off; s.lan.view.num < (msg lkVIEW_COMMIT 1 5 0 0).arg0)
    ∧ (let s := lantern { LanternState.off with waitCommit := some 5 };
      s.lan.waitCommit = some 5 ∧ 5 + 6000000 ≤ s.dtime)
    ∧ ((up []).safe = false ∧ (up []).lan.joined = false)
    ∧ (40 : Nat) ≠ (lantern LanternState.off).self := by
  refine ⟨?_, ?_, ?_, ?_, ?_, ?_, ?_, ?_, ?_, ?_, ?_⟩ <;> decide +kernel

/-- A run of ranks 0, 1 and 5 in context 1, in a state of the leg. -/
def cfg3 : RunCfg := { runCfg with ranks := [0, 1, 5], spares := [1] }
def legRun (aborted : Option Nat) : RunRec := { run with cfg := cfg3, aborted := aborted }

def lanRun (r : RunRec) (l : LanternState) : State := { lantern l with data := [(1, content r)] }

def mix (p : MixPending) (r : RunRec) : State :=
  { lantern LanternState.off with data := [(1, { content r with mixing := [p] })] }

def mixRec : Bytes :=
  let h := toLE 4 0x584D464F ++ toLE 2 1 ++ toLE 2 1 ++ toLE 8 14 ++ toLE 8 3 ++ toLE 8 0 ++ toLE 4 0 ++ zeros 12
  let e := toLE 1 4 ++ zeros 7 ++ toLE 8 (2 ^ 32)
  h ++ toLE 8 (crc64 (h ++ e)) ++ zeros 8 ++ e

def pending (acked : List Nat) : MixPending :=
  { seq := 3, step := 14, total := 0, frags := [], record := some mixRec, entry := true, source := 0, qp := 3, acked := acked,
    sentAt := 5, decided := none }

def mixExam : State :=
  { lanRun (legRun none) LanternState.off with
    net := { NetState.off with
      messages := [{ kind := 1, ctx := 1, addr := 8192, port := 0, qp := 3 }]
      winMem := [(winMemKey 1 1, Mem.write [] 8192 mixRec)] } }

theorem met_LanternRunsComplete :
    (let s := lanRun (legRun none) LanternState.off;
      s.safe = false ∧ s.runWithId 1 9 = some (legRun none) ∧ (legRun none).aborted = none)
    ∧ (let s := lanRun { legRun (some 12) with abortAt := 5 } { LanternState.off with journal := [(1, JEntry.new 9 10 0)] };
      s.entry 1 = some (JEntry.new 9 10 0) ∧ s.isActive ∧ 5 + 20000000 ≤ s.dtime ∧ (s.runMembers 1 s.ownPod).contains 5
        ∧ bitOf (JEntry.new 9 10 0).abortMask (5 % 32) = false ∧ s.isLost 5 = false)
    ∧ (let r := { legRun (some 12) with cfg := { cfg3 with ranks := [0, 1, 6] } };
      let s := lanRun r { LanternState.off with
        journal := [(1, JEntry.new 9 10 0)], coord := [(1, { CoordRun.empty with abortDone := [0] })] };
      s.isCoord ∧ s.abortComplete 1 ∧ [6] = s.lostRanks r ∧ [(6, 1)].all (s.carrierOk r))
    ∧ (let s := lanRun (legRun (some 12)) LanternState.off;
      s.runWithId 1 9 = some (legRun (some 12)) ∧ (msg lkRESTART 0 9 10 1).arg2 = (legRun (some 12)).restarts + 1)
    ∧ (let o : OutMsg := { dest := .pos 1, msg := msg lkSTEP_REPORT 0 9 10 0, sentAt := 5 };
      let s := lantern { LanternState.off with outbox := [o] };
      s.lan.outbox.find? (fun o => o.msg.seq == 3 && o.msg.kind == lkSTEP_REPORT) = some o ∧ o.msg.kind ≠ lkSEAL
        ∧ o.msg.kind ≠ lkMIX_OUTCOME)
    ∧ (let s := lantern { LanternState.off with dirty := true };
      s.isActive ∧ s.lan.copyAt + 250000 ≤ s.dtime ∧ s.lan.dirty = true ∧ s.lan.view.standby s.ownPod = some 1
        ∧ 1 ≠ noKeeper)
    ∧ (let s := { lantern LanternState.off with
        regs := (up [(aNET_LAN_STATUS, 1 * 2 ^ 16 + 1)]).regs, lan := { LanternState.off with joined := true, view := view0 } };
      s.isStandby ∧ journalOk (s.journalImage 7) 7
        ∧ (((s.lan.validSlot).bind (Map.find s.lan.slots)).map (fun b => fieldAt b 8 8)).getD 0 < 7)
    ∧ ((mixExam.takeMessage 1 (some 1)).isSome
        ∧ mixExam.winBytes 1 1 8192 (64 + 16 * min 256 (fieldAt (mixExam.winBytes 1 1 8192 64) 6 2)) = mixRec
        ∧ mixExam.mixFormatOk 1 mixRec ∧ (mixExam.ctxData 1).lastMix = none
        ∧ mixExam.beaconStep + (legRun none).cfg.pack.lead + 2 ≤ fieldAt mixRec 8 8
        ∧ (mixExam.ctxData 1).logRoom (16 * fieldAt mixRec 6 2))
    ∧ (let m := msg lkMIX_DIST 1 9 3 (0 * 256 + 2);
      let s := lanRun (legRun none) LanternState.off;
      s.runWithId m.ctx m.arg0 = some (legRun none) ∧ m.arg2 / 256 % 256 < m.arg2 % 256 ∧ 1 < m.arg2 % 256
        ∧ (s.ctxData m.ctx).mixing.find? (fun x => x.seq == m.arg1) = none)
    ∧ (let s := mix (pending []) (legRun none);
      (s.ctxData 1).mixing.filter (fun p => p.entry && p.decided.isNone && p.sentAt + 1000000 ≤ s.dtime) = [pending []])
    ∧ (let s := mix (pending [1, 5]) (legRun none);
      (s.ctxData 1).mixing.find? (fun p => p.entry && p.decided.isNone) = some (pending [1, 5])
        ∧ s.lastStep + (legRun none).cfg.pack.lead + 1 < (pending [1, 5]).step
        ∧ (legRun none).devices.all (fun k => k == s.self || (pending [1, 5]).acked.contains k))
    ∧ bitOf (msg lkMIX_OUTCOME 1 9 3 (2 ^ 16)).arg2 16 := by
  refine ⟨?_, ?_, ?_, ?_, ?_, ?_, ?_, ?_, ?_, ?_, ?_, ?_⟩ <;> decide +kernel
/-! The statements of the numbered rules: for each hypothesis, and for each clause, a state that meets it. -/

/-- A waiting command. -/
def waiting : Instr := .eventCommit

def withLines (l : List ErrEvent) : State := { up [] with flt := { FaultState.off with lines := l } }
def withCommitted (l : List ErrEvent) (r : List (Nat × Nat)) : State :=
  { up r with flt := { FaultState.off with committed := l } }

/-- The safe state: GRAVE set. -/
def safeState : State := up [(aFLT_STATUS, 0x80 + 2 ^ fFLT_STATUS_GRAVE.lo)]

theorem met_queue :
    State.reset.pending = [] ∧ (up []).mod.p54v = true ∧ ({ up [] with mod := ModState.dead }).mod.p54v = false
      ∧ (1 : Nat) ≤ ({ up [] with pending := [waiting] }).pending.length := by
  decide +kernel

theorem met_safeState :
    safeState.safe = true ∧ actsInSafe (.hubUnitUncorrected false) = false ∧ removesPower .eventCommit = false
      ∧ ({ safeState with pending := [waiting] }).final := by
  decide +kernel

theorem met_GraveFaultEntersTheSafeState :
    let s := withCommitted [event .fault .f5 8 5] [];
    s.safe = false ∧ s.flt.committed = [event .fault .f5 8 5] ∧ (event .fault .f5 8 5).kind = .fault ∧ s.hw.variant.hasMedia := by
  decide +kernel

theorem met_FieldsFollowTheirAccessTypes :
    ((regAt aFLT_CTRL).map (fun r => r.fields.any (fun f => f.acc == .rw))) = some true
    ∧ ((regAt aMED_ERR).map (fun r => r.fields.any (fun f => f.acc == .w1c))) = some true := by
  decide +kernel

def x4 (upper : Bool) : Access1 := bar0 (0x20010 + if upper then 4 else 0) 4

theorem met_HalfReadsGoThroughTheLatch :
    (let x : Access1 := { fn := 0, bar := .bar0, off := 0x20013 / 8 * 8, size := 4 }; x.served (up []))
    ∧ (let x : Access1 := { fn := 0, bar := .bar0, off := 0x20013 / 8 * 8 + 4, size := 4 };
      let s := { up [] with host := { HostState.off with latches := [(0, { addr := x.addr, upper := 5 })] } };
      x.served s ∧ Map.find s.host.latches 0 = some { addr := x.addr, upper := 5 } ∧ x.addr = 0x20010
        ∧ Map.find (up []).host.latches 0 = none)
    ∧ (let x := bar0 0x20010 8; x.served (up []) ∧ x.goodForm ∧ (up []).safe = false)
    ∧ (let x : Access1 := { fn := 0, bar := .bar2, off := 0, size := 8 }; x.served (up []))
    ∧ (let x : Access1 := { fn := 0, bar := .bar2, off := 4, size := 8 }; x.served (up []) ∧ x.goodForm = false) := by
  refine ⟨?_, ?_, ?_, ?_, ?_⟩ <;> decide +kernel

theorem met_BadAccessesReadZeroAndWriteNothing :
    (let x := bar0 0x20011 8; x.served (up []) ∧ x.goodForm = false)
    ∧ (let x := bar0 0x20FF8 8; x.served (up []) ∧ x.goodForm ∧ regAt x.addr = none ∧ Map.find (up []).host.latches x.fn = none)
    ∧ (let x : Access1 := { fn := 0, bar := .bar2, off := 0, size := 8 }; x.goodForm ∧ x.bar = .bar2) := by
  refine ⟨?_, ?_, ?_⟩ <;> decide +kernel

theorem met_AbsentUnitsReadZero :
    let s := { up [] with hw := { (up []).hw with variant := .c } };
    let x := bar0 aMED_STATUS 8;
    x.served s ∧ x.goodForm ∧ regAbsent s.hw.variant x.addr ∧ isRwt x.addr = false := by
  decide +kernel

theorem met_EventsCommitInCollectorOrder :
    (∃ e ∈ (withLines [event .fault .f1 9 7, event .fault .f1 8 7]).flt.lines, e.stamp + 24 ≤ (up []).dtime)
    ∧ sourceListed 8 ∧ (8 : Nat) < 0x100 := by
  decide +kernel

theorem met_PlainF3SetsItsLatch :
    let s := withCommitted [event .fault .f3 8 5] [];
    s.safe = false ∧ s.flt.committed = [event .fault .f3 8 5] ∧ s.fld fFLT_STATUS_F3_UNACK = 0
      ∧ s.fld fFLT_STATUS_F4_UNACK = 0 := by
  decide +kernel

theorem met_ForceWritesInjectOrAreRefused :
    (let v : BitVec 64 := 0x00080200#64;
      FClass.named (bitsOf v.toNat 8 3) = some .f2 ∧ sourceListed (bitsOf v.toNat 16 16) ∧ (up []).reaches 0)
    ∧ (let v : BitVec 64 := 0x00080500#64;
      let s := { up [(aFLT_CTRL, 2 ^ fFLT_CTRL_ARM_F5.lo)] with flt := { FaultState.off with armPrev := true } };
      FClass.named (bitsOf v.toNat 8 3) = some .f5 ∧ s.flt.armPrev = true ∧ s.fld fFLT_CTRL_ARM_F5 = 1
        ∧ (up []).fld fFLT_CTRL_ARM_F5 = 0)
    ∧ FClass.named (bitsOf (0x00080600#64).toNat 8 3) = none
    ∧ sourceListed (bitsOf (0xFFFF0200#64).toNat 16 16) = false := by
  refine ⟨?_, ?_, ?_, ?_⟩ <;> decide +kernel

def mon (a b : Channel) (t : Option Nat) (l : List (Nat × Nat)) : State := { up l with flt := monitor a b t }

theorem met_SafeStopChannelsMakeDemands :
    (let s := mon { asserted false with edgeAt := 10 ^ 13 } Channel.idle none [];
      s.monTime < (s.channel .safeStopA).edgeAt + s.filterNs)
    ∧ (let s := mon (asserted false) (asserted true) (some (10 ^ 13 - 20000000)) [];
      (s.channel .safeStopA).raw = true ∧ (s.channel .safeStopA).qualified = false
        ∧ (s.channel .safeStopA).edgeAt + s.filterNs ≤ s.monTime ∧ s.flt.demanded = false
        ∧ s.fld fFLT_STATUS_SAFE_DEGRADED = 0 ∧ s.monTime ≤ 10 ^ 13 - 20000000 + s.discrepancyNs
        ∧ (s.channel Pin.safeStopA.other).qualified = true)
    ∧ (let s := mon (asserted false) Channel.idle none [];
      (s.channel .safeStopA).raw = true ∧ s.flt.timer = none ∧ (s.channel Pin.safeStopA.other).qualified = false)
    ∧ (let s := mon (asserted true) Channel.idle (some (10 ^ 13 - 20000000)) [];
      s.flt.timer = some (10 ^ 13 - 20000000) ∧ 10 ^ 13 - 20000000 + s.discrepancyNs ≤ s.monTime)
    ∧ (let s := mon (released true) Channel.idle (some (10 ^ 13 - 10000000)) [];
      (s.channel .safeStopA).raw = false ∧ (s.channel .safeStopA).qualified = true
        ∧ (s.channel .safeStopA).edgeAt + s.filterNs ≤ s.monTime ∧ (s.channel Pin.safeStopA.other).qualified = false
        ∧ s.monTime < 10 ^ 13 - 10000000 + s.discrepancyNs)
    ∧ (let s := mon (asserted false) Channel.idle none [(aFLT_STATUS, 0x80 + 2 ^ fFLT_STATUS_SAFE_DEGRADED.lo)];
      s.fld fFLT_STATUS_SAFE_DEGRADED = 1 ∧ (s.channel .safeStopA).raw = true ∧ (s.channel .safeStopA).qualified = false
        ∧ s.flt.demanded = false ∧ s.flt.timer = none) := by
  refine ⟨?_, ?_, ?_, ?_, ?_, ?_⟩ <;> decide +kernel

/-- Stores then loads at 0xFFC: the lane issues before and after. -/
def storer : State := laneRec { running with g := [(1, 0x1000#64), (2, 0xABCD#64)] }

def nextOf (o : Host.Outcome State Fault Refusal) : Option State :=
  match o with
  | .next t => some t
  | _ => none

theorem met_LoadsReturnTheLanesOwnStore :
    Issues storer 0 0 ∧ badAddr (((storer.tile 0).lane 0).addr 1 0xFFFC#16) 4 = false
      ∧ storer.readOnly 0 (((storer.tile 0).lane 0).addr 1 0xFFFC#16) = false
      ∧ ((nextOf (exec (.store 0 0 .b32 2 1 0xFFFC#16) storer)).map (fun t => t.laneIssues 0 0 (fun _ => false))) = some true := by
  unfold Issues; decide +kernel

theorem met_TicketMisuseFaultsTheLane :
    (let s := laneRec { running with tickets := (List.range 8).map (fun k => (k, ⟨0, none⟩)) };
      s.safe = false ∧ s.laneIssues 0 0 (· == .eng) ∧ ∀ k < 8, Map.has ((s.tile 0).lane 0).tickets k)
    ∧ (lane0.laneIssues 0 0 (· == .ewait 0) ∧ Map.has ((lane0.tile 0).lane 0).tickets 0 = false
        ∧ (((lane0.tile 0).lane 0).getG 1).toNat = 0) := by
  refine ⟨?_, ?_⟩ <;> decide +kernel

theorem met_BarrierMisuseFaultsTheLane :
    notMember (lane0.maskOf 0 2) 0 = true
    ∧ (let s := tiled [] { tileWith running with bars := [(0, ⟨1, 0⟩)] };
      Issues s 0 0 ∧ notMember (s.maskOf 0 0) 0 = false ∧ bitOf ((s.tile 0).bar 0).arrived 0 = true
        ∧ Map.find ((s.tile 0).lane 0).arrivals 0 = none) := by
  refine ⟨?_, ?_⟩ <;> (try unfold Issues) <;> decide +kernel

theorem met_NewChainsReadZero :
    let s := up caps;
    isOk (s.alloc 1 0 2 agTILE 0) ∧ (s.chainsOf 1).length + 1 < 2 ^ 20 ∧ (∀ e ∈ Map.getD s.ink.gens 1 [], e.2 < 2 ^ 24) := by
  decide +kernel

theorem met_TileCallsStayInTheirContext :
    let s := withCall (services caps) (service 0x10 1 8 (zeros 8 ++ toLE 1 0 ++ zeros 1 ++ toLE 2 2));
    (2 : Nat) ≠ s.tileCtx 0 ∧ (nextOf (exec (.alloc (.call 0) 0 2) s)).isSome := by
  decide +kernel

theorem met_PegsAddExactlyOrOverflow :
    let s := services [];
    s.peg 1 4 = some { phys := 0, value := 2 } ∧ 2 + 0xFFFFFFFD ≤ 0xFFFFFFFF ∧ 0xFFFFFFFF < 2 + 0xFFFFFFFE := by
  decide +kernel

theorem met_BarrierArrivalsAreCheckedAgainstTheSense :
    (let c := service 0x12 1 0 (toLE 2 4 ++ toLE 1 1); let s := withCall (services []) c;
      Called s 0 0x12 1 c ∧ (s.tile 0).slice = none ∧ unusedZero c.desc [(32, 2), (34, 1)]
        ∧ Map.find (s.barsOf 1) 4 = some dbar ∧ dbar.members.contains 0 ∧ dbar.arrived.contains 0 = false
        ∧ (fieldAt c.desc 34 1 == 1) ≠ dbar.sense ∧ ∃ m ∈ dbar.members, m ≠ 0 ∧ dbar.arrived.contains m = false)
    ∧ (let c := service 0x12 1 0 (toLE 2 4 ++ toLE 1 0);
      Called (withCall (services []) c) 0 0x12 1 c ∧ (dbar.arrived.contains 0 || (fieldAt c.desc 34 1 == 1) == dbar.sense) = true)
    ∧ { dbar with members := [1] }.members.contains 0 = false := by
  refine ⟨?_, ?_, ?_⟩ <;> (try unfold Called) <;> decide +kernel

/-- Boundary values: a pod of 6 members; the last channel and die; one row of each layout; a packet for an open number. -/
theorem met_placement :
    dataset.pods[0 % dataset.pods.length]? = some { pod := 0, mask := 0x3F } ∧ (PodEnt.members { pod := 0, mask := 0x3F }).length = 6
      ∧ (95 : Nat) < 96 ∧ 0 < (up []).diesPerChannel ∧ pack.layout ≤ 2 ∧ 1 ≤ pack.segMax := by
  decide +kernel

theorem met_StalePacketsHaveNoEffect :
    let s := received (linked 2) (rxFrame 3 none (.rdma true writePkt));
    (s.takeRx 0 0 (RxBody.carries Pkt.isWrite)).isSome ∧ s.findQpn 0x4003 = none := by
  decide +kernel

/-! ## Ill-formed commands: one for each check of WellFormed -/

theorem wf_access_size : Instr.wf (.rcRegisterRead (bar0 0 0)) = false ∧ Instr.wf (.rcRegisterRead (bar0 0 65)) = false
    ∧ Instr.wf (.registerWrite (bar0 0 65) 0) = false ∧ Instr.wf (.rwtRegisterWrite (bar0 0 0) 0) = false
    ∧ Instr.wf (.registerWrite (bar0 0x20010 8) 1) := by decide +kernel

def token : DebugToken :=
  { level := 1, serial := 7, nonce := zeros 48, notAfter := 9, sigEcdsa := zeros 96, sigMldsa := zeros 4627 }

theorem wf_token : Instr.wf (.debugUnlock 0 token) ∧ Instr.wf (.debugUnlock 0 { token with nonce := zeros 47 }) = false
    ∧ Instr.wf (.debugUnlock 0 { token with serial := 2 ^ 64 }) = false
    ∧ Instr.wf (.debugUnlock 0 { token with sigMldsa := [] }) = false := by decide +kernel

theorem wf_estimates : Instr.wf (.governorSample 0 0 (List.replicate 96 13) 0 20 false)
    ∧ Instr.wf (.governorSample 0 0 (List.replicate 97 13) 0 20 false) = false := by decide +kernel

theorem wf_packets : Instr.wf (.frameReceive 0 0 .valid none (.rdma true (.ack (2 ^ 24 - 1) 0 .ack)))
    ∧ Instr.wf (.frameReceive 0 0 .valid none (.rdma true (.ack (2 ^ 24) 0 .ack))) = false
    ∧ Instr.wf (.frameReceive 0 0 .valid none (.rdma true (.readReq 1 1 (2 ^ 64) 0 0))) = false
    ∧ Instr.wf (.frameReceive 0 0 .valid none (.unsupported true 1 (2 ^ 24))) = false := by decide +kernel

def message : LanMsg :=
  { kind := 1, ctx := 1, sender := 0, nonce := 5, view := 1, seq := 0, arg0 := 0, arg1 := 0, arg2 := 0, body := [] }

theorem wf_messages : Instr.wf (.heartbeatReceive message) ∧ Instr.wf (.heartbeatReceive { message with body := zeros 769 }) = false
    ∧ Instr.wf (.viewCommitReceive { message with view := 2 ^ 32 }) = false
    ∧ Instr.wf (.sealMessageReceive { message with sender := 2 ^ 16 }) = false := by decide +kernel

def fw : FwImage :=
  { version := 1, content := 1, compat := 1, sv := 1, settings := 1, wireMin := 1, wireMax := 1, targetLen := 4096,
    digest := zeros 48 }

def bootFacts (i : FwImage) : BootFacts :=
  { bank0 := some i, bank1 := none, selfTest := true, copyLost := false, dies := 72, uniform := true, lowest := 1 }

theorem wf_images : Instr.wf (.bootStage (bootFacts fw)) ∧ Instr.wf (.bootStage (bootFacts { fw with compat := 2 ^ 16 })) = false
    ∧ Instr.wf (.bootStage (bootFacts { fw with digest := [] })) = false := by decide +kernel

/-! ## Worked examples of the spec -/

/-- Table 1.4: the event with the lower stamp commits first, in whichever order the two came in. -/
theorem test_collector_order :
    let t05 := event .fault .f3 0x0405 10002
    let t90 := event .fault .f3 0x045A 10001
    firstEvent [t05, t90] = some t90 ∧ firstEvent [t90, t05] = some t90 := by decide +kernel

/-- Table 2.13: the toy Throw of epoch 0. -/
theorem test_toy_throw :
    let f := fun t v => (3 * v + [1, 2, 3, 0, 1, 2, 3, 0].getD t 0) % 4
    let step := feistelWith f 2 (List.range 8)
    (List.range 10).map (fun p => throwWalk step 10 16 (step p)) = [7, 9, 6, 1, 5, 4, 2, 0, 8, 3] := by decide +kernel

/-- The example beside R104: 12 READY tiles, 43,200,000 cycles queued, and the COST entry of JPEG (here media type 0). -/
def splitCase (queued : List WorkItem) : State :=
  { up ((aSTEP_LAST, 5) :: (List.range 12).map (fun n => seated n 1 tsREADY)) with
    dtime := 5000000000
    data := [(1, seatedRun { run with cfg := { runCfg with splitMax := 256, splitMargin := 200000 } })]
    tiles := [(0, { TileRec.off with
      slots := (List.range queued.length).zip (queued.map (fun w => { item := w, taken := 0 })) })]
    work := { WorkState.off with
      images := [(0, { image with cost := [(20000, 32), (43200000, 0)], split := [1, 0] })]
      split := [(1, { SplitRec.off with enabled := true, sent := List.replicate 10 (item 1 5 0, 0) })] } }

def jpegItem (needBy : Nat) : WorkItem := { item 1 5 0 with storedLen := 120000, needBy := 5000000000 + needBy }
def backlogItem : WorkItem := { item 1 5 0 with mediaType := 1 }

/-- Table 3.10: item A goes to a tile; item B, with A queued, is split. -/
theorem test_split_decisions :
    (splitCase [backlogItem]).queuedCycles 1 = 43200000
    ∧ (splitCase [backlogItem]).splits (jpegItem 3000000) = false
    ∧ (splitCase [backlogItem, jpegItem 3000000]).queuedCycles 1 = 43460000
    ∧ (splitCase [backlogItem, jpegItem 3000000]).splits (jpegItem 2200000) = true := by decide +kernel

/-- The vocabulary of the example before Table 6.5. -/
def vocab : Vocab :=
  { idWidth := 2, maxPiece := 64, bos := 0, eos := 1,
    ranges := [(0x20, 0x20, 3), (0x30, 0x39, 2), (0x41, 0x5A, 1), (0x61, 0x7A, 1)],
    breaks := [0xFFFF, 0xFFFD, 0xFFFF, 0xFFFD] ++ List.replicate 12 0xFFFF,
    entries := ["<s>", "</s>", "<sep>"].map (fun x => ⟨1, ascii x⟩) ++ (List.range 256).map (fun b => ⟨2, [byteOf b]⟩)
      ++ ["the", " the", " cat", " ca", "at", " ", "s"].map (fun x => ⟨0, ascii x⟩) }

/-- Table 6.5. -/
theorem test_tokenize :
    tokenize vocab 7 (ascii "the cats<sep>9" ++ [0xC3#8, 0xA9#8]) 64 =
      ⟨stOK, [0, 0, 3, 1, 5, 1, 9, 1, 2, 0, 0x3C, 0, 0xC6, 0, 0xAC, 0, 1, 0].map byteOf, 16, 9, []⟩ := by decide +kernel

/-- Table 6.7, call 1: 17 bytes written, 0xC3 held back. -/
theorem test_detokenize_holds :
    detokenize vocab 1 ([0, 259, 261, 265, 2, 60, 198].flatMap (toLE 2)) (zeros 8) 64 =
      ⟨stOK, ascii "<s>the cats<sep>9", 14, 7, [0xC3#8]⟩ := by decide +kernel

/-- Table 6.7, call 2. -/
theorem test_detokenize_final :
    detokenize vocab 5 ([172, 1].flatMap (toLE 2)) (holdState [0xC3#8]) 64 =
      ⟨stOK, [0xC3#8, 0xA9#8] ++ ascii "</s>", 4, 2, []⟩ := by decide +kernel

def dotArgs (fmt shift : Nat) : Bytes := toLE 2 1 ++ toLE 2 1 ++ toLE 4 3 ++ [1, 1, fmt, shift].map byteOf ++ zeros 20

/-- "One dot product in two orders" (chapter 7): the products 448², 2^−18 and −448², as FP32 and as S32
with SHIFT 24. B's third element is 448 here: the example prints −448 for it, whose product would be positive (log 30). -/
theorem test_dot_product :
    let x := [0x7E#8, 0x01#8, 0xFE#8]
    let y := [0x7E#8, 0x01#8, 0x7E#8]
    (matmul (dotArgs 2 0) x y 64).out = [0x00#8, 0x00#8, 0x80#8, 0x36#8] ∧ (matmul (dotArgs 1 24) x y 64).out = toLE 4 64 := by
  decide +kernel

/-- "One sample's decision" (chapter 7): the toy mix word is not less than the weight. -/
theorem test_mix : (mixCall true 0 0x90000000 0x80000000 8).out.head? = some 1#8
    ∧ (mixCall true 0 0x7FFFFFFF 0x80000000 8).out.head? = some 0#8 := by decide +kernel

def packing (fit : Nat) : PackCfg :=
  { pack with consumers := 2, rows := 2, group := 2, q := 3, owners := 2, fitMode := fit, rowTokens := 16, segMax := 8, padId := 5 }

/-- n tokens of two bytes, all of the value v. -/
def tokens (n v : Nat) : Prepared := some ((List.replicate n (toLE 2 v)).flatten)

def packed (fit : Nat) : List (Bytes × Bytes) :=
  packGroup (packing fit) 2 105 5 0 0 [tokens 7 1, tokens 12 2, tokens 5 3, tokens 3 4, none, tokens 20 6]

/-- Table 8.6 with FIRST_FIT: FLAGS, STEP, SEQUENCE, CONSUMER, ROW, SEG_COUNT, USED, PAYLOAD_LEN, DROPPED, LOST_COUNT of the
headers (offsets of Table 8.1), and row 1's tokens. -/
theorem test_packing :
    (packed 1).map (fun r => [fieldAt r.1 6 2, fieldAt r.1 8 8, fieldAt r.1 16 8]) = [[0, 105, 10], [5, 105, 11]]
    ∧ (packed 1).map (fun r => slice r.2 0 32) =
      [(List.replicate 7 1 ++ List.replicate 5 3 ++ List.replicate 4 5).flatMap (toLE 2),
       (List.replicate 12 2 ++ List.replicate 3 4 ++ [5]).flatMap (toLE 2)]
    ∧ (packed 1).map (fun r => r.2.length) = [192, 192] := by decide +kernel

/-- The same items with SPLIT: row 1 begins with the tail of place 1 at position 9. -/
theorem test_packing_split :
    (packed 0).map (fun r => slice r.2 0 32) =
      [(List.replicate 7 1 ++ List.replicate 9 2).flatMap (toLE 2),
       (List.replicate 3 2 ++ List.replicate 5 3 ++ List.replicate 3 4 ++ List.replicate 5 6).flatMap (toLE 2)] := by
  decide +kernel

/-- Table 12.1 (OF-HX1-A, U = 300 TB). -/
theorem test_slc_region :
    [0, 100, 200, 280, 300].map (fun v => (({ State.reset with media := { MediaState.off with
      qlcValid := v * 1000000000000 } }).setFld fMED_CAPACITY_USER_GB 300000).slcSize / 1000000000000) = [77, 52, 27, 7, 2] := by decide +kernel

/-- Context 5 with handle number 0x102 as in Table 13.3. -/
def handles (gen owner : Nat) : State :=
  { up [] with ink := { InkState.off with
    chains := [(5, [(0x102, { gen := gen, bufs := [(1, 7)], owner := owner, tile := 0, bytes := [] })])] } }

/-- Table 13.3: FREE moves the number to the next generation; another FREE of H, of H2 after its hand-off, and of a handle
of context 7 are refused. -/
theorem test_double_free :
    let h := 0x4500003100000102
    let tile := some (agTILE, 0)
    isOk ((handles 0x31 agTILE).findChain 5 h tile)
    ∧ Map.getD (Map.getD ((handles 0x31 agTILE).freeNum 5 0x102).ink.gens 5 []) 0x102 1 = 0x32
    ∧ ((handles 0x32 agTILE).findChain 5 h tile).toOption = none
    ∧ handleWord 1 5 0x32 0x102 = 0x4500003200000102
    ∧ isOk ((handles 0x32 agEXCHANGE).findChain 5 0x4500003200000102 tile) = false
    ∧ isOk ((handles 0x32 agTILE).findChain 7 0x4500003200000102 tile) = false := by decide +kernel

/-- SAFE_STOP at a time (µs) of the example of Table 17.6: A qualified at 100 µs and started the timer. -/
def safeStopAt (us : Nat) (a b : Channel) (timer : Option Nat) : State :=
  (({ up [] with dtime := us * 1000, flt := monitor a b timer }).setFld fFLT_SAFE_CFG_FILTER_US 100).setFld
    fFLT_SAFE_CFG_DISCREPANCY_MS 20

def lowA : Channel := { raw := true, edgeAt := 0, qualified := true, qualAt := 100000 }

def outcome (o : Host.Outcome State Fault Refusal) : List (FClass × Status × Bool) :=
  ((nextOf o).map (fun t => t.flt.lines.map (fun e => (e.cls, e.status, e.discrepancy)))).getD []

/-- Table 17.6, cases 1 to 4. -/
theorem test_safe_stop :
    outcome (exec (.safeStopQualify .safeStopB) (safeStopAt 20050 lowA
      { raw := true, edgeAt := 19950000, qualified := false, qualAt := 0 } (some 100000))) = [(.f5, stSAFE_STOP_DEMAND, false)]
    ∧ outcome (exec .discrepancyTimeout (safeStopAt 20100 lowA
      { raw := true, edgeAt := 20050000, qualified := false, qualAt := 0 } (some 100000))) = [(.f5, stSAFE_STOP_DEMAND, true)]
    ∧ outcome (exec (.safeStopQualify .safeStopA) (safeStopAt 20000 { lowA with raw := false, edgeAt := 19900000 }
      Channel.idle (some 100000))) = [(.f3, stSAFE_STOP_DISAGREE, false)]
    ∧ outcome (exec (.safeStopQualify .safeStopA) (safeStopAt 20150 { lowA with raw := false, edgeAt := 20050000 }
      Channel.idle (some 100000))) = [(.f5, stSAFE_STOP_DEMAND, true)] := by decide +kernel

/-- "DTIME across a carry" (chapter 19): the lower half is read at 0x5_FFFF_FFF0, the upper half 40 ns later. -/
theorem test_half_reads :
    let low := exec (.lowerHalfRead 0 .bar0 0x40) { up [] with dtime := 0x5FFFFFFF0 }
    (low |> nextOf).map (·.out) = some [.readData 0 0xFFFFFFF0]
    ∧ ((low |> nextOf).bind (fun t => nextOf (exec (.upperHalfRead 0 .bar0 0x40) { t with dtime := 0x600000018, out := [] }))).map
        (·.out) = some [.readData 0 5] := by decide +kernel

/-- Tables 20.2 and 20.3: the 333rd and last peak sample, then 2,500 W, then 2,200 W; 500 samples above B at most. -/
theorem test_allowance :
    allowNext 2500 (List.replicate 667 2200 ++ List.replicate 332 3100) = 3100
    ∧ allowNext 2500 (List.replicate 666 2200 ++ List.replicate 333 3100) = 2500
    ∧ allowNext 2500 (List.replicate 665 2200 ++ List.replicate 333 3100 ++ [2500]) = 2200
    ∧ allowNext 2500 (List.replicate 500 1900 ++ List.replicate 499 3100) = 3100
    ∧ allowNext 2500 (List.replicate 499 1000 ++ List.replicate 500 3100) = 2500 := by decide +kernel

end Sys2Proof.Tests
end

section
/-!
PROOFS. Register accesses (chapter 0): what a write under a mask does to each bit (Table 0.3), what a well-formed access
that is served does (R8, R424, R427), and what the registers of an absent unit answer (R4).
-/
namespace Sys2Proof.Machine

/-! ## Single bits -/

theorem bitOf_eq_testBit (x i : Nat) : bitOf x i = x.testBit i := by
  rw [Nat.testBit_eq_decide_div_mod_eq, bitOf, beq_eq_decide]

theorem bitOf_eq_bitsOf (x i : Nat) : bitOf x i = (bitsOf x i 1 == 1) := rfl

theorem bitOf_bitsOf (x lo : Nat) {w i : Nat} (h : i < w) : bitOf (bitsOf x lo w) i = bitOf x (lo + i) := by
  simp only [bitOf_eq_testBit, bitsOf, Nat.testBit_mod_two_pow, Nat.testBit_div_two_pow, h, decide_true, Bool.true_and,
    Nat.add_comm]

theorem bitOf_putBits_inside (x lo v : Nat) {w i : Nat} (h : i < w) : bitOf (putBits x lo w v) (lo + i) = bitOf v i := by
  rw [← bitOf_bitsOf _ _ h, bitsOf_putBits_same, bitOf_eq_testBit, bitOf_eq_testBit, Nat.testBit_mod_two_pow,
    decide_eq_true h, Bool.true_and]

theorem bitOf_putBits_outside (x lo w v : Nat) {i : Nat} (h : i < lo ∨ lo + w ≤ i) :
    bitOf (putBits x lo w v) i = bitOf x i := by
  rw [bitOf_eq_bitsOf, bitOf_eq_bitsOf]
  rcases h with h | h
  · rw [bitsOf_putBits_below _ _ _ _ _ _ h]
  · rw [bitsOf_putBits_above _ _ _ _ _ _ h]

/-- Numbers without a common bit add without a carry. -/
theorem add_eq_or_of_and_eq_zero {a b : Nat} (h : a &&& b = 0) : a + b = a ||| b := by
  have hlt : a + b < 2 ^ (a + b) := Nat.lt_two_pow_self
  have ha : a < 2 ^ (a + b) := by omega
  have hb : b < 2 ^ (a + b) := by omega
  have hand : BitVec.ofNat (a + b) a &&& BitVec.ofNat (a + b) b = 0#(a + b) := by
    apply BitVec.eq_of_toNat_eq
    simp [Nat.mod_eq_of_lt ha, Nat.mod_eq_of_lt hb, h]
  have hor := congrArg BitVec.toNat (BitVec.add_eq_or_of_and_eq_zero _ _ hand)
  simpa [Nat.mod_eq_of_lt ha, Nat.mod_eq_of_lt hb, Nat.mod_eq_of_lt hlt] using hor

/-- Taking from a number the bits that it shares with another leaves the set difference. -/
theorem sub_and_eq_ldiff (a b : Nat) : a - (a &&& b) = Nat.ldiff a b := by
  have hdisj : (a &&& b) &&& Nat.ldiff a b = 0 := by
    refine Nat.eq_of_testBit_eq fun i => ?_
    simp only [Nat.testBit_and, Nat.testBit_ldiff, Nat.zero_testBit]
    cases a.testBit i <;> cases b.testBit i <;> rfl
  have hunion : (a &&& b) ||| Nat.ldiff a b = a := by
    refine Nat.eq_of_testBit_eq fun i => ?_
    simp only [Nat.testBit_or, Nat.testBit_and, Nat.testBit_ldiff]
    cases a.testBit i <;> cases b.testBit i <;> rfl
  have hsum := add_eq_or_of_and_eq_zero hdisj
  omega

theorem bitOf_sub_and (a b i : Nat) : bitOf (a - (a &&& b)) i = (bitOf a i && !bitOf b i) := by
  simp only [sub_and_eq_ldiff, bitOf_eq_testBit, Nat.testBit_ldiff]

theorem bitOf_and (a b i : Nat) : bitOf (a &&& b) i = (bitOf a i && bitOf b i) := by
  simp only [bitOf_eq_testBit, Nat.testBit_and]

theorem bitOf_or (a b i : Nat) : bitOf (a ||| b) i = (bitOf a i || bitOf b i) := by
  simp only [bitOf_eq_testBit, Nat.testBit_or]

/-- The bits of a under m replaced by those of v. -/
theorem bitOf_replace (a v m i : Nat) :
    bitOf (a - (a &&& m) + (v &&& m)) i = if bitOf m i then bitOf v i else bitOf a i := by
  have hdisj : Nat.ldiff a m &&& (v &&& m) = 0 := by
    refine Nat.eq_of_testBit_eq fun j => ?_
    simp only [Nat.testBit_and, Nat.testBit_ldiff, Nat.zero_testBit]
    cases a.testBit j <;> cases m.testBit j <;> simp
  rw [sub_and_eq_ldiff, add_eq_or_of_and_eq_zero hdisj, bitOf_or, bitOf_and, ← sub_and_eq_ldiff, bitOf_sub_and]
  cases bitOf m i <;> simp

/-! ## A write, field by field (Table 0.3) -/

/-- What a write leaves in one bit of a field, from the bit held, the bit written and the bit of the mask. -/
def writtenBit (acc : Access) (old v mask : Bool) : Bool :=
  match acc with
  | .rw => if mask then v else old
  | .w1c => old && !(v && mask)
  | .w1s => old || (v && mask)
  | _ => old

theorem bitOf_writeField_inside (old v mask : Nat) (f : FldDef) {i : Nat} (h : i < f.width) :
    bitOf (writeField old v mask f) (f.lo + i)
      = writtenBit f.acc (bitOf old (f.lo + i)) (bitOf v (f.lo + i)) (bitOf mask (f.lo + i)) := by
  unfold writeField writtenBit
  cases f.acc
  case rw => simp only [bitOf_putBits_inside _ _ _ h, bitOf_replace, bitOf_bitsOf _ _ h]
  case w1c => simp only [bitOf_putBits_inside _ _ _ h, bitOf_sub_and, bitOf_and, bitOf_bitsOf _ _ h]
  case w1s => simp only [bitOf_putBits_inside _ _ _ h, bitOf_or, bitOf_and, bitOf_bitsOf _ _ h]
  all_goals rfl

theorem bitOf_writeField_outside (old v mask : Nat) (f : FldDef) {i : Nat} (h : i < f.lo ∨ f.lo + f.width ≤ i) :
    bitOf (writeField old v mask f) i = bitOf old i := by
  unfold writeField
  cases f.acc
  case rw | w1c | w1s => exact bitOf_putBits_outside _ _ _ _ h
  all_goals rfl

/-- Two fields have no bit in common. -/
abbrev FldDef.Apart (f g : FldDef) : Prop := f.lo + f.width ≤ g.lo ∨ g.lo + g.width ≤ f.lo

/-- A reserved bit, which lies in no field, stays (R10). -/
theorem bitOf_writtenBy_outside (fields : List FldDef) (old v mask i : Nat)
    (h : ∀ g ∈ fields, i < g.lo ∨ g.lo + g.width ≤ i) : bitOf (writtenBy fields old v mask) i = bitOf old i := by
  induction fields generalizing old with
  | nil => rfl
  | cons g gs ih =>
    obtain ⟨hg, hgs⟩ := List.forall_mem_cons.1 h
    calc bitOf (writtenBy gs (writeField old v mask g) v mask) i
        = bitOf (writeField old v mask g) i := ih _ hgs
      _ = bitOf old i := bitOf_writeField_outside _ _ _ _ hg

/-- Where no two fields overlap, each bit of a field follows the access type of that field alone. -/
theorem bitOf_writtenBy_inside {fields : List FldDef} (hd : fields.Pairwise FldDef.Apart) {f : FldDef} (hf : f ∈ fields)
    (old v mask : Nat) {i : Nat} (hi : i < f.width) :
    bitOf (writtenBy fields old v mask) (f.lo + i)
      = writtenBit f.acc (bitOf old (f.lo + i)) (bitOf v (f.lo + i)) (bitOf mask (f.lo + i)) := by
  induction fields generalizing old with
  | nil => exact absurd hf List.not_mem_nil
  | cons g gs ih =>
    obtain ⟨hg, hgs⟩ := List.pairwise_cons.1 hd
    change bitOf (writtenBy gs (writeField old v mask g) v mask) (f.lo + i) = _
    rcases List.mem_cons.1 hf with rfl | hf
    · have hrest : ∀ d ∈ gs, f.lo + i < d.lo ∨ d.lo + d.width ≤ f.lo + i := by
        intro d hd
        have := hg d hd
        omega
      rw [bitOf_writtenBy_outside _ _ _ _ _ hrest, bitOf_writeField_inside _ _ _ _ hi]
    · have hout : f.lo + i < g.lo ∨ g.lo + g.width ≤ f.lo + i := by
        have := hg f hf
        omega
      rw [ih hgs hf, bitOf_writeField_outside _ _ _ _ hout]

/-- No register of the spec has overlapping fields. -/
theorem regTable_fields_apart : ∀ r ∈ regTable, r.fields.Pairwise FldDef.Apart := by decide +kernel

theorem regAt_fields_apart {a : Nat} {r : RegDef} (h : regAt a = some r) : r.fields.Pairwise FldDef.Apart :=
  regTable_fields_apart r (List.mem_of_find?_eq_some h)

/-- Settles O33: the fields of a register do not overlap, so each bit meets the write of its own field only. -/
theorem fieldsFollowTheirAccessTypes : Obligations.FieldsFollowTheirAccessTypes := by
  intro a old v mask r f hr hf
  refine ⟨fun i hi => ?_, fun i hi => bitOf_writtenBy_outside _ _ _ _ _ hi⟩
  rw [bitOf_writtenBy_inside (regAt_fields_apart hr) hf _ _ _ hi]
  cases f.acc <;> rfl

/-! ## What the steps of an access leave alone -/

@[simp] theorem State.dropLatch_hw (s : State) (fn : Nat) : (s.dropLatch fn).hw = s.hw := rfl
@[simp] theorem State.dropLatch_out (s : State) (fn : Nat) : (s.dropLatch fn).out = s.out := rfl
@[simp] theorem State.dropLatch_regs (s : State) (fn : Nat) : (s.dropLatch fn).regs = s.regs := rfl
@[simp] theorem State.dropLatch_flt (s : State) (fn : Nat) : (s.dropLatch fn).flt = s.flt := rfl

@[simp] theorem State.find_latches_dropLatch_same (s : State) (fn : Nat) :
    Map.find (s.dropLatch fn).host.latches fn = none :=
  (Map.find_del _ _ _).trans (if_pos rfl)

theorem State.find_latches_dropLatch_other (s : State) {fn m : Nat} (h : m ≠ fn) :
    Map.find (s.dropLatch fn).host.latches m = Map.find s.host.latches m :=
  (Map.find_del _ _ _).trans (if_neg h.symm)

/-- A read changes at most the register it names. -/
theorem State.clearRead_eq (s : State) (a mask : Nat) : s.clearRead a mask = s ∨ ∃ v, s.clearRead a mask = s.putReg a v := by
  unfold State.clearRead
  cases regAt a with
  | none => exact .inl rfl
  | some r => exact .inr ⟨_, rfl⟩

@[simp] theorem State.clearRead_out (s : State) (a mask : Nat) : (s.clearRead a mask).out = s.out := by
  rcases s.clearRead_eq a mask with h | ⟨v, h⟩ <;> simp [h]

@[simp] theorem State.clearRead_host (s : State) (a mask : Nat) : (s.clearRead a mask).host = s.host := by
  rcases s.clearRead_eq a mask with h | ⟨v, h⟩ <;> simp [h]

@[simp] theorem State.clearRead_flt (s : State) (a mask : Nat) : (s.clearRead a mask).flt = s.flt := by
  rcases s.clearRead_eq a mask with h | ⟨v, h⟩ <;> simp [h]

@[simp] theorem State.returned_out (s : State) (fn v : Nat) : (s.returned fn v).out = s.out ++ [.readData fn v] := rfl
@[simp] theorem State.returned_host (s : State) (fn v : Nat) : (s.returned fn v).host = s.host := rfl
@[simp] theorem State.returned_regs (s : State) (fn v : Nat) : (s.returned fn v).regs = s.regs := rfl
@[simp] theorem State.returned_flt (s : State) (fn v : Nat) : (s.returned fn v).flt = s.flt := rfl

/-! ## The half-read latch of a function (R427) -/

/-- The latch of a function filled with an upper half. -/
def State.keepLatch (s : State) (fn : Nat) (l : Latch) : State :=
  { s with host := { s.host with latches := Map.put s.host.latches fn l } }

@[simp] theorem State.keepLatch_out (s : State) (fn : Nat) (l : Latch) : (s.keepLatch fn l).out = s.out := rfl

@[simp] theorem State.find_latches_keepLatch_same (s : State) (fn : Nat) (l : Latch) :
    Map.find (s.keepLatch fn l).host.latches fn = some l := Map.find_put_same _ _ _

/-- What a read of an upper half returns: the latched half where the latch names the register, else the live half. -/
def State.upperHalf (s : State) (fn a : Nat) : Nat :=
  match Map.find s.host.latches fn with
  | some l => if l.addr = a then l.upper else s.readReg a / 2 ^ 32
  | none => s.readReg a / 2 ^ 32

theorem State.upperHalf_latched {s : State} {fn a : Nat} {l : Latch} (hl : Map.find s.host.latches fn = some l)
    (ha : l.addr = a) : s.upperHalf fn a = l.upper := by
  unfold State.upperHalf
  rw [hl]
  exact if_pos ha

/-! ## Accesses that are served and well formed -/

section
variable {s : State} {x : Access1}

theorem Access1.readable_of_unsafe (x : Access1) (h : s.safe = false) : x.readable s = true := by
  simp [Access1.readable, h]

theorem Access1.goodForm_word {fn : Fin 64} {bar : Bar} {off : Nat} (h : off % 8 = 0) :
    Access1.goodForm { fn := fn, bar := bar, off := off, size := 8 } = true := by
  simp [Access1.goodForm, h]

theorem Access1.goodForm_half {fn : Fin 64} {bar : Bar} {off : Nat} (h : off % 4 = 0) (hb : bar ≠ .bar2) :
    Access1.goodForm { fn := fn, bar := bar, off := off, size := 4 } = true := by
  simp [Access1.goodForm, h, hb]

/-- A served, well-formed write through BAR0 or BAR4 reaches the register that its address names. -/
theorem State.hostWrite_register (hs : x.served s = true) (hg : x.goodForm = true) (hb : x.bar ≠ .bar2) (v : Nat) :
    s.hostWrite x v = (s.dropLatch x.fn).writeReg x.fn x.addr (x.placed v) x.mask := by
  unfold State.hostWrite
  cases h : x.bar
  case bar2 => exact absurd h hb
  all_goals simp [hs, hg]

/-- A served, well-formed write through the lower half of BAR2 rings a doorbell. -/
theorem State.hostWrite_doorbell (hs : x.served s = true) (hg : x.goodForm = true) (hb : x.bar = .bar2)
    (ho : x.off < 2048) (v : Nat) : s.hostWrite x v = (s.dropLatch x.fn).doorbell x.fn (x.off / 8) v := by
  simp [State.hostWrite, hs, hg, hb, ho]

/-- A served, well-formed 64-bit read returns the register whole. -/
theorem State.hostRead_word (hs : x.served s = true) (hr : x.readable s = true) (hg : x.goodForm = true)
    (hb : x.bar ≠ .bar2) (h8 : x.size = 8) :
    s.hostRead x = ((s.dropLatch x.fn).clearRead x.addr x.mask).returned x.fn (s.readReg x.addr) := by
  simp [State.hostRead, hs, hr, hg, hb, h8]

/-- A served, well-formed read of a lower half returns it and latches the upper half. -/
theorem State.hostRead_lowerHalf (hs : x.served s = true) (hr : x.readable s = true) (hg : x.goodForm = true)
    (hb : x.bar ≠ .bar2) (h8 : x.size ≠ 8) (hu : x.upper = false) :
    s.hostRead x = (((s.dropLatch x.fn).clearRead x.addr x.mask).keepLatch x.fn
      { addr := x.addr, upper := s.readReg x.addr / 2 ^ 32 }).returned x.fn (s.readReg x.addr % 2 ^ 32) := by
  simp [State.hostRead, State.keepLatch, hs, hr, hg, hb, h8, hu]

/-- A served, well-formed read of an upper half returns the latched or the live half and empties the latch. -/
theorem State.hostRead_upperHalf (hs : x.served s = true) (hr : x.readable s = true) (hg : x.goodForm = true)
    (hb : x.bar ≠ .bar2) (h8 : x.size ≠ 8) (hu : x.upper = true) :
    s.hostRead x = ((s.dropLatch x.fn).clearRead x.addr x.mask).returned x.fn (s.upperHalf x.fn x.addr) := by
  cases hl : Map.find s.host.latches x.fn <;> simp [State.hostRead, State.upperHalf, hs, hr, hg, hb, h8, hu, hl]

end

/-! ## Where a write goes -/

/-- A write to an RWT register of a present unit is staged (R8). -/
theorem State.writeReg_rwt {a : Nat} (s : State) (fn v mask : Nat) (hrwt : isRwt a = true) (ha : a < 0x100000000)
    (hp : regAbsent s.hw.variant a = false) : s.writeReg fn a v mask = s.stageWrite a v mask := by
  simp [State.writeReg, hrwt, hp, Nat.not_le.2 ha]

/-- A write to a register of an absent unit that no transaction takes apart is ignored (R4). -/
theorem State.writeReg_absent {a : Nat} (s : State) (fn v mask : Nat) (hrwt : isRwt a = false)
    (hp : regAbsent s.hw.variant a = true) : s.writeReg fn a v mask = s := by
  simp [State.writeReg, hrwt, hp]

/-- A register of an absent unit reads 0 (R4). -/
theorem State.readReg_absent {a : Nat} (s : State) (hp : regAbsent s.hw.variant a = true) : s.readReg a = 0 := by
  simp [State.readReg, hp]

/-- The context windows belong to no unit that a variant lacks. -/
theorem regAbsent_window (v : Variant) {a : Nat} (h : 0x100000000 ≤ a) : regAbsent v a = false := by
  have hhi : ¬ a < 0x1000000 := by omega
  have htile : ¬ a < 0xE00000 := by omega
  have hport : ¬ a < 0x280000 := by omega
  have hmed : ¬ a < 0x700000 := by omega
  simp [regAbsent, hhi, htile, hport, hmed]

/-- A write to the window of context c, whoever writes (R423). -/
theorem State.writeReg_window {a c : Nat} (s : State) (fn v mask : Nat) (h : 0x100000000 ≤ a)
    (hc : (a - 0x100000000) / 0x10000 = c) : s.writeReg fn a v mask = s.windowWrite fn c a v mask := by
  simp [State.writeReg, regAbsent_window _ h, h, hc]

/-! ## Where each register access completes -/

theorem registerWrite_completes {x : Access1} {s : State} (v : BitVec 64) (hsafe : s.safe = false)
    (hs : x.served s = true) (hg : x.goodForm = true) (hb : x.bar ≠ .bar2) :
    Runs (.registerWrite x v) s ((s.dropLatch x.fn).writeReg x.fn x.addr (x.placed v.toNat) x.mask) :=
  runs_act (f := fun s => s.hostWrite x v.toNat) rfl hsafe (State.hostWrite_register hs hg hb _)

theorem rwtRegisterWrite_completes {x : Access1} {s : State} (v : BitVec 64) (hsafe : s.safe = false)
    (hs : x.served s = true) (hg : x.goodForm = true) (hb : x.bar ≠ .bar2) (hrwt : isRwt x.addr = true)
    (ha : x.addr < 0x100000000) (hp : regAbsent s.hw.variant x.addr = false) :
    Runs (.rwtRegisterWrite x v) s ((s.dropLatch x.fn).stageWrite x.addr (x.placed v.toNat) x.mask) := by
  refine runs_act (f := fun s => if isRwt x.addr then s.hostWrite x v.toNat else s) rfl hsafe ?_
  calc (if isRwt x.addr then s.hostWrite x v.toNat else s)
      = s.hostWrite x v.toNat := if_pos hrwt
    _ = (s.dropLatch x.fn).writeReg x.fn x.addr (x.placed v.toNat) x.mask := State.hostWrite_register hs hg hb _
    _ = _ := State.writeReg_rwt _ _ _ _ hrwt ha hp

theorem rcRegisterRead_completes {x : Access1} {s : State} (hs : x.served s = true) (hr : x.readable s = true)
    (hg : x.goodForm = true) (hb : x.bar ≠ .bar2) (h8 : x.size = 8) :
    Runs (.rcRegisterRead x) s (((s.dropLatch x.fn).clearRead x.addr x.mask).returned x.fn (s.readReg x.addr)) :=
  runs_always (f := fun s => s.hostRead x) rfl (State.hostRead_word hs hr hg hb h8)

theorem lowerHalfRead_completes {fn : Fin 64} {bar : Bar} {off : Nat} {x : Access1} {s : State}
    (hx : x = { fn := fn, bar := bar, off := off / 8 * 8, size := 4 }) (hs : x.served s = true)
    (hr : x.readable s = true) (hb : bar ≠ .bar2) :
    Runs (.lowerHalfRead fn bar off) s ((((s.dropLatch fn).clearRead x.addr x.mask).keepLatch fn
      { addr := x.addr, upper := s.readReg x.addr / 2 ^ 32 }).returned fn (s.readReg x.addr % 2 ^ 32)) := by
  subst hx
  refine runs_always (f := fun s => s.hostRead _) rfl
    (State.hostRead_lowerHalf hs hr (Access1.goodForm_half (by omega) hb) hb (show 4 ≠ 8 by decide) ?_)
  simp [Access1.upper]

theorem upperHalfRead_completes {fn : Fin 64} {bar : Bar} {off : Nat} {x : Access1} {s : State}
    (hx : x = { fn := fn, bar := bar, off := off / 8 * 8 + 4, size := 4 }) (hs : x.served s = true)
    (hr : x.readable s = true) (hb : bar ≠ .bar2) :
    Runs (.upperHalfRead fn bar off) s
      (((s.dropLatch fn).clearRead x.addr x.mask).returned fn (s.upperHalf fn x.addr)) := by
  subst hx
  refine runs_always (f := fun s => s.hostRead _) rfl
    (State.hostRead_upperHalf hs hr (Access1.goodForm_half (by omega) hb) hb (show 4 ≠ 8 by decide) ?_)
  simp [Access1.upper]

theorem doorbellWrite_completes {fn : Fin 64} {off : Nat} {x : Access1} {s : State} (v : BitVec 64)
    (hx : x = { fn := fn, bar := .bar2, off := off, size := 8 }) (hsafe : s.safe = false) (hs : x.served s = true)
    (h8 : off % 8 = 0) (ho : off < 2048) :
    Runs (.doorbellWrite fn off 8 v) s ((s.dropLatch fn).doorbell fn (off / 8) v.toNat) := by
  subst hx
  exact runs_act (f := fun s => s.hostWrite _ v.toNat) rfl hsafe
    (State.hostWrite_doorbell hs (Access1.goodForm_word h8) rfl ho _)

/-- RING_CFG r of a function's own window stands at 0x1008 + 0x20 r in it (R429). -/
theorem Access1.addr_ringCfg (fn : Fin 64) (ring : Fin 256) :
    Access1.addr { fn := fn, bar := .bar4, off := 0x1008 + ring * 0x20, size := 8 }
      = 0x100000000 + fn * 0x10000 + (0x1008 + ring * 0x20) := by
  simp only [Access1.addr]
  omega

theorem ringCfgWrite_completes {fn : Fin 64} {ring : Fin 256} {x : Access1} {s : State} (v : BitVec 64)
    (hx : x = { fn := fn, bar := .bar4, off := 0x1008 + ring * 0x20, size := 8 }) (hsafe : s.safe = false)
    (hs : x.served s = true) :
    Runs (.ringCfgWrite fn ring v) s ((s.dropLatch fn).windowWrite fn fn x.addr v.toNat (2 ^ 64 - 1)) := by
  have ha : x.addr = 0x100000000 + fn * 0x10000 + (0x1008 + ring * 0x20) := hx ▸ Access1.addr_ringCfg fn ring
  have hg : x.goodForm = true := by
    rw [hx]
    exact Access1.goodForm_word (by omega)
  have hplaced : x.placed v.toNat = v.toNat := by
    simp [hx, Access1.placed, Nat.mod_eq_of_lt v.isLt]
  refine runs_act (f := fun s => s.hostWrite { fn := fn, bar := .bar4, off := 0x1008 + ring * 0x20, size := 8 } v.toNat)
    rfl hsafe ?_
  rw [← hx, State.hostWrite_register hs hg (by simp [hx]), hplaced,
    State.writeReg_window (c := fn) _ _ _ _ (by omega) (by omega)]
  simp [hx, Access1.mask]

/-- Settles O1: each access is served by `hostWrite` or `hostRead`, whose well-formed cases are the lemmas above. -/
theorem registerAccessCompletes : Obligations.RegisterAccessCompletes := by
  refine ⟨?_, ?_, ?_, ?_, ?_, ?_, ?_⟩
  · intro x v s hsafe hs hg hb
    exact registerWrite_completes v hsafe hs hg hb
  · intro x v s hsafe hs hg hb hrwt ha hp
    exact rwtRegisterWrite_completes v hsafe hs hg hb hrwt ha hp
  · intro x s hs hr hg hb h8
    exact rcRegisterRead_completes hs hr hg hb h8
  · intro fn bar off x s hx hs hr hb
    exact ⟨_, lowerHalfRead_completes hx hs hr hb, by simp, by simp⟩
  · intro fn bar off x l s hx hs hr hb hl ha
    refine ⟨_, upperHalfRead_completes hx hs hr hb, ?_, by simp⟩
    simp [State.upperHalf_latched hl ha]
  · intro fn off v x s hx hsafe hs h8 ho
    exact doorbellWrite_completes v hx hsafe hs h8 ho
  · intro fn ring v x s hx hsafe hs
    exact ringCfgWrite_completes v hx hsafe hs

/-! ## Absent units (R4) -/

/-- Settles O36: an absent register reads 0 and drops what is written, and an access touches neither output nor faults
but for the data it returns. -/
theorem absentUnitsReadZero : Obligations.AbsentUnitsReadZero := by
  refine ⟨fun x s hsafe hs hg hbar h8 hp => ?_, fun x v s hsafe hs hg hbar hp hrwt => ?_⟩
  · have hb : x.bar ≠ .bar2 := by simp [hbar]
    refine ⟨_, rcRegisterRead_completes hs (x.readable_of_unsafe hsafe) hg hb h8, ?_, by simp⟩
    simp [s.readReg_absent hp]
  · have hb : x.bar ≠ .bar2 := by simp [hbar]
    refine ⟨_, registerWrite_completes v hsafe hs hg hb, ?_⟩
    rw [(s.dropLatch x.fn).writeReg_absent _ _ _ hrwt hp]
    exact ⟨rfl, rfl, rfl⟩

end Sys2Proof.Machine
end

section
/-!
PROOFS. The Throw (R64 to R67, R69): the inverse network undoes the network, so that the network permutes its domain; a
walk of a permutation comes back to where it began, so that cycle-walking ends inside the sample space and stays
injective there.
-/
namespace Sys2Proof.Machine

/-! ## The domain (R64) -/

/-- The exponent is even, and its domain holds all samples. -/
theorem throwExp_even_and_covers {n : Nat} (h : n ≤ 2 ^ 48) : throwExp n % 2 = 0 ∧ n ≤ 2 ^ throwExp n := by
  unfold throwExp
  cases hf : ((List.range 24).map (fun i => 2 * i + 2)).find? (fun k => n ≤ 2 ^ k) with
  | none => exact ⟨rfl, h⟩
  | some k =>
    have hmem := List.mem_of_find?_eq_some hf
    have hcov := List.find?_some hf
    simp only [List.mem_map, List.mem_range, decide_eq_true_eq] at hmem hcov
    obtain ⟨i, -, rfl⟩ := hmem
    exact ⟨by simp, hcov⟩

/-! ## The network and its inverse (R67, R69) -/

/-- One round on the two halves. -/
def feistelRound (f : Nat → Nat → Nat) (p : Nat × Nat) (t : Nat) : Nat × Nat := (p.2, p.1 ^^^ f t p.2)

/-- The round of the inverse network. -/
def feistelUndo (f : Nat → Nat → Nat) (p : Nat × Nat) (t : Nat) : Nat × Nat := (p.2 ^^^ f t p.1, p.1)

theorem feistelUndo_feistelRound (f : Nat → Nat → Nat) (p : Nat × Nat) (t : Nat) :
    feistelUndo f (feistelRound f p t) t = p := by
  simp [feistelUndo, feistelRound]

theorem foldl_undo_foldl_round (f : Nat → Nat → Nat) (rounds : List Nat) (p : Nat × Nat) :
    rounds.reverse.foldl (feistelUndo f) (rounds.foldl (feistelRound f) p) = p := by
  induction rounds generalizing p with
  | nil => rfl
  | cons t ts ih => simp [ih, feistelUndo_feistelRound]

/-- Rounds whose function gives hw bits keep both halves at hw bits. -/
theorem foldl_round_lt {f : Nat → Nat → Nat} {hw : Nat} (hf : ∀ t v, f t v < 2 ^ hw) (rounds : List Nat) {p : Nat × Nat}
    (h1 : p.1 < 2 ^ hw) (h2 : p.2 < 2 ^ hw) :
    (rounds.foldl (feistelRound f) p).1 < 2 ^ hw ∧ (rounds.foldl (feistelRound f) p).2 < 2 ^ hw := by
  induction rounds generalizing p with
  | nil => exact ⟨h1, h2⟩
  | cons t ts ih => exact ih h2 (Nat.xor_lt_two_pow h1 (hf t p.2))

/-- The two halves of a number, and the number with these halves. -/
def halves (hw x : Nat) : Nat × Nat := (x / 2 ^ hw, x % 2 ^ hw)
def joined (hw : Nat) (p : Nat × Nat) : Nat := p.1 * 2 ^ hw + p.2

theorem joined_halves (hw x : Nat) : joined hw (halves hw x) = x := Nat.div_add_mod' x (2 ^ hw)

theorem halves_joined {hw : Nat} {p : Nat × Nat} (h : p.2 < 2 ^ hw) : halves hw (joined hw p) = p := by
  simp [halves, joined, Nat.mod_eq_of_lt h, Nat.add_comm, Nat.add_mul_div_right, Nat.div_eq_of_lt h]

theorem feistelWith_eq (f : Nat → Nat → Nat) (hw : Nat) (rounds : List Nat) (x : Nat) :
    feistelWith f hw rounds x = joined hw (rounds.foldl (feistelRound f) (halves hw x)) := rfl

theorem feistelInverse_eq (f : Nat → Nat → Nat) (hw : Nat) (rounds : List Nat) (y : Nat) :
    feistelInverse f hw rounds y = joined hw (rounds.reverse.foldl (feistelUndo f) (halves hw y)) := rfl

section
variable {f : Nat → Nat → Nat} {hw : Nat} (hf : ∀ t v, f t v < 2 ^ hw) (rounds : List Nat) {x : Nat}
  (hx : x < 2 ^ hw * 2 ^ hw)
include hf hx

theorem foldl_round_halves_lt :
    (rounds.foldl (feistelRound f) (halves hw x)).1 < 2 ^ hw ∧ (rounds.foldl (feistelRound f) (halves hw x)).2 < 2 ^ hw :=
  foldl_round_lt hf rounds (Nat.div_lt_of_lt_mul hx) (Nat.mod_lt _ (by positivity))

/-- The network maps its domain into itself. -/
theorem feistelWith_lt : feistelWith f hw rounds x < 2 ^ hw * 2 ^ hw := by
  obtain ⟨h1, h2⟩ := foldl_round_halves_lt hf rounds hx
  rw [feistelWith_eq, joined]
  nlinarith

/-- R69: the inverse network undoes the network. -/
theorem feistelInverse_feistelWith : feistelInverse f hw rounds (feistelWith f hw rounds x) = x := by
  obtain ⟨-, h2⟩ := foldl_round_halves_lt hf rounds hx
  rw [feistelInverse_eq, feistelWith_eq, halves_joined h2, foldl_undo_foldl_round, joined_halves]

end

/-! ## The Throw's network permutes the domain -/

theorem throwRound_lt (keys : List Bytes) (k t v : Nat) : throwRound keys k t v < 2 ^ (k / 2) :=
  Nat.mod_lt _ (by positivity)

theorem two_pow_even {k : Nat} (hk : k % 2 = 0) : 2 ^ k = 2 ^ (k / 2) * 2 ^ (k / 2) := by
  rw [← pow_add]
  congr 1
  omega

theorem feistel_mapsTo (keys : List Bytes) {k : Nat} (hk : k % 2 = 0) :
    Set.MapsTo (feistel keys k) (Set.Iio (2 ^ k)) (Set.Iio (2 ^ k)) := by
  intro x hx
  rw [Set.mem_Iio, two_pow_even hk] at *
  exact feistelWith_lt (throwRound_lt keys k) _ hx

theorem feistel_injOn (keys : List Bytes) {k : Nat} (hk : k % 2 = 0) : Set.InjOn (feistel keys k) (Set.Iio (2 ^ k)) := by
  rw [two_pow_even hk]
  exact Set.LeftInvOn.injOn (f₁' := feistelInverse (throwRound keys k) (k / 2) (List.range 8))
    fun x hx => feistelInverse_feistelWith (throwRound_lt keys k) _ hx

/-! ## Cycle-walking (R67) -/

/-- A walk ends at the first number below n, or somewhere above n. -/
theorem throwWalk_eq_iterate (step : Nat → Nat) (n fuel y : Nat) :
    ∃ i, throwWalk step n fuel y = step^[i] y ∧ ∀ j < i, n ≤ step^[j] y := by
  induction fuel generalizing y with
  | zero => exact ⟨0, rfl, by simp⟩
  | succ fuel ih =>
    by_cases hy : y < n
    · exact ⟨0, by simp [throwWalk, hy], by simp⟩
    · obtain ⟨i, hi, hbefore⟩ := ih (step y)
      refine ⟨i + 1, by simp [throwWalk, hy, hi], fun j hj => ?_⟩
      cases j with
      | zero => exact Nat.le_of_not_lt hy
      | succ j => exact hbefore j (by omega)

/-- A walk that meets a number below n within its fuel ends below n. -/
theorem throwWalk_lt {step : Nat → Nat} {n fuel y i : Nat} (hi : i ≤ fuel) (h : step^[i] y < n) :
    throwWalk step n fuel y < n := by
  induction fuel generalizing y i with
  | zero =>
    obtain rfl : i = 0 := by omega
    exact h
  | succ fuel ih =>
    by_cases hy : y < n
    · simp [throwWalk, hy]
    · cases i with
      | zero => exact absurd h hy
      | succ i => simpa [throwWalk, hy] using ih (Nat.le_of_succ_le_succ hi) h

section
variable {step : Nat → Nat} {m : Nat} (hmaps : Set.MapsTo step (Set.Iio m) (Set.Iio m))
  (hinj : Set.InjOn step (Set.Iio m))
include hmaps hinj

/-- A permutation of the numbers below m comes back to each of them within m steps. -/
theorem exists_iterate_returns {p : Nat} (hp : p < m) : ∃ i ≤ m, step^[i] (step p) = p := by
  have hperiodic := (hmaps.restrict_inj.2 hinj).mem_periodicPts ⟨p, hp⟩
  obtain ⟨i, hi⟩ := Nat.exists_eq_succ_of_ne_zero (Function.minimalPeriod_pos_of_mem_periodicPts hperiodic).ne'
  have hle := Function.minimalPeriod_le_card (f := hmaps.restrict) (x := ⟨p, hp⟩)
  have hreturn := Function.iterate_minimalPeriod (f := hmaps.restrict) (x := ⟨p, hp⟩)
  rw [hi, hmaps.iterate_restrict] at hreturn
  rw [hi, ← Set.toFinset_card, Set.toFinset_Iio, Nat.card_Iio] at hle
  exact ⟨i, by omega, congrArg Subtype.val hreturn⟩

variable {n : Nat} (hn : n ≤ m)
include hn

/-- Two walks that meet began at one number: the shorter one's beginning lies on the longer one, below n. -/
theorem walks_meet {p q i j : Nat} (hp : p < n) (hq : q < n) (hij : i ≤ j) (hj : ∀ l < j, n ≤ step^[l] (step q))
    (h : step^[i] (step p) = step^[j] (step q)) : p = q := by
  obtain ⟨d, rfl⟩ := Nat.exists_eq_add_of_le hij
  have hpd : p = step^[d] q := by
    refine hinj.iterate hmaps (i + 1) (show p < m by omega) (hmaps.iterate d (show q < m by omega)) ?_
    rw [← Function.iterate_add_apply, show i + 1 + d = i + d + 1 by omega]
    exact h
  cases d with
  | zero => exact hpd
  | succ d =>
    have hback : n ≤ p := hpd ▸ hj d (by omega)
    omega

theorem throwWalk_step_lt {p : Nat} (hp : p < n) : throwWalk step n m (step p) < n := by
  obtain ⟨i, hi, hreturn⟩ := exists_iterate_returns hmaps hinj (show p < m by omega)
  exact throwWalk_lt hi (hreturn.symm ▸ hp)

theorem throwWalk_step_injective {p q fuel : Nat} (hp : p < n) (hq : q < n)
    (h : throwWalk step n fuel (step p) = throwWalk step n fuel (step q)) : p = q := by
  obtain ⟨i, hi, hpbefore⟩ := throwWalk_eq_iterate step n fuel (step p)
  obtain ⟨j, hj, hqbefore⟩ := throwWalk_eq_iterate step n fuel (step q)
  have hmeet : step^[i] (step p) = step^[j] (step q) := by rw [← hi, h, hj]
  rcases Nat.le_total i j with hij | hji
  · exact walks_meet hmaps hinj hn hp hq hij hqbefore hmeet
  · exact (walks_meet hmaps hinj hn hq hp hji hpbefore hmeet.symm).symm

end

/-- Settles O53: the network permutes a domain that holds every sample, so cycle-walking ends below n and is injective. -/
theorem theThrowIsAPermutation : Obligations.TheThrowIsAPermutation := by
  intro seed e n _ hn
  obtain ⟨heven, hcover⟩ := throwExp_even_and_covers (n := n) (by omega)
  have hmaps := feistel_mapsTo (throwKeys seed e (throwExp n)) heven
  have hinj := feistel_injOn (throwKeys seed e (throwExp n)) heven
  exact ⟨fun p hp => throwWalk_step_lt hmaps hinj hcover hp,
    fun p q hp hq h => throwWalk_step_injective hmaps hinj hcover hp hq h⟩

end Sys2Proof.Machine
end

section
/-!
PROOFS. The fault collector (R41, R42, R382 to R388): the first of the due events in collector order is the one that is
committed, and what the lines, the acknowledgements and forced faults put on the collector's input.
-/
namespace Sys2Proof.Machine

/-! ## Updates of the collector's state -/

@[simp] theorem State.setFlt_flt (s : State) (x : FaultState) : (s.setFlt x).flt = x := rfl
@[simp] theorem State.setFlt_regs (s : State) (x : FaultState) : (s.setFlt x).regs = s.regs := rfl
@[simp] theorem State.setFlt_dtime (s : State) (x : FaultState) : (s.setFlt x).dtime = s.dtime := rfl
@[simp] theorem State.setFlt_safe (s : State) (x : FaultState) : (s.setFlt x).safe = s.safe :=
  congrArg (· == 1) (State.fld_congr (s := s) (t := s.setFlt x) rfl rfl fFLT_STATUS_GRAVE)

@[simp] theorem State.disarmPrev_dtime (s : State) : s.disarmPrev.dtime = s.dtime := rfl

/-! ## Collector order (R41) -/

/-- Stamp first, source second: the order in which events may be committed. -/
def ErrEvent.notAfter (a b : ErrEvent) : Prop := a.stamp < b.stamp ∨ (a.stamp = b.stamp ∧ a.src ≤ b.src)

theorem ErrEvent.notAfter_refl (a : ErrEvent) : a.notAfter a := .inr ⟨rfl, Nat.le_refl _⟩

theorem ErrEvent.notAfter_trans {a b c : ErrEvent} (hab : a.notAfter b) (hbc : b.notAfter c) : a.notAfter c := by
  unfold notAfter at *
  omega

theorem ErrEvent.notAfter_of_before {a b : ErrEvent} (h : a.before b = true) : a.notAfter b := by
  simp only [before, Bool.or_eq_true, Bool.and_eq_true, decide_eq_true_eq, beq_iff_eq] at h
  unfold notAfter
  omega

theorem ErrEvent.notAfter_of_not_before {a b : ErrEvent} (h : ¬ a.before b = true) : b.notAfter a := by
  simp only [before, Bool.or_eq_true, Bool.and_eq_true, decide_eq_true_eq, beq_iff_eq] at h
  unfold notAfter
  omega

theorem firstEvent_eq_none {es : List ErrEvent} : firstEvent es = none ↔ es = [] := by
  cases es with
  | nil => simp [firstEvent]
  | cons e es =>
    simp only [firstEvent, reduceCtorEq, iff_false]
    cases firstEvent es with
    | none => simp
    | some f => by_cases h : f.before e = true <;> simp [h]

/-- The first event is one of the list, and none of the list stands before it by stamp and source. -/
theorem firstEvent_least {es : List ErrEvent} {e : ErrEvent} (h : firstEvent es = some e) :
    e ∈ es ∧ ∀ d ∈ es, e.notAfter d := by
  induction es generalizing e with
  | nil => simp [firstEvent] at h
  | cons x xs ih =>
    cases hf : firstEvent xs with
    | none =>
      obtain rfl := firstEvent_eq_none.1 hf
      obtain rfl : x = e := by simpa [firstEvent] using h
      simpa using x.notAfter_refl
    | some f =>
      obtain ⟨hmem, hleast⟩ := ih hf
      by_cases hfx : f.before x = true
      · obtain rfl : f = e := by simpa [firstEvent, hf, hfx] using h
        exact ⟨List.mem_cons_of_mem _ hmem, List.forall_mem_cons.2 ⟨ErrEvent.notAfter_of_before hfx, hleast⟩⟩
      · obtain rfl : x = e := by simpa [firstEvent, hf, hfx] using h
        exact ⟨List.mem_cons_self .., List.forall_mem_cons.2 ⟨x.notAfter_refl,
          fun d hd => ErrEvent.notAfter_trans (ErrEvent.notAfter_of_not_before hfx) (hleast d hd)⟩⟩

/-! ## The commit of an event (R42) -/

/-- Events on the lines whose time has come. -/
def State.dueEvents (s : State) : List ErrEvent := s.flt.lines.filter (fun x => x.stamp + 24 ≤ s.dtime)

theorem State.mem_dueEvents {s : State} {e : ErrEvent} : e ∈ s.dueEvents ↔ e ∈ s.flt.lines ∧ e.stamp + 24 ≤ s.dtime := by
  simp [dueEvents]

/-- The first due event goes from the lines to the committed events, with its concurrent mark. -/
theorem State.commitEvent_first {s : State} {e : ErrEvent} (h : firstEvent s.dueEvents = some e) :
    ∃ c r, s.commitEvent = s.setFlt { s.flt with
      lines := s.flt.lines.erase e, committed := s.flt.committed ++ [{ e with concurrent := c }], recentStamps := r } := by
  unfold State.dueEvents at h
  unfold State.commitEvent
  rw [h]
  exact ⟨_, _, rfl⟩

theorem eventCommit_first {s : State} {e : ErrEvent} (h : firstEvent s.dueEvents = some e) :
    ∃ t c, exec .eventCommit s = .next t ∧ t.flt.lines = s.flt.lines.erase e
      ∧ t.flt.committed = s.flt.committed ++ [{ e with concurrent := c }] ∧ t.regs = s.regs := by
  obtain ⟨c, r, hcommit⟩ := State.commitEvent_first h
  refine ⟨s.commit s.commitEvent, c, rfl, ?_⟩
  simp [hcommit]

/-! ## What comes on the lines (R382, R385, R388) -/

theorem errorLineEvent_listed {src : Nat} (h : sourceListed src = true) (unit ctx : Nat) (st : Status) (cls : FClass)
    (s : State) : Runs (.errorLineEvent (.event src unit ctx st cls)) s (s.raise src st unit (ctxOrNone ctx) cls) :=
  runs_always (f := fun s => s.onLine _) rfl (by simp [State.onLine, h])

/-- A force write that names a class below F5 and a listed source puts the forced event on a line. -/
theorem State.forceWrite_listed {s : State} {v : Nat} {cls : FClass} (hc : FClass.named (bitsOf v 8 3) = some cls)
    (hs : sourceListed (bitsOf v 16 16) = true) (h5 : cls ≠ .f5) :
    s.forceWrite v = (s.disarmPrev.unflag fFLT_CTRL_ARM_F5).push {
      kind := .fault, src := bitsOf v 16 16, status := stFLT_FORCED, unit := 0, ctx := ctxOrNone (bitsOf v 0 8),
      cls := cls, stamp := s.dtime, forced := true, discrepancy := false, concurrent := false } := by
  simp [State.forceWrite, hc, hs, h5]

/-! ## What is taken from the committed events (R384, R385) -/

theorem State.takeFault_fault {s : State} {e : ErrEvent} {es : List ErrEvent} (h : s.flt.committed = e :: es)
    (hk : e.kind = .fault) :
    s.takeFault = ((s.setFlt { s.flt with committed := es }).applyFault e).showFaultOut := by
  simp [State.takeFault, h, hk]

theorem State.takeFault_ack {s : State} {e : ErrEvent} {es : List ErrEvent} (hsafe : s.safe = false)
    (h : s.flt.committed = e :: es) (hk : e.kind ≠ .fault) :
    s.takeFault = ((s.setFlt { s.flt with committed := es }).acknowledge e).showFaultOut := by
  unfold State.takeFault
  rw [h]
  cases hkind : e.kind with
  | fault => exact absurd hkind hk
  | ackF3 | ackF4 | ackF2 => simp [hsafe]

/-- A write of the FLT block by PF0 that reaches it completes with its own effect. -/
theorem runs_fltWrite {c : Instr} {s t : State} {body : State → State}
    (he : exec c s = act s (fun s => if (0 : Fin 64) ≠ 0 ∨ !s.reaches ((0 : Fin 64) : Nat) then s else body s))
    (hsafe : s.safe = false) (hr : s.reaches 0 = true) (ht : body s = t) : Runs c s t :=
  runs_act he hsafe (by simpa [hr] using ht)

/-- Settles O2: each command runs its effect, which the lemmas above give case by case. -/
theorem faultCollectorCompletes : Obligations.FaultCollectorCompletes := by
  refine ⟨?_, ?_, ?_, ?_, ?_, ?_, ?_, ?_⟩
  · intro e s h
    exact eventCommit_first h
  · intro src unit ctx st cls s hsrc
    exact ⟨_, errorLineEvent_listed hsrc unit ctx st cls s, rfl, State.raise_regs ..⟩
  · intro e es s h hk
    exact runs_always rfl (State.takeFault_fault h hk)
  · intro e es s hsafe h hk
    exact runs_always rfl (State.takeFault_ack hsafe h hk)
  · intro s hsafe hr
    exact runs_fltWrite (body := fun s => s.disarmPrev.collectorEvent .ackF3 stOK 0 noCtx .f3 false) rfl hsafe hr rfl
  · intro s hsafe hr
    exact runs_fltWrite (body := fun s => s.disarmPrev.collectorEvent .ackF4 stOK 0 noCtx .f4 false) rfl hsafe hr rfl
  · intro v cls s hsafe hr hc hsrc h5
    exact runs_fltWrite (body := fun s => s.forceWrite v.toNat) rfl hsafe hr (State.forceWrite_listed hc hsrc h5)
  · intro outF3 s hsafe hr
    exact runs_fltWrite (body := fun s => s.armF5 outF3) rfl hsafe hr rfl

/-! ## Collector order over all due events, and the order of the sources (Table 17.1) -/

/-- Settles O37: the committed event is the first of the due ones, and Table 17.1 numbers hub blocks, tiles and ports in
this order. -/
theorem eventsCommitInCollectorOrder : Obligations.EventsCommitInCollectorOrder := by
  refine ⟨fun s hdue => ?_, fun src t _ hsrc => ?_, fun t u htu => ?_, fun t p ht => ?_⟩
  · obtain ⟨d, hd, hcome⟩ := hdue
    have hsome : firstEvent s.dueEvents ≠ none := fun hnone =>
      List.ne_nil_of_mem (State.mem_dueEvents.2 ⟨hd, hcome⟩) (firstEvent_eq_none.1 hnone)
    obtain ⟨e, he⟩ := Option.ne_none_iff_exists'.1 hsome
    obtain ⟨hmem, hleast⟩ := firstEvent_least he
    obtain ⟨hline, htime⟩ := State.mem_dueEvents.1 hmem
    obtain ⟨t, c, hexec, hlines, hcommitted, -⟩ := eventCommit_first he
    exact ⟨t, e, hexec, hline, htime, hlines, ⟨c, hcommitted⟩,
      fun x hx hxtime => hleast x (State.mem_dueEvents.2 ⟨hx, hxtime⟩)⟩
  · unfold srcTILE
    omega
  · unfold srcTILE
    omega
  · unfold srcTILE srcPORT
    omega

end Sys2Proof.Machine
end

section
/-!
PROOFS. Loads and stores of a lane (R17, R89): little-endian bytes and the tile store read what was written, and how an
instruction ends touches neither the lane's general registers nor the store.
-/
namespace Sys2Proof.Machine

/-! ## Little-endian bytes, and reading what was written -/

@[simp] theorem length_toLE (len n : Nat) : (toLE len n).length = len := by
  induction len generalizing n with
  | zero => rfl
  | succ len ih => simp [toLE, ih]

theorem leNat_toLE (len n : Nat) : leNat (toLE len n) = n % 2 ^ (8 * len) := by
  induction len generalizing n with
  | zero => simp [toLE, leNat, Nat.mod_one]
  | succ len ih =>
    calc leNat (toLE (len + 1) n) = n % 256 + 256 * (n / 256 % 2 ^ (8 * len)) := by simp [toLE, leNat, byteOf, ih]
      _ = n % (256 * 2 ^ (8 * len)) := Nat.mod_mul.symm
      _ = n % 2 ^ (8 * (len + 1)) := by
        rw [show 8 * (len + 1) = 8 + 8 * len by omega, pow_add]
        rfl

theorem Mem.read_write_same (m : Mem) (a : Nat) (bs : Bytes) : Mem.read (Mem.write m a bs) a bs.length = bs := by
  induction bs generalizing m a with
  | nil => rfl
  | cons b bs ih =>
    have hhead : Mem.get (Mem.write (Mem.set m a b) (a + 1) bs) a = b := by
      rw [Mem.get_write_outside _ _ _ _ (by omega), Mem.get_set, if_pos rfl]
    simp only [Mem.write, List.length_cons, Mem.read, hhead, ih]

/-! ## A lane's registers -/

theorem Lane.getG_setG_same (x : Lane) {r : Nat} (v : BitVec 64) (h : r ≠ 0) : (x.setG r v).getG r = v := by
  have hread := Map.getD_setD (fun _ => 0#64) x.g r r v
  simpa [Lane.getG, Lane.setG, h] using hread

theorem Lane.getG_congr {x y : Lane} (h : x.g = y.g) (r : Nat) : x.getG r = y.getG r := by
  rw [Lane.getG, Lane.getG, h]

theorem Lane.addr_congr {x y : Lane} (h : x.g = y.g) (rs1 : Nat) (imm : BitVec 16) : x.addr rs1 imm = y.addr rs1 imm := by
  rw [Lane.addr, Lane.addr, Lane.getG_congr h]

@[simp] theorem Lane.next_g (x : Lane) : x.next.g = x.g := rfl

/-! ## A tile and its lanes -/

@[simp] theorem State.tile_commit (s t : State) (n : Nat) : (s.commit t).tile n = t.tile n := rfl

@[simp] theorem State.tile_mapTile_same (s : State) (t : Nat) (f : TileRec → TileRec) :
    (s.mapTile t f).tile t = f (s.tile t) := Map.getD_put_same ..

@[simp] theorem TileRec.lane_setLane_same (r : TileRec) (l : Nat) (x : Lane) : (r.setLane l x).lane l = x :=
  Map.getD_put_same ..

@[simp] theorem State.lane_setLane_same (s : State) (t l : Nat) (x : Lane) : ((s.setLane t l x).tile t).lane l = x := by
  simp [State.setLane]

@[simp] theorem State.store_setLane_same (s : State) (t l : Nat) (x : Lane) :
    ((s.setLane t l x).tile t).store = (s.tile t).store := by
  simp [State.setLane, TileRec.setLane]

@[simp] theorem State.loadTile_storeTile_same (s : State) (t a : Nat) (d : Bytes) :
    (s.storeTile t a d).loadTile t a d.length = d := by
  simp [State.storeTile, State.loadTile, Mem.read_write_same]

@[simp] theorem State.tileFault_tiles (s : State) (t : Nat) (st : Status) : (s.tileFault t st).tiles = s.tiles := by
  unfold State.tileFault
  split
  · rfl
  · simp

theorem State.tile_laneFault (s : State) (t l : Nat) (st : Status) :
    (s.laneFault t l st).tile t = (s.setLane t l { (s.tile t).lane l with run := .faulted }).tile t := by
  simp [State.laneFault, State.tile]

/-! ## How an instruction ends -/

/-- The lane with a retired instruction counted while it holds a work slot (R94). -/
def Lane.counted (x : Lane) : Lane :=
  if x.slot.isSome then { x with retired := x.retired + 1, stall := .none } else { x with stall := .none }

@[simp] theorem Lane.counted_g (x : Lane) : x.counted.g = x.g := by
  unfold Lane.counted
  split <;> rfl

/-- A retired instruction leaves its lane running on or with a lane fault. -/
theorem State.retire_cases (s : State) (t l : Nat) (x : Lane) :
    s.retire t l x = s.setLane t l x.counted ∨ ∃ st, s.retire t l x = (s.setLane t l x.counted).laneFault t l st := by
  unfold State.retire
  dsimp only
  rw [← Lane.counted]
  split
  · exact .inl rfl
  · split
    · split
      · exact .inr ⟨_, rfl⟩
      · split
        · exact .inr ⟨_, rfl⟩
        · exact .inl rfl
    · exact .inl rfl

@[simp] theorem State.g_endLane_go (s : State) (t l : Nat) (x : Lane) :
    (((s.endLane t l (.go x)).tile t).lane l).g = x.g := by
  obtain h | ⟨st, h⟩ := s.retire_cases t l x
  · simp [State.endLane, h]
  · simp [State.endLane, h, State.tile_laneFault]

@[simp] theorem State.store_endLane_go (s : State) (t l : Nat) (x : Lane) :
    ((s.endLane t l (.go x)).tile t).store = (s.tile t).store := by
  obtain h | ⟨st, h⟩ := s.retire_cases t l x
  · simp [State.endLane, h]
  · simp [State.endLane, h, State.tile_laneFault]

/-! ## Loads and stores (R89) -/

section
variable {s : State} {tile : Fin 96} {lane : Fin 288} {size : LaneSize} {rs1 : Fin 32} {imm : BitVec 16} {x : Lane}
  (hi : Issues s tile lane) (hx : (s.tile tile).lane lane = x) (hgood : badAddr (x.addr rs1 imm) size.bytes = false)
include hi hx hgood

theorem store_completes (hw : s.readOnly tile (x.addr rs1 imm) = false) (rd : Fin 32) :
    Runs (.store tile lane size rd rs1 imm) s
      ((s.storeTile tile (x.addr rs1 imm) (toLE size.bytes (x.getG rd).toNat)).endLane tile lane (.go x.next)) := by
  obtain ⟨hsafe, hissues⟩ := hi
  subst hx
  refine runs_act (f := fun s => s.laneStore tile lane (((s.tile tile).lane lane).addr rs1 imm) size.bytes
    (toLE size.bytes (((s.tile tile).lane lane).getG rd).toNat)) rfl hsafe ?_
  simp [State.laneStore, hissues, hgood, hw]

theorem load_completes (signed : Bool) (rd : Fin 32) :
    Runs (.load tile lane size signed rd rs1 imm) s (s.endLane tile lane
      (.go (x.setG rd (extend64 size signed (leNat (s.loadTile tile (x.addr rs1 imm) size.bytes)))).next)) := by
  have hrun := runs_lane (i := .load tile lane size signed rd rs1 imm)
    (body := fun s x => if badAddr (x.addr rs1 imm) size.bytes then .fault x stLANE_ADDRESS
      else .go (x.setG rd (extend64 size signed (leNat (s.loadTile tile (x.addr rs1 imm) size.bytes)))).next) rfl hi
  simpa [hx, hgood] using hrun

/-- A store keeps the lane's general registers, and the stored bytes are read back. -/
theorem store_leaves (hw : s.readOnly tile (x.addr rs1 imm) = false) {rd : Fin 32} {t : State}
    (ht : exec (.store tile lane size rd rs1 imm) s = .next t) :
    ((t.tile tile).lane lane).g = x.g
      ∧ t.loadTile tile (x.addr rs1 imm) size.bytes = toLE size.bytes (x.getG rd).toNat := by
  obtain rfl := Host.Outcome.next.inj ((store_completes hi hx hgood hw rd).symm.trans ht)
  have hread := s.loadTile_storeTile_same tile (x.addr rs1 imm) (toLE size.bytes (x.getG rd).toNat)
  exact ⟨by simp, by simpa [State.loadTile] using hread⟩

/-- A load leaves the loaded number in its destination. -/
theorem load_reads (signed : Bool) {rd : Fin 32} (hrd : rd ≠ 0) :
    ∃ t, exec (.load tile lane size signed rd rs1 imm) s = .next t
      ∧ ((t.tile tile).lane lane).getG rd
        = extend64 size signed (leNat (s.loadTile tile (x.addr rs1 imm) size.bytes)) := by
  refine ⟨_, load_completes hi hx hgood signed rd, ?_⟩
  rw [State.tile_commit, Lane.getG_congr (State.g_endLane_go ..)]
  exact Lane.getG_setG_same _ _ (Fin.val_ne_of_ne hrd)

end

/-- Settles O44: the store leaves the registers, so the load has its address, and reads back the bytes that it wrote. -/
theorem loadsReturnTheLanesOwnStore : Obligations.LoadsReturnTheLanesOwnStore := by
  intro tile lane size rd rs1 rd' imm x s t hi hx hgood hw hstore hit hrd'
  obtain ⟨hg, hbytes⟩ := store_leaves hi hx.symm hgood hw hstore
  have haddr := Lane.addr_congr hg rs1 imm
  obtain ⟨u, hload, hread⟩ := load_reads hit rfl (haddr ▸ hgood) false hrd'
  refine ⟨u, hload, ?_⟩
  rw [hread, haddr, hbytes, leNat_toLE]
  rfl

end Sys2Proof.Machine
end

section
/-!
PROOFS. Placement (R28, R59): the fragments of a stripe go round the pod's members, so a member comes again only after
all the others.
-/
namespace Sys2Proof.Machine

/-! ## The members of a pod -/

theorem PodEnt.members_nodup (p : PodEnt) : p.members.Nodup := List.nodup_range.filter _

/-- R59: fragment f of stripe s lies on the member that stands f places on from the stripe's first. -/
theorem DatasetEnt.holder_eq {d : DatasetEnt} {s : Nat} {p : PodEnt} (hp : d.pods[s % d.pods.length]? = some p) (f : Nat) :
    d.holder s f
      = p.pod * 32 + p.members.getD ((s / d.pods.length % p.members.length + f) % p.members.length) 0 := by
  simp only [DatasetEnt.holder, hp]

/-- Two fragments with one holder stand a multiple of the number of members apart. -/
theorem DatasetEnt.modEq_of_holder_eq {d : DatasetEnt} {s : Nat} {p : PodEnt} (hp : d.pods[s % d.pods.length]? = some p)
    (hm : 0 < p.members.length) {f g : Nat} (h : d.holder s f = d.holder s g) : f ≡ g [MOD p.members.length] := by
  have hf := Nat.mod_lt (s / d.pods.length % p.members.length + f) hm
  have hg := Nat.mod_lt (s / d.pods.length % p.members.length + g) hm
  rw [holder_eq hp, holder_eq hp, List.getD_eq_getElem _ _ hf, List.getD_eq_getElem _ _ hg] at h
  have hplace := (p.members_nodup.getElem_inj_iff).1 (Nat.add_left_cancel h)
  exact Nat.ModEq.add_left_cancel' _ hplace

/-! ## Numbers that stand apart -/

/-- Of the numbers below 12, no three stand 6 or more apart. -/
theorem length_le_two_of_apart {l : List Nat} (hapart : l.Pairwise (fun a b => a + 6 ≤ b)) (hlt : ∀ a ∈ l, a < 12) :
    l.length ≤ 2 := by
  match l with
  | [] | [_] | [_, _] => simp
  | a :: b :: c :: _ =>
    simp only [List.pairwise_cons] at hapart
    obtain ⟨ha, hb, -⟩ := hapart
    have hab := ha b (by simp)
    have hbc := hb c (by simp)
    have hc := hlt c (by simp)
    omega

/-- Settles O54: the fragments that a member holds stand at least 6 apart, and there are 12. -/
theorem noMemberHoldsThreeFragments : Obligations.NoMemberHoldsThreeFragments := by
  intro d stripe rank p hp hm
  refine length_le_two_of_apart ?_ fun f hf => List.mem_range.1 (List.mem_of_mem_filter hf)
  refine (List.pairwise_lt_range.filter _).imp_of_mem fun {f g} hf hg hlt => ?_
  have hfr : d.holder stripe f = rank := by simpa using (List.mem_filter.1 hf).2
  have hgr : d.holder stripe g = rank := by simpa using (List.mem_filter.1 hg).2
  have hmod := DatasetEnt.modEq_of_holder_eq hp (by omega) (hfr.trans hgr.symm)
  have hle := Nat.le_of_dvd (by omega) ((Nat.modEq_iff_dvd' hlt.le).1 hmod)
  omega

end Sys2Proof.Machine
end

section
/-!
PROOFS. The domain of the Throw (R64): the search for the exponent goes through the even numbers from 2 to 48 in rising
order and finds one, so its find is the smallest.
-/
namespace Sys2Proof.Machine

/-- The search finds the first even exponent whose domain holds n samples: every smaller even one holds fewer. -/
theorem throwExp_first {n : Nat} (h : n ≤ 2 ^ 48) :
    ∃ i < 24, throwExp n = 2 * i + 2 ∧ n ≤ 2 ^ (2 * i + 2) ∧ ∀ j < i, 2 ^ (2 * j + 2) < n := by
  have hsome : ((List.range 24).find? (fun i => n ≤ 2 ^ (2 * i + 2))).isSome :=
    List.find?_isSome.2 ⟨23, by simp, by simpa using h⟩
  obtain ⟨i, hi⟩ := Option.isSome_iff_exists.1 hsome
  obtain ⟨hcover, hlt, hfirst⟩ := List.find?_range_eq_some.1 hi
  refine ⟨i, List.mem_range.1 hlt, ?_, by simpa using hcover, fun j hj => by simpa using hfirst j hj⟩
  simp [throwExp, List.find?_map, hi]

/-- Settles O52: an even number below the first one that the search accepts has a domain too small for n. -/
theorem throwDomainIsTheSmallestEvenPower : Obligations.ThrowDomainIsTheSmallestEvenPower := by
  intro n _ hn
  obtain ⟨i, hi, hexp, hcover, hfirst⟩ := throwExp_first (n := n) (by omega)
  rw [hexp]
  refine ⟨by omega, by omega, hcover, fun k heven htwo hk => ?_, by omega, by omega⟩
  obtain ⟨j, rfl⟩ : ∃ j, k = 2 * j + 2 := ⟨k / 2 - 1, by omega⟩
  have hij : ¬ j < i := fun hlt => absurd (hfirst j hlt) (by omega)
  omega

end Sys2Proof.Machine
end

section
/-!
PROOFS. Tiles and work items (R90 to R105, R150), the Dice units (R68, R69) and the sample fetch (R72): each command under
its conditions takes the branch that its rule names.
-/
namespace Sys2Proof.Machine

/-! ## Work items and the load split (R92, R103 to R105) -/

theorem workItemDispatch_completes {ctx : Fin 64} {tile : Fin 96} {slot : Fin 64} {w : WorkItem} {s u : State}
    (hsafe : s.safe = false) (hu : u = s.queueArrived ctx) (hseat : u.seatedTo ctx tile = true)
    (hready : u.tileState tile = tsREADY) (hslot : (u.openSlots tile).contains slot.val = true)
    (hwithheld : u.flt.withheld.contains tile.val = false) (hruns : u.quarterRuns (quarterOf tile) = true)
    (hcredit : u.hasCredit (quarterOf tile) false 2 = true) (hnext : u.nextItem tile = some w) (hown : u.splits w = false) :
    Runs (.workItemDispatch ctx tile slot) s (((u.unqueue w).putItem tile slot w).cross (quarterOf tile) false 2) := by
  subst hu
  refine runs_act (execWorkItemDispatch.eq_def ..) hsafe ?_
  simp only [hseat, hready, hslot, hwithheld, hruns, hcredit, beq_self_eq_true, Bool.not_false, Bool.and_self, ↓reduceIte,
    hnext, hown, Bool.false_eq_true]

theorem splitResult_completes {ctx : Fin 64} {item h at_ : Nat} {w : WorkItem} {out : Bytes} {s u : State}
    (hsafe : s.safe = false) (hsent : (s.splitRec ctx).sent.find? (fun e => e.1.id == item) = some (w, at_))
    (halloc : s.allocBytes ctx out.length agHOST = .ok (h, u)) (verdict : Bool) :
    Runs (.splitResult ctx item true out verdict) s (((u.writeHandle h 0 out).setSplit ctx { s.splitRec ctx with
      sent := (s.splitRec ctx).sent.filter (fun e => e.1.id != item) }).splitReturned {
        item := w, tile := 96, outHandle := h, outLen := out.length, verdict := if verdict then 1 else 0, at_ := at_ }) :=
  runs_act (execSplitResult.eq_def ..) hsafe (by simp [hsent, halloc])

/-- An item whose time at the load split has run out comes back to the front of the queue, for this device to work. -/
theorem splitTimeout_completes {ctx : Fin 64} {item at_ : Nat} {w : WorkItem} {r : RunRec} {s u : State}
    (hsafe : s.safe = false) (hsent : (s.splitRec ctx).sent.find? (fun e => e.1.id == item) = some (w, at_))
    (hrun : s.runOf ctx = some r) (hdue : at_ + r.cfg.splitTimeout ≤ s.dtime)
    (hu : u = s.setSplit ctx { s.splitRec ctx with
      sent := (s.splitRec ctx).sent.filter (fun e => e.1.id != item) }) :
    Runs (.splitTimeout ctx item) s
      { u with work := { u.work with queued := { w with noSplit := true } :: u.work.queued } } := by
  have hctx : (s.ctxData ctx).run = some r := hrun
  subst hu
  refine runs_act (execSplitTimeout.eq_def ..) hsafe ?_
  simp only [hsent, hctx]
  rw [if_neg (by omega)]

/-! ## Tile states (R90, R99, R150) -/

section
variable {tile : Fin 96} {s : State} (hsafe : s.safe = false)
include hsafe

theorem tileImageLoad_completes {i : Nat} (hst : s.tileState tile = tsSEATED)
    (htarget : s.targetImage (s.tileCtx tile) = some i) :
    Runs (.tileImageLoad tile) s
      ((s.mapTile tile (fun r => { r with bars := [], vcache := [], nextImage := some i })).setTileState tile tsLOADING) :=
  runs_act (execTileImageLoad.eq_def ..) hsafe (by simp [hst, htarget])

theorem tileLoadComplete_completes {n : Nat} {i : ImageRec} (hst : s.tileState tile = tsLOADING)
    (hnext : (s.tile tile).nextImage = some n) (himage : s.imageRec n = some i) :
    Runs (.tileLoadComplete tile) s
      ((((s.loadImage tile n i).setTileState tile tsREADY).flag (fTILE_STATE_IMAGE tile)).joinBars
        ((s.loadImage tile n i).tileCtx tile) tile) :=
  runs_act (execTileLoadComplete.eq_def ..) hsafe (by simp [hst, hnext, himage])

theorem tileDrainStart_completes {i : Nat} (hst : s.tileState tile = tsREADY) (hchange : s.changeTo tile = some i) :
    Runs (.tileDrainStart tile) s
      ((s.mapTile tile (fun r => { r with nextImage := some i, drainAt := s.dtime, drainFor := .image })).setTileState tile
        tsDRAINING) :=
  runs_act (execTileDrainStart.eq_def ..) hsafe (by simp [hst, hchange])

theorem tileDrainComplete_completes (hst : s.tileState tile = tsDRAINING) (hidle : (s.tile tile).items = []) :
    Runs (.tileDrainComplete tile) s (s.endDrain tile) :=
  runs_act (execTileDrainComplete.eq_def ..) hsafe (by simp [hst, hidle])

theorem tileDrainTimeout_completes (hst : s.tileState tile = tsDRAINING) (hdue : (s.tile tile).drainAt + 1000000 ≤ s.dtime) :
    Runs (.tileDrainTimeout tile) s (s.endDrain tile) :=
  runs_act (execTileDrainTimeout.eq_def ..) hsafe (by simp [hst, hdue])

/-- R100: the scrubbed tile stays seated after a context reset, and is unseated otherwise. -/
theorem tileScrubComplete_completes {u : State} (hst : s.tileState tile = tsSCRUB)
    (hu : u = (s.setTile tile { TileRec.off with duty := (s.tile tile).duty }).unflag (fTILE_STATE_IMAGE tile)) :
    Runs (.tileScrubComplete tile) s
      (if (s.tile tile).drainFor = .reset then u.setTileState tile tsSEATED
       else ((u.setTileState tile tsUNSEATED).unflag (fTILE_STATE_SEATED tile)).setFld (fTILE_STATE_CONTEXT tile) 0) :=
  runs_act (execTileScrubComplete.eq_def ..) hsafe (by simp [hst, hu])

theorem tileUncorrectedError_completes (hpresent : s.tilePresent tile = true) (unit : Fin 256) :
    Runs (.tileUncorrectedError tile unit) s
      (((s.tileFault tile stTILE_UNCORRECTED).flag (fTILE_FAULT_UNCORRECTED tile)).fenceTile tile stTILE_UNCORRECTED unit) :=
  runs_act (execTileUncorrectedError.eq_def ..) hsafe (by simp [hpresent])

end

/-! ## Fences and lost vocabulary banks (R90, R100, R150) -/

theorem State.fenceReq_present {s : State} {tile : Nat} (hpresent : s.tilePresent tile = true)
    (hreq : s.fld (fTILE_CTRL_FENCE_REQ tile) ≠ 1) :
    s.fenceReq tile
      = ((s.flag (fTILE_CTRL_FENCE_REQ tile)).tileFault tile stTILE_FENCE_REQUESTED).fenceTile tile stTILE_FENCE_REQUESTED
        0xFF := by
  simp [State.fenceReq, hpresent, hreq]

/-- A write of a unit's control register by PF0 that reaches it, out of recovery, completes with its own effect. -/
theorem runs_ctrlWrite {c : Instr} {s t : State} {body : State → State}
    (he : exec c s = act s (fun s =>
      if (0 : Fin 64) ≠ 0 ∨ !s.reaches ((0 : Fin 64) : Nat) ∨ s.mod.recovery then s else body s))
    (hsafe : s.safe = false) (hr : s.reaches 0 = true) (hrec : s.mod.recovery = false) (ht : body s = t) : Runs c s t :=
  runs_act he hsafe (by simpa [hr, hrec] using ht)

theorem vocabBankHbmError_ready {slot : Fin 8} {bank : Fin 2} {s : State} (hsafe : s.safe = false)
    (hbank : s.fld (fBankState slot bank) = vbREADY) (hbm : Fin 8) (channel : Fin 65536) :
    Runs (.vocabBankHbmError slot bank hbm channel) s (s.loseBank slot bank hbm channel) := by
  refine runs_act (execVocabBankHbmError.eq_def ..) hsafe ?_
  simp only [hbank]
  rfl

/-! ## The Dice units (R68, R69) -/

/-- What a unit's evaluation of its first job leaves: the index where the network's value is below COUNT, and the job for
the next round of cycle-walking where it is not (R67). -/
theorem diceEvaluation_completes {unit : Fin 4} {j : DiceJob} {y : Nat} {s : State} (hsafe : s.safe = false)
    (hfenced : s.diceFenced unit = false) (hjob : s.dice.find? (fun j => j.unit == unit.val) = some j)
    (hy : s.diceResult j = some y) :
    Runs (.diceEvaluation unit false) s
      (if y < j.count then State.indexKnown { s with dice := s.dice.erase j } j.ctx j.step j.place y
       else { s with dice := s.dice.erase j ++ [{ j with x := y }] }) :=
  runs_act (execDiceEvaluation.eq_def ..) hsafe (by simp [hfenced, hjob, hy])

theorem diceFenceComplete_completes {unit : Fin 4} {s : State} (hsafe : s.safe = false)
    (hreq : bitOf (s.fld fDICE_CTRL_FENCE_REQ) unit = true) (hidle : s.dice.any (fun j => j.unit == unit.val) = false) :
    Runs (.diceFenceComplete unit) s (s.fenceDice unit) := by
  refine runs_act (execDiceFenceComplete.eq_def ..) hsafe ?_
  simp only [hreq, hidle]
  rfl

/-! ## The sample fetch (R72) -/

/-- A sample read clean becomes a work item with its record as input, and the fetch ends. -/
theorem sampleFetchComplete_clean {ctx : Fin 64} {step place h : Nat} {r : RunRec} {m : ManifestRec} {f : Fetch}
    {ds : DatasetEnt} {d1 d2 x : Bytes} {w : WorkItem} {s u : State} (hsafe : s.safe = false) (hrun : s.runOf ctx = some r)
    (hmanifest : (s.ctxData ctx).manifestAt step = some m)
    (hfetch : r.fetches.find? (fun f => f.step == step && f.place == place) = some f) (hserves : s.mediaServes = true)
    (hds : m.datasetOf f.index = some ds) (hread : s.fetchSample ctx ds f.index d1 d2 none = .clean x)
    (halloc : s.allocBytes ctx (x.drop 32).length agFETCH = .ok (h, u))
    (hitem : u.itemFor ctx step place f.index h (x.take 32) false (u.ownerSite ctx step) = some w) :
    Runs (.sampleFetchComplete ctx step place d1 d2 none) s
      ((State.mapRun ((u.writeHandle h 0 (x.drop 32)).giveTo h agDISPATCH) ctx (fun r => { r with
        fetches := r.fetches.filter (fun y => y != f) })).queueItem w) := by
  have hctx : (s.ctxData ctx).run = some r := hrun
  refine runs_act (execSampleFetchComplete.eq_def ..) hsafe ?_
  simp only [hctx, hmanifest, hfetch, hserves, hds, hread, halloc, hitem]

/-- Settles O17: each command runs its effect, which the lemmas above give case by case. -/
theorem tilesAndWorkComplete : Obligations.TilesAndWorkComplete := by
  refine ⟨?_, ?_, ?_, ?_, ?_, ?_, ?_, ?_, ?_, ?_, ?_, ?_, ?_, ?_, ?_, ?_, ?_, ?_⟩
  · intro ctx tile slot w s u hsafe hu hseat hready hslot hwithheld hruns hcredit hnext hown
    exact workItemDispatch_completes hsafe hu hseat hready hslot hwithheld hruns hcredit hnext hown
  · intro ctx item h at_ w out verdict sp s u hsafe hsp hsent halloc
    subst hsp
    exact splitResult_completes hsafe hsent halloc verdict
  · intro ctx item at_ w r s hsafe hsent hrun hdue
    exact ⟨_, splitTimeout_completes hsafe hsent hrun hdue rfl, rfl, rfl⟩
  · intro tile i s hsafe hst htarget
    exact tileImageLoad_completes hsafe hst htarget
  · intro tile n i s hsafe hst hnext himage
    exact tileLoadComplete_completes hsafe hst hnext himage
  · intro tile i s hsafe hst hchange
    exact tileDrainStart_completes hsafe hst hchange
  · intro tile s hsafe hst hidle
    exact tileDrainComplete_completes hsafe hst hidle
  · intro tile s hsafe hst hdue
    exact tileDrainTimeout_completes hsafe hst hdue
  · intro tile s u hsafe hst hreset hu
    simpa [hreset] using tileScrubComplete_completes hsafe hst hu
  · intro tile s u hsafe hst hreset hu
    simpa [hreset] using tileScrubComplete_completes hsafe hst hu
  · intro tile unit s hsafe hpresent
    exact tileUncorrectedError_completes hsafe hpresent unit
  · intro tile s hsafe hr hrec hpresent hreq
    exact runs_ctrlWrite (body := fun s => s.fenceReq tile) rfl hsafe hr hrec (State.fenceReq_present hpresent hreq)
  · intro slot bank hbm channel s hsafe hbank
    exact vocabBankHbmError_ready hsafe hbank hbm channel
  · intro unit j y s hsafe hfenced hjob hy hcount
    have hruns := diceEvaluation_completes hsafe hfenced hjob hy
    rw [if_neg (by omega)] at hruns
    exact ⟨_, hruns, rfl, rfl⟩
  · intro unit j y s hsafe hfenced hjob hy hcount
    simpa [hcount] using diceEvaluation_completes hsafe hfenced hjob hy
  · intro mask s hsafe hr hrec
    exact runs_ctrlWrite (body := fun s => s.setFld fDICE_CTRL_FENCE_REQ (s.fld fDICE_CTRL_FENCE_REQ ||| mask.val))
      rfl hsafe hr hrec rfl
  · intro unit s hsafe hreq hidle
    exact diceFenceComplete_completes hsafe hreq hidle
  · intro ctx step place r m f ds d1 d2 h x w s u hsafe hrun hmanifest hfetch hserves hds hread halloc hitem
    exact sampleFetchComplete_clean hsafe hrun hmanifest hfetch hserves hds hread halloc hitem

end Sys2Proof.Machine
end

section
/-!
PROOFS. Runs, Logbooks and ingest (R344): LOG_DELETE also drops the run's Logbook region from the media, which
the statement about it leaves in place.
-/
namespace Sys2Proof.Machine

/-! ## Dropping streams from the media -/

/-- Of every superblock the units of other streams stay. -/
theorem State.dropStreams_blocks (s : State) (p : Stream → Bool) :
    (s.dropStreams p).media.blocks
      = s.media.blocks.map (fun b => { b with units := b.units.filter (fun u => !p u.1) }) := rfl

/-! ## What LOG_DELETE leaves (R344) -/

/-- The copies of one run's Logbook on the media. -/
def Stream.isLogOf (ctx run : Nat) : Stream → Bool
  | .log c n _ => c == ctx && n == run
  | _ => false

/-- LOG_DELETE of a run that is not seated: its Logbook region leaves the media, and the Logbook the context's content. -/
theorem logDelete_completes {ctx : Fin 64} {sq : Fin 256} {r : HostReq} {runId : Nat} {s : State}
    (h : Asked s ctx sq 0x13 r) (hlog : Map.has (s.ctxData ctx).logs runId = true)
    (hunseated : s.runWithId ctx runId = none) :
    Runs (.logDelete ctx sq runId) s
      ((((s.taken r).dropStreams (Stream.isLogOf ctx runId)).setData ctx
        { s.ctxData ctx with logs := Map.del (s.ctxData ctx).logs runId }).answer r stOK) := by
  refine runs_asked rfl h ?_
  have htaken : (s.taken r).ctxData ctx = s.ctxData ctx := rfl
  have hrun : (s.taken r).runWithId ctx runId = none := hunseated
  simp only [htaken, hlog, hrun]
  rfl

/-! ## A Logbook with its region on the media -/

/-- Context 1 asks to delete the Logbook of run 9. -/
def logDeleteRequest : HostReq :=
  { ctx := 1, sq := 0, opcode := 0x13, staged := false, tag := 7, addr := 0, len := 0, effStep := 0, args := [], sqHead := 1 }

/-- A superblock with one copy of the Logbook region of run 9. -/
def logBlock : Superblock :=
  { num := 0, group := 0, cls := .metadata, slc := false, units := [(.log 1 9 0, 64 * 2 ^ 20)], reads := 0, scanned := 0 }

/-- Run 9 of context 1 has ended, and its Logbook is still kept. -/
def loggedState : State :=
  { State.reset with
    host := { HostState.off with started := [logDeleteRequest] }
    data := [(1, { CtxData.off with logs := [(9, Logbook.new 9)] })]
    media := { MediaState.off with blocks := [logBlock], nextBlock := 1, qlcValid := 64 * 2 ^ 20 } }

theorem loggedState_asked : Asked loggedState 1 0 0x13 logDeleteRequest := by
  unfold Asked
  decide

/-- Refutes O9: in the clause of LOG_DELETE the superblocks keep the units of the deleted Logbook, which the command
drops. -/
theorem not_runsAndLogsComplete : ¬ Obligations.RunsAndLogsComplete := by
  unfold Obligations.RunsAndLogsComplete
  intro h
  obtain ⟨-, -, -, -, hdelete, -, -, -⟩ := h
  have hstated := hdelete 1 0 logDeleteRequest 9 loggedState loggedState_asked (by decide) (by decide)
  have hruns := logDelete_completes (ctx := 1) (sq := 0) loggedState_asked (runId := 9) (by decide) (by decide)
  have hsame := Host.Outcome.next.inj (hruns.symm.trans hstated)
  have hblocks : [{ logBlock with units := [] }] = [logBlock] := congrArg (·.media.blocks) hsame
  exact absurd hblocks (by decide)

end Sys2Proof.Machine
end

section
/-!
PROOFS. What a lane instruction leaves alone (R74, R75, R79, R89): a frame that composes, one lemma for each update of the
state that an instruction is made of, and how an instruction ends.
-/
namespace Sys2Proof.Machine

/-! ## Registers of one lane -/

/-- Lane y has the registers of lane x, but general register g and vector register v, and its tickets. -/
def Lane.SameBut (g v : Option Nat) (x y : Lane) : Prop :=
  (∀ r, some r ≠ g → y.getG r = x.getG r) ∧ (∀ r, some r ≠ v → y.getV r = x.getV r) ∧ y.tickets = x.tickets

section
variable {g v : Option Nat} {x y z : Lane}

theorem Lane.sameBut_of_eq (hg : y.g = x.g) (hv : y.v = x.v) (ht : y.tickets = x.tickets) : x.SameBut g v y :=
  ⟨fun r _ => Lane.getG_congr hg r, fun r _ => by rw [Lane.getV, Lane.getV, hv], ht⟩

theorem Lane.sameBut_refl (x : Lane) : x.SameBut g v x := Lane.sameBut_of_eq rfl rfl rfl

theorem Lane.SameBut.trans (hxy : x.SameBut g v y) (hyz : y.SameBut g v z) : x.SameBut g v z := by
  obtain ⟨hg, hv, ht⟩ := hxy
  obtain ⟨hg', hv', ht'⟩ := hyz
  exact ⟨fun r hr => (hg' r hr).trans (hg r hr), fun r hr => (hv' r hr).trans (hv r hr), ht'.trans ht⟩

theorem Lane.getG_setG_other (x : Lane) {r q : Nat} (w : BitVec 64) (h : q ≠ r) : (x.setG r w).getG q = x.getG q := by
  have hread := Map.getD_setD (fun _ => 0#64) x.g r q w
  rw [if_neg h.symm] at hread
  unfold Lane.setG
  split
  · rfl
  · simp only [Lane.getG, hread]

theorem Lane.sameBut_setG (x : Lane) (r : Nat) (w : BitVec 64) : x.SameBut (some r) v (x.setG r w) := by
  refine ⟨fun q hq => x.getG_setG_other w (fun h => hq (congrArg some h)), fun q _ => ?_, ?_⟩
  all_goals
    unfold Lane.setG
    split <;> rfl

theorem Lane.sameBut_setV (x : Lane) (r : Nat) (w : BitVec 128) : x.SameBut g (some r) (x.setV r w) := by
  refine ⟨fun _ _ => rfl, fun q hq => ?_, rfl⟩
  exact (Map.getD_setD (fun _ => 0#128) x.v r q w).trans (if_neg fun h => hq (congrArg some h.symm))

/-- Going on to the next instruction touches no register. -/
theorem Lane.SameBut.next (h : x.SameBut g v y) : x.SameBut g v y.next := h.trans (Lane.sameBut_of_eq rfl rfl rfl)

theorem Lane.SameBut.setPc (h : x.SameBut g v y) (pc : Nat) : x.SameBut g v { y with pc := pc } :=
  h.trans (Lane.sameBut_of_eq rfl rfl rfl)

theorem Lane.sameBut_counted (x : Lane) : x.SameBut g v x.counted := by
  unfold Lane.counted
  split
  · exact Lane.sameBut_of_eq rfl rfl rfl
  · exact Lane.sameBut_of_eq rfl rfl rfl

end

/-! ## The frame of a lane instruction -/

/-- What both `WritesOnly` and `StoresOnly` say, with p the bytes of the tile store that may change. -/
structure LaneFrame (tile lane : Nat) (g v : Option Nat) (p : Nat → Prop) (s t : State) : Prop where
  blocks : SameBlocks s t
  regs : SameRegs tile s t
  tiles : SameTiles tile s t
  bars : (t.tile tile).bars = (s.tile tile).bars
  lanes : SameLanes tile lane g v s t
  store : SameStore tile p s t

/-- The state with everything cleared that a lane instruction may touch. -/
def State.otherBlocks (s : State) : State :=
  { s with freeCtr := 0, pending := [], regs := [], flt := FaultState.off, tiles := [] }

theorem sameBlocks_iff {s t : State} : SameBlocks s t ↔ t.otherBlocks = s.otherBlocks := by
  simp only [SameBlocks, State.otherBlocks, State.mk.injEq, true_and]

section
variable {tile lane : Nat} {g v : Option Nat} {p : Nat → Prop} {s t u : State}

theorem LaneFrame.writesOnly (h : LaneFrame tile lane g v (fun _ => False) s t) : WritesOnly tile lane g v s t :=
  ⟨h.blocks, h.regs, h.tiles, h.bars, h.lanes, h.store⟩

theorem LaneFrame.storesOnly {a n : Nat} (h : LaneFrame tile lane none none (fun b => a ≤ b ∧ b < a + n) s t) :
    StoresOnly tile lane a n s t :=
  ⟨h.blocks, h.regs, h.tiles, h.bars, h.lanes, h.store⟩

theorem SameTiles.trans (h : SameTiles tile s t) (h' : SameTiles tile t u) : SameTiles tile s u := by
  obtain ⟨hother, himage, hslots, hcalls, hheld, hslice, hduty⟩ := h
  obtain ⟨hother', himage', hslots', hcalls', hheld', hslice', hduty'⟩ := h'
  exact ⟨fun n hn => (hother' n hn).trans (hother n hn), himage'.trans himage, hslots'.trans hslots,
    hcalls'.trans hcalls, hheld'.trans hheld, hslice'.trans hslice, hduty'.trans hduty⟩

theorem SameLanes.trans (h : SameLanes tile lane g v s t) (h' : SameLanes tile lane g v t u) :
    SameLanes tile lane g v s u := by
  obtain ⟨hother, hlane⟩ := h
  obtain ⟨hother', hlane'⟩ := h'
  exact ⟨fun l hl => (hother' l hl).trans (hother l hl), Lane.SameBut.trans hlane hlane'⟩

theorem LaneFrame.trans (h : LaneFrame tile lane g v p s t) (h' : LaneFrame tile lane g v p t u) :
    LaneFrame tile lane g v p s u where
  blocks := sameBlocks_iff.2 ((sameBlocks_iff.1 h'.blocks).trans (sameBlocks_iff.1 h.blocks))
  regs a ha := (h'.regs a ha).trans (h.regs a ha)
  tiles := h.tiles.trans h'.tiles
  bars := h'.bars.trans h.bars
  lanes := h.lanes.trans h'.lanes
  store a ha := (h'.store a ha).trans (h.store a ha)

/-- An update that leaves the tiles and all registers but TILE_FAULT alone. -/
theorem laneFrame_of_tiles (hblocks : t.otherBlocks = s.otherBlocks) (hregs : SameRegs tile s t)
    (htiles : t.tiles = s.tiles) : LaneFrame tile lane g v p s t := by
  have htile : ∀ n, t.tile n = s.tile n := fun n => by rw [State.tile, State.tile, htiles]
  exact {
    blocks := sameBlocks_iff.2 hblocks
    regs := hregs
    tiles := ⟨fun n _ => htile n, by simp [htile]⟩
    bars := by rw [htile]
    lanes := ⟨fun l _ => by rw [htile], by simp [htile]⟩
    store := fun a _ => by rw [htile] }

theorem laneFrame_refl (s : State) : LaneFrame tile lane g v p s s := laneFrame_of_tiles rfl (fun _ _ => rfl) rfl

/-! ## The updates that lane instructions are made of -/

theorem State.tile_mapTile_other (s : State) {n m : Nat} (f : TileRec → TileRec) (h : m ≠ n) :
    (s.mapTile n f).tile m = s.tile m := Map.getD_put_other _ _ _ h

theorem TileRec.lane_setLane_other (r : TileRec) {l m : Nat} (x : Lane) (h : m ≠ l) : (r.setLane l x).lane m = r.lane m :=
  Map.getD_put_other _ _ _ h

/-- The lane is written with another one that has its registers. -/
theorem laneFrame_setLane {x : Lane} (h : ((s.tile tile).lane lane).SameBut g v x) :
    LaneFrame tile lane g v p s (s.setLane tile lane x) where
  blocks := sameBlocks_iff.2 rfl
  regs _ _ := rfl
  tiles := ⟨fun n hn => s.tile_mapTile_other _ hn, by simp [State.setLane, TileRec.setLane]⟩
  bars := by simp [State.setLane, TileRec.setLane]
  lanes := ⟨fun l hl => by simp [State.setLane, TileRec.lane_setLane_other _ _ hl], by simpa [Lane.SameBut] using h⟩
  store _ _ := by simp

/-- Bytes are written to the tile store. -/
theorem laneFrame_storeTile (s : State) (a : Nat) (d : Bytes) (hd : ∀ b, a ≤ b → b < a + d.length → p b) :
    LaneFrame tile lane g v p s (s.storeTile tile a d) where
  blocks := sameBlocks_iff.2 rfl
  regs _ _ := rfl
  tiles := ⟨fun n hn => s.tile_mapTile_other _ hn, by simp [State.storeTile]⟩
  bars := by simp [State.storeTile]
  lanes := ⟨fun l _ => by simp [State.storeTile, TileRec.lane], by simp [State.storeTile, TileRec.lane]⟩
  store b hb := by
    have hout : b < a ∨ a + d.length ≤ b := by
      by_contra hin
      exact hb (hd b (by omega) (by omega))
    simpa [State.storeTile] using Mem.get_write_outside _ _ _ _ hout

theorem State.with_regs_otherBlocks (s : State) (x : Map (BitVec 64)) :
    State.otherBlocks { s with regs := x } = s.otherBlocks := rfl

theorem State.setFld_otherBlocks (s : State) (f : Fld) (v : Nat) : (s.setFld f v).otherBlocks = s.otherBlocks :=
  s.with_regs_otherBlocks _

theorem State.tileFault_otherBlocks (s : State) (n : Nat) (st : Status) :
    (s.tileFault n st).otherBlocks = s.otherBlocks := by
  unfold State.tileFault
  split
  · rfl
  · rw [State.flag, State.setFld_otherBlocks, State.setFld_otherBlocks]

theorem State.tileFault_regs (s : State) (n : Nat) (st : Status) : SameRegs n s (s.tileFault n st) := by
  intro a ha
  unfold State.tileFault
  split
  · rfl
  · rw [State.flag, State.reg_setFld_other _ _ _ ha, State.reg_setFld_other _ _ _ ha]

theorem laneFrame_tileFault (s : State) (st : Status) : LaneFrame tile lane g v p s (s.tileFault tile st) :=
  laneFrame_of_tiles (s.tileFault_otherBlocks tile st) (s.tileFault_regs tile st) (s.tileFault_tiles tile st)

theorem laneFrame_raise (s : State) (src : Nat) (st : Status) (unit ctx : Nat) (cls : FClass) :
    LaneFrame tile lane g v p s (s.raise src st unit ctx cls) :=
  laneFrame_of_tiles rfl (fun _ _ => by simp) (by simp)

theorem LaneFrame.used (h : LaneFrame tile lane g v p s t) : LaneFrame tile lane g v p s t.used :=
  h.trans (laneFrame_of_tiles rfl (fun _ _ => rfl) rfl)

theorem LaneFrame.commit (h : LaneFrame tile lane g v p s t) : LaneFrame tile lane g v p s (s.commit t) := by
  have hhw : t.hw = s.hw := h.blocks.1
  have hblocks : (s.commit t).otherBlocks = t.otherBlocks := by simp [State.otherBlocks, State.commit, hhw]
  exact h.trans (laneFrame_of_tiles hblocks (fun a _ => State.reg_commit hhw a) rfl)

/-- A command whose effect keeps the frame keeps it, in the safe state as well. -/
theorem LaneFrame.of_act {f : State → State} (ht : act s f = .next t) (h : LaneFrame tile lane g v p s (f s)) :
    LaneFrame tile lane g v p s t := by
  rcases act_next s f with ⟨hact, -⟩ | ⟨hact, -⟩
  · obtain rfl := Host.Outcome.next.inj (hact.symm.trans ht)
    exact laneFrame_refl s
  · obtain rfl := Host.Outcome.next.inj (hact.symm.trans ht)
    exact h.commit

/-! ## How an instruction ends (R75, R94, R95) -/

/-- However the instruction ends, the lane has the registers of x but g and v, and its tickets. -/
def LaneEnd.SameBut (g v : Option Nat) (x : Lane) : LaneEnd → Prop
  | .go y | .fault y _ => x.SameBut g v y
  | .stall _ => True

theorem LaneEnd.sameBut_fault (x : Lane) (st : Status) : (LaneEnd.fault x st).SameBut g v x := x.sameBut_refl

theorem LaneEnd.sameBut_ite {x : Lane} {c : Prop} [Decidable c] {a b : LaneEnd} (ha : a.SameBut g v x)
    (hb : b.SameBut g v x) : (if c then a else b).SameBut g v x := by
  split
  · exact ha
  · exact hb

theorem laneFrame_laneFault (s : State) (st : Status) : LaneFrame tile lane g v p s (s.laneFault tile lane st) :=
  have hstop : LaneFrame tile lane g v p s (s.setLane tile lane { (s.tile tile).lane lane with run := .faulted }) :=
    laneFrame_setLane (Lane.sameBut_of_eq rfl rfl rfl)
  (hstop.trans (laneFrame_tileFault _ st)).trans (laneFrame_raise ..)

theorem laneFrame_endLane {e : LaneEnd} (h : e.SameBut g v ((s.tile tile).lane lane)) :
    LaneFrame tile lane g v p s (s.endLane tile lane e) := by
  cases e with
  | go y =>
    have hlane : LaneFrame tile lane g v p s (s.setLane tile lane y.counted) :=
      laneFrame_setLane (Lane.SameBut.trans h y.sameBut_counted)
    rw [State.endLane]
    obtain hend | ⟨st, hend⟩ := s.retire_cases tile lane y
    · rw [hend]
      exact hlane
    · rw [hend]
      exact hlane.trans (laneFrame_laneFault _ st)
  | fault y st => exact (laneFrame_setLane h).trans (laneFrame_laneFault _ st)
  | stall why => exact laneFrame_setLane (Lane.sameBut_of_eq rfl rfl rfl)

theorem laneFrame_lane1 {body : Lane → LaneEnd}
    (h : (body ((s.tile tile).lane lane)).SameBut g v ((s.tile tile).lane lane)) :
    LaneFrame tile lane g v p s (s.lane1 tile lane body) := by
  unfold State.lane1
  split
  · exact laneFrame_endLane h
  · exact laneFrame_refl s

/-- An instruction of one lane, which ends as its body says, writes g and v at most. -/
theorem writesOnly_lane1 {i : Instr} {body : State → Lane → LaneEnd}
    (ht : exec i s = .next t) (he : exec i s = act s (fun s => s.lane1 tile lane (body s)))
    (h : (body s ((s.tile tile).lane lane)).SameBut g v ((s.tile tile).lane lane)) : WritesOnly tile lane g v s t :=
  (LaneFrame.of_act (he.symm.trans ht) (laneFrame_lane1 h)).writesOnly

/-- The same where the instruction may take a free value. -/
theorem writesOnly_lane1_used {i : Instr} {body : State → Lane → LaneEnd}
    (ht : exec i s = .next t) (he : exec i s = act s (fun s => (s.lane1 tile lane (body s)).used))
    (h : (body s ((s.tile tile).lane lane)).SameBut g v ((s.tile tile).lane lane)) : WritesOnly tile lane g v s t :=
  (LaneFrame.of_act (he.symm.trans ht) (laneFrame_lane1 h).used).writesOnly

end

/-! ## The register instructions -/

theorem integerOp_writesOnly {tile : Fin 96} {lane : Fin 288} {op : IntOp} {rd rs1 rs2 : Fin 32} {s t : State}
    (h : exec (.integerOp tile lane op rd rs1 rs2) s = .next t) : WritesOnly tile lane (some rd.val) none s t :=
  writesOnly_lane1_used h (execIntegerOp.eq_def ..)
    (LaneEnd.sameBut_ite (LaneEnd.sameBut_fault ..) (Lane.sameBut_setG ..).next)

/-- A permute writes the general register of its move to g, and vd otherwise. -/
theorem sameBut_permLane (fr : BitVec 128) (op : PermOp) (w vd vs1 vs2 : Nat) (x : Lane) :
    x.SameBut (match op with | .toG g _ => some g.val | _ => none) (match op with | .toG _ _ => none | _ => some vd)
      (permLane fr op w vd vs1 vs2 x) := by
  cases op with
  | shuffle => exact x.sameBut_setV ..
  | broadcast g => exact x.sameBut_setV ..
  | toV g e => exact x.sameBut_setV ..
  | toG g e => exact x.sameBut_setG ..
  | illegal => exact x.sameBut_refl

theorem rank_writesOnly {tile : Fin 96} {lane : Fin 288} {rd query : Fin 32} {slot : Fin 8} {s t : State}
    (h : exec (.rank tile lane rd query slot) s = .next t) : WritesOnly tile lane (some rd.val) none s t :=
  writesOnly_lane1 h (execRank.eq_def ..)
    (LaneEnd.sameBut_ite (Lane.sameBut_setG ..).next
      (LaneEnd.sameBut_ite (LaneEnd.sameBut_fault ..)
        (LaneEnd.sameBut_ite (LaneEnd.sameBut_fault ..) (Lane.sameBut_setG ..).next)))

theorem floatingPointOp_writesOnly {tile : Fin 96} {lane : Fin 288} {op : FpOp} {w : FpWidth} {rd rs1 rs2 : Fin 32}
    {s t : State} (h : exec (.floatingPointOp tile lane op w rd rs1 rs2) s = .next t) :
    WritesOnly tile lane (some rd.val) none s t := by
  refine writesOnly_lane1_used h (execFloatingPointOp.eq_def ..) (LaneEnd.sameBut_ite (LaneEnd.sameBut_fault ..) ?_)
  split
  · exact (Lane.sameBut_setG ..).next
  · exact (Lane.sameBut_setG ..).next

/-- Settles O42: each instruction ends with a lane that has the registers of the lane before it, but the one it names. -/
theorem laneComputeWritesOnlyItsDestination : Obligations.LaneComputeWritesOnlyItsDestination := by
  intro tile lane s t
  refine ⟨?_, ?_, ?_, ?_, ?_, ?_, ?_, ?_, ?_, ?_, ?_⟩
  · intro op rd rs1 rs2 h
    exact integerOp_writesOnly h
  · intro op rd rs1 imm h
    exact writesOnly_lane1_used h (execIntegerImmediateOp.eq_def ..)
      (LaneEnd.sameBut_ite (LaneEnd.sameBut_fault ..) (Lane.sameBut_setG ..).next)
  · intro size signed rd rs1 imm h
    exact writesOnly_lane1 h (execLoad.eq_def ..)
      (LaneEnd.sameBut_ite (LaneEnd.sameBut_fault ..) (Lane.sameBut_setG ..).next)
  · intro vd rs1 imm h
    exact writesOnly_lane1 h (execVectorLoad.eq_def ..)
      (LaneEnd.sameBut_ite (LaneEnd.sameBut_fault ..) (Lane.sameBut_setV ..).next)
  · intro op rs1 rs2 off h
    exact writesOnly_lane1 h (execBranch.eq_def ..) (LaneEnd.sameBut_ite (LaneEnd.sameBut_fault ..)
      (LaneEnd.sameBut_ite ((Lane.sameBut_refl _).setPc _) (Lane.sameBut_refl _).next))
  · intro rd off h
    exact writesOnly_lane1 h (execJumpAndLink.eq_def ..) ((Lane.sameBut_setG ..).setPc _)
  · intro rd rs1 imm h
    exact writesOnly_lane1 h (execJumpRegister.eq_def ..) ((Lane.sameBut_setG ..).setPc _)
  · intro op w vd vs1 vs2 h
    exact writesOnly_lane1_used h (execVectorIntegerOp.eq_def ..)
      (LaneEnd.sameBut_ite (LaneEnd.sameBut_fault ..) (Lane.sameBut_setV ..).next)
  · intro op w vd vs1 vs2 h
    exact writesOnly_lane1_used h (execVectorPermute.eq_def ..)
      (LaneEnd.sameBut_ite (LaneEnd.sameBut_fault ..) (sameBut_permLane ..).next)
  · intro op w rd rs1 rs2 h
    exact floatingPointOp_writesOnly h
  · intro rd query slot h
    exact rank_writesOnly h

/-! ## The stores (R89) -/

theorem laneFrame_laneStore {tile lane a n : Nat} {d : Bytes} (s : State) (hd : d.length = n) :
    LaneFrame tile lane none none (fun b => a ≤ b ∧ b < a + n) s (s.laneStore tile lane a n d) := by
  have hsame : ∀ u : State, ((u.storeTile tile a d).tile tile).lane lane = (u.tile tile).lane lane := fun u => by
    simp [State.storeTile, TileRec.lane]
  unfold State.laneStore
  split
  · exact laneFrame_refl s
  · dsimp only
    split
    · exact laneFrame_endLane (LaneEnd.sameBut_fault ..)
    · refine (laneFrame_storeTile s a d fun b hlo hhi => ⟨hlo, hd ▸ hhi⟩).trans (laneFrame_endLane ?_)
      rw [hsame]
      exact (Lane.sameBut_refl _).next

/-- Settles O43: a store ends with its lane's registers as they were, or with a fault before it writes. -/
theorem storesWriteOnlyTheirBytes : Obligations.StoresWriteOnlyTheirBytes := by
  intro tile lane rs1 imm x s t hx
  subst hx
  refine ⟨fun size rd h => ?_, fun vd h => ?_⟩
  · exact (LaneFrame.of_act ((execStore.eq_def ..).symm.trans h) (laneFrame_laneStore s (length_toLE ..))).storesOnly
  · exact (LaneFrame.of_act ((execVectorStore.eq_def ..).symm.trans h) (laneFrame_laneStore s (length_toLE ..))).storesOnly

end Sys2Proof.Machine
end

section
/-!
PROOFS. Lane instructions (R76 to R93): where each of them retires, what integer instructions leave in their destination
(R74, R76), and the lane faults of tickets and barriers (R82, R87).
-/
namespace Sys2Proof.Machine

/-! ## Lanes that issue (R75) -/

section
variable {s : State} {tile lane : Nat}

/-- A lane that does not stall issues whatever it might have resumed from. -/
theorem Issues.resumes (h : Issues s tile lane) (resumes : Stall → Bool) : s.laneIssues tile lane resumes = true := by
  obtain ⟨-, hissues⟩ := h
  simp only [State.laneIssues, Bool.and_eq_true, Bool.or_eq_true, Bool.false_eq_true, or_false] at hissues ⊢
  exact ⟨hissues.1, .inl hissues.2⟩

theorem Issues.stall_eq (h : Issues s tile lane) : ((s.tile tile).lane lane).stall = .none := by
  obtain ⟨-, hissues⟩ := h
  simp only [State.laneIssues, Bool.and_eq_true, Bool.or_eq_true, Bool.false_eq_true, or_false, beq_iff_eq] at hissues
  exact hissues.2

/-- An instruction of a lane that issues completes with the end that its body gives. -/
theorem runs_lane_end {i : Instr} {body : State → Lane → LaneEnd} {e : LaneEnd}
    (he : exec i s = act s (fun s => s.lane1 tile lane (body s))) (h : Issues s tile lane)
    (hend : body s ((s.tile tile).lane lane) = e) : Runs i s (s.endLane tile lane e) :=
  hend ▸ runs_lane he h

/-- The same where the instruction may take a free value. -/
theorem runs_lane_end_used {i : Instr} {body : State → Lane → LaneEnd} {e : LaneEnd}
    (he : exec i s = act s (fun s => (s.lane1 tile lane (body s)).used)) (h : Issues s tile lane)
    (hend : body s ((s.tile tile).lane lane) = e) : Runs i s (s.endLane tile lane e).used :=
  runs_act he h.1 (by rw [State.lane1, if_pos h.2, hend])

end

/-! ## Integers, memory and branches (R76, R79, R89) -/

section
variable {s : State} {tile : Fin 96} {lane : Fin 288} {x : Lane} (hi : Issues s tile lane)
  (hx : x = (s.tile tile).lane lane)
include hi hx

theorem integerOp_completes {op : IntOp} (hop : op ≠ .illegal) (rd rs1 rs2 : Fin 32) :
    Runs (.integerOp tile lane op rd rs1 rs2) s
      (s.endLane tile lane (.go (x.result s rd (intResult op (x.getG rs1) (x.getG rs2))).next)).used :=
  hx ▸ runs_lane_end_used (execIntegerOp.eq_def ..) hi (if_neg hop)

theorem vectorStore_completes {rs1 : Fin 32} {imm : BitVec 16} (hgood : badAddr (x.addr rs1 imm) 16 = false)
    (hw : s.readOnly tile (x.addr rs1 imm) = false) (vd : Fin 16) :
    Runs (.vectorStore tile lane vd rs1 imm) s
      ((s.storeTile tile (x.addr rs1 imm) (toLE 16 (x.getV vd).toNat)).endLane tile lane (.go x.next)) := by
  obtain ⟨hsafe, hissues⟩ := hi
  subst hx
  exact runs_act (execVectorStore.eq_def ..) hsafe (by simp [State.laneStore, hissues, hgood, hw])

theorem branch_completes {op : BranchOp} (hop : op ≠ .illegal) (rs1 rs2 : Fin 32) (off : BitVec 16) :
    Runs (.branch tile lane op rs1 rs2 off) s (s.endLane tile lane
      (.go (if branchTaken op (x.getG rs1) (x.getG rs2) then x.jump off.toInt else x.next))) := by
  subst hx
  exact runs_lane_end (execBranch.eq_def ..) hi ((if_neg hop).trans (apply_ite LaneEnd.go _ _ _).symm)

theorem floatingPointOp_completes {op : FpOp} {w : FpWidth} {rd rs1 rs2 : Fin 32} {v : Nat} (hop : op ≠ .illegal)
    (hv : fpResult op w (x.getG rd) (x.getG rs1) (x.getG rs2) = some v) :
    Runs (.floatingPointOp tile lane op w rd rs1 rs2) s (s.endLane tile lane (.go (x.setG rd
      (BitVec.ofNat 64 (putBits (Config.freeValue 64 s.freeCtr).toNat 0 (fpBits op w) v))).next)).used := by
  subst hx
  exact runs_lane_end_used (execFloatingPointOp.eq_def ..) hi ((if_neg hop).trans (by simp only [hv]))

end

/-! ## Barriers (R86 to R88) -/

/-- A wait whose generation has changed goes on. -/
theorem State.barWait_released {s : State} {tile lane slot : Nat} (h : (s.tile tile).released lane slot = some true)
    (sync : Bool) :
    s.barWait tile lane slot sync = s.endLane tile lane (.go (((s.tile tile).lane lane).forget slot).next) := by
  simp only [State.barWait, h]

section
variable {s : State} {tile : Fin 96} {lane : Fin 288} {slot : Fin 8}

theorem barArrive_completes {t : State} (hi : Issues s tile lane)
    (hfault : (s.tile tile).arriveFault lane slot (s.maskOf tile slot) = none)
    (ht : t = s.arrive tile lane slot (s.maskOf tile slot)) :
    Runs (.barArrive tile lane slot) s (t.endLane tile lane (.go ((t.tile tile).lane lane).next)) := by
  obtain ⟨hsafe, hissues⟩ := hi
  subst ht
  exact runs_act (execBarArrive.eq_def ..) hsafe (by simp [hissues, hfault])

theorem barWait_completes (hsafe : s.safe = false) (hissues : s.laneIssues tile lane (· == .bar slot false) = true)
    (hreleased : (s.tile tile).released lane slot = some true) :
    Runs (.barWait tile lane slot) s (s.endLane tile lane (.go (((s.tile tile).lane lane).forget slot).next)) :=
  runs_act (execBarWait.eq_def ..) hsafe ((if_pos hissues).trans (State.barWait_released hreleased false))

theorem barSync_completes {t : State} (hsafe : s.safe = false)
    (hissues : s.laneIssues tile lane (· == .bar slot true) = true)
    (hstall : ((s.tile tile).lane lane).stall ≠ .bar slot true)
    (hfault : (s.tile tile).arriveFault lane slot (s.maskOf tile slot) = none)
    (ht : t = s.arrive tile lane slot (s.maskOf tile slot)) (hreleased : (t.tile tile).released lane slot = some true) :
    Runs (.barSync tile lane slot) s (t.endLane tile lane (.go (((t.tile tile).lane lane).forget slot).next)) := by
  subst ht
  exact runs_act (execBarSync.eq_def ..) hsafe (by simp [hissues, hstall, hfault, State.barWait_released hreleased])

theorem rank_completes (hi : Issues s tile lane) (hmember : notMember (s.maskOf tile slot) lane = false) (rd : Fin 32) :
    Runs (.rank tile lane rd 0 slot) s (s.endLane tile lane (.go (((s.tile tile).lane lane).setG rd
      (BitVec.ofNat 64 (popCount 288 (s.maskOf tile slot % 2 ^ lane.val)))).next)) :=
  runs_lane_end (execRank.eq_def ..) hi (by simp [hmember])

end

/-! ## Work slots (R93) -/

section
variable {s : State} {tile : Fin 96} {lane : Fin 288}

theorem workGet_completes {rd : Fin 32} {n : Nat} {i : ImageRec} {k : Kernel} (hsafe : s.safe = false)
    (hissues : s.laneIssues tile lane (· == .workGet rd) = true) (himage : s.tileImage tile = some i)
    (hkernel : i.kernelOf lane = some k) (hgroup : k.group = false) (hitem : s.choose (s.tile tile).freeItems = some n) :
    Runs (.workGet tile lane rd) s
      (((s.setLane tile lane { (s.tile tile).lane lane with stall := .workGet rd }).giveSlot tile n (2 ^ lane.val) i).used) :=
  runs_act (execWorkGet.eq_def ..) hsafe (by simp [hissues, himage, hkernel, State.workGet, hgroup, hitem])

theorem workDone_completes {rs1 : Fin 32} {x : Lane} {a n : Nat} {q : SlotRec} (hi : Issues s tile lane)
    (hx : x = (s.tile tile).lane lane) (ha : a = (x.getG rs1).toNat) (hheld : s.heldSlot tile lane a = some (n, q)) :
    Runs (.workDone tile lane rs1) s
      (((s.endLane tile lane (.go { x.next with slot := none })).mapTile tile (fun r => r.dropSlot n)).takeDone tile {
        item := q.item, tile := tile, outHandle := leNat (Mem.read (s.tile tile).store (a + 24) 8),
        outLen := leNat (Mem.read (s.tile tile).store (a + 32) 4),
        verdict := leNat (Mem.read (s.tile tile).store (a + 36) 2), at_ := s.dtime }) := by
  obtain ⟨hsafe, hissues⟩ := hi
  subst hx ha
  exact runs_act (execWorkDone.eq_def ..) hsafe (by simp [hissues, hheld])

end

/-! ## Engine calls from the lane's side (R80, R81) -/

section
variable {s : State} {tile : Fin 96} {lane : Fin 288} {x : Lane} (hx : x = (s.tile tile).lane lane)
include hx

theorem eng_completes {rs1 : Fin 32} {e op : BitVec 8} {k a : Nat} {t : State} (hsafe : s.safe = false)
    (hissues : s.laneIssues tile lane (· == .eng) = true) (ha : a = (x.getG rs1).toNat)
    (hticket : s.choose ((List.range 8).filter (fun k => !Map.has x.tickets k)) = some k)
    (hknown : engineKnown e.toNat = true)
    (hroom : ((s.tile tile).calls.filter (fun c => c.engine == e.toNat)).length < 64) (hstore : a + 64 ≤ storeSize)
    (hpresent : s.engineAbsent e.toNat = false)
    (hdesc : descBad ((s.tileImage tile).elim 0 (·.constEnd)) e.toNat op.toNat (s.loadTile tile a 64) = false)
    (hoverlap : (s.tile tile).foreignOverlap lane (s.loadTile tile a 64) = false)
    (ht : t = s.used.acceptCall tile lane k e.toNat op.toNat a (s.loadTile tile a 64) none) (rd : Fin 32) :
    Runs (.eng tile lane rd rs1 e op) s
      (t.endLane tile lane (.go (((t.tile tile).lane lane).setG rd (BitVec.ofNat 64 k)).next)) := by
  subst hx ha ht
  refine runs_act (execEng.eq_def ..) hsafe ?_
  cases himage : s.tileImage tile with
  | none | some i =>
    simp only [himage, Option.elim] at hdesc
    simp [hissues, hticket, hknown, Nat.not_le.2 hroom, Nat.not_lt.2 hstore, hpresent, hdesc, hoverlap]

theorem ewait_completes {rs1 : Fin 32} {k len : Nat} {st : Status} {tk : Ticket} (hsafe : s.safe = false)
    (hk : k = (x.getG rs1).toNat) (hissues : s.laneIssues tile lane (· == .ewait k) = true)
    (hticket : Map.find x.tickets k = some tk) (hresult : tk.result = some (len, st)) (rd : Fin 32) :
    Runs (.ewait tile lane rd rs1) s (s.endLane tile lane
      (.go (Lane.setG { x with tickets := Map.del x.tickets k } rd (ticketWord len st)).next)) := by
  subst hx hk
  exact runs_act (execEwait.eq_def ..) hsafe (by simp [hissues, hticket, hresult])

theorem epoll_completes {rs1 : Fin 32} {k : Nat} {tk : Ticket} (hi : Issues s tile lane) (hk : k = (x.getG rs1).toNat)
    (hticket : Map.find x.tickets k = some tk) (rd : Fin 32) :
    Runs (.epoll tile lane rd rs1) s (s.endLane tile lane (match tk.result with
      | none => .go (x.setG rd 0xFFFF#64).next
      | some (len, st) => .go (Lane.setG { x with tickets := Map.del x.tickets k } rd (ticketWord len st)).next)) := by
  subst hx hk
  refine runs_lane_end (execEpoll.eq_def ..) hi ?_
  cases hresult : tk.result with
  | none => simp only [hticket, hresult]
  | some r => simp only [hticket, hresult]

end

/-- Settles O14: each instruction runs its body, which the lemmas above and the definition give case by case. -/
theorem laneInstructionsComplete : Obligations.LaneInstructionsComplete := by
  refine ⟨?_, ?_, ?_, ?_, ?_, ?_, ?_, ?_, ?_, ?_, ?_, ?_, ?_, ?_, ?_, ?_, ?_, ?_, ?_, ?_, ?_, ?_⟩
  · intro tile lane op rd rs1 rs2 x s hi hx hop
    exact integerOp_completes hi hx hop rd rs1 rs2
  · intro tile lane op rd rs1 imm x s hi hx hop
    exact hx ▸ runs_lane_end_used (execIntegerImmediateOp.eq_def ..) hi (if_neg hop)
  · intro tile lane size signed rd rs1 imm x s hi hx hgood
    exact load_completes hi hx.symm hgood signed rd
  · intro tile lane size rd rs1 imm x s hi hx hgood hw
    exact store_completes hi hx.symm hgood hw rd
  · intro tile lane vd rs1 imm x s hi hx hgood
    subst hx
    exact runs_lane_end (execVectorLoad.eq_def ..) hi (if_neg (Bool.eq_false_iff.1 hgood))
  · intro tile lane vd rs1 imm x s hi hx hgood hw
    exact vectorStore_completes hi hx hgood hw vd
  · intro tile lane op rs1 rs2 off x s hi hx hop
    exact branch_completes hi hx hop rs1 rs2 off
  · intro tile lane rd off x s hi hx
    exact hx ▸ runs_lane_end (execJumpAndLink.eq_def ..) hi rfl
  · intro tile lane rd rs1 imm x a s hi hx ha
    subst hx ha
    exact runs_lane_end (execJumpRegister.eq_def ..) hi rfl
  · intro tile lane op w vd vs1 vs2 x s hi hx hop
    exact hx ▸ runs_lane_end_used (execVectorIntegerOp.eq_def ..) hi (if_neg hop)
  · intro tile lane op w vd vs1 vs2 x s hi hx hop
    exact hx ▸ runs_lane_end_used (execVectorPermute.eq_def ..) hi (if_neg hop)
  · intro tile lane op w rd rs1 rs2 x v s hi hx hop hv
    exact floatingPointOp_completes hi hx hop hv
  · intro tile lane slot s t hi hfault ht
    exact barArrive_completes hi hfault ht
  · intro tile lane slot x s hsafe hissues hx hreleased
    exact hx ▸ barWait_completes hsafe hissues hreleased
  · intro tile lane slot s t hsafe hissues hstall hfault ht hreleased
    exact barSync_completes hsafe hissues hstall hfault ht hreleased
  · intro tile lane rd slot x s hi hx hmember
    exact hx ▸ rank_completes hi hmember rd
  · intro tile lane rd n i k s hsafe hissues himage hkernel hgroup hitem
    exact workGet_completes hsafe hissues himage hkernel hgroup hitem
  · intro tile lane rs1 x a n q s hi hx ha hheld
    exact workDone_completes hi hx ha hheld
  · intro tile lane x s hi hx
    exact hx ▸ runs_lane_end (execHalt.eq_def ..) hi rfl
  · intro tile lane rd rs1 e op x k a s t hsafe hissues hx ha hticket hknown hroom hstore hpresent hdesc hoverlap ht
    exact eng_completes hx hsafe hissues ha hticket hknown hroom hstore hpresent hdesc hoverlap ht rd
  · intro tile lane rd rs1 x k len st tk s hsafe hx hk hissues hticket hresult
    exact ewait_completes hx hsafe hk hissues hticket hresult rd
  · intro tile lane rd rs1 x k tk s hi hx hk hticket
    exact epoll_completes hx hi hk hticket rd

/-! ## What integer instructions leave in their destination (R74, R76) -/

/-- The high half of a product of two words is a word. -/
theorem mul_high_lt (a b : BitVec 64) : a.toNat * b.toNat / 2 ^ 64 < 2 ^ 64 :=
  Nat.div_lt_of_lt_mul (Nat.mul_lt_mul'' a.isLt b.isLt)

/-- R76: sums, differences and products wrap, and quotients and remainders are those of the naturals, by 0 all ones and the
dividend. -/
theorem intResult_wraps {op : IntOp} {x y : BitVec 64} {a b n : Nat} (ha : a = x.toNat) (hb : b = y.toNat)
    (h : op = .add ∧ n = (a + b) % 2 ^ 64 ∨ op = .sub ∧ n = (2 ^ 64 - b + a) % 2 ^ 64
      ∨ op = .mulLow ∧ n = a * b % 2 ^ 64 ∨ op = .mulHighU ∧ n = a * b / 2 ^ 64
      ∨ op = .divU ∧ b = 0 ∧ n = 2 ^ 64 - 1 ∨ op = .divS ∧ b = 0 ∧ n = 2 ^ 64 - 1
      ∨ op = .remU ∧ b = 0 ∧ n = a ∨ op = .remS ∧ b = 0 ∧ n = a ∨ op = .divU ∧ b ≠ 0 ∧ n = a / b
      ∨ op = .remU ∧ b ≠ 0 ∧ n = a % b) :
    ∃ w, intResult op x y = some w ∧ w.toNat = n := by
  have hzero : b = 0 → y = 0#64 := fun h0 => BitVec.eq_of_toNat_eq (hb.symm.trans h0)
  have hnonzero : b ≠ 0 → y ≠ 0#64 := fun h0 hy => h0 (by simp [hb, hy])
  rcases h with ⟨rfl, rfl⟩ | ⟨rfl, rfl⟩ | ⟨rfl, rfl⟩ | ⟨rfl, rfl⟩ | ⟨rfl, h0, rfl⟩ | ⟨rfl, h0, rfl⟩ | ⟨rfl, h0, rfl⟩ |
    ⟨rfl, h0, rfl⟩ | ⟨rfl, h0, rfl⟩ | ⟨rfl, h0, rfl⟩
  all_goals refine ⟨_, rfl, ?_⟩
  · rw [BitVec.toNat_add, ha, hb]
  · rw [BitVec.toNat_sub, ha, hb]
  · rw [BitVec.toNat_mul, ha, hb]
  · rw [BitVec.toNat_ofNat, ha, hb, Nat.mod_eq_of_lt (mul_high_lt x y)]
  · simp [divU64, hzero h0]
  · simp [divS64, hzero h0]
  · simp [remU64, hzero h0, ha]
  · simp [remS64, hzero h0, ha]
  · have hlt : a / b < 2 ^ 64 := (Nat.div_le_self a b).trans_lt (ha ▸ x.isLt)
    rw [divU64, if_neg (hnonzero h0), BitVec.toNat_ofNat, ← ha, ← hb, Nat.mod_eq_of_lt hlt]
  · have hlt : a % b < 2 ^ 64 := (Nat.mod_le a b).trans_lt (ha ▸ x.isLt)
    rw [remU64, if_neg (hnonzero h0), BitVec.toNat_ofNat, ← ha, ← hb, Nat.mod_eq_of_lt hlt]

/-- A stated result stands in the destination after the instruction. -/
theorem integerOp_reads {s : State} {tile : Fin 96} {lane : Fin 288} {op : IntOp} {rd rs1 rs2 : Fin 32} {w : BitVec 64}
    (hi : Issues s tile lane) (hrd : rd ≠ 0)
    (hw : intResult op (((s.tile tile).lane lane).getG rs1) (((s.tile tile).lane lane).getG rs2) = some w) :
    ∃ t, exec (.integerOp tile lane op rd rs1 rs2) s = .next t ∧ ((t.tile tile).lane lane).getG rd = w := by
  have hop : op ≠ .illegal := by
    rintro rfl
    exact Option.some_ne_none w hw.symm
  refine ⟨_, integerOp_completes hi rfl hop rd rs1 rs2, ?_⟩
  have hg := s.g_endLane_go tile lane (((s.tile tile).lane lane).result s rd (some w)).next
  rw [hw]
  exact (Lane.getG_congr hg rd).trans (Lane.getG_setG_same _ _ (Fin.val_ne_of_ne hrd))

/-- A command that has its effect through `act` answers a state. -/
theorem answers_of_act {i : Instr} {s : State} {f : State → State} (he : exec i s = act s f) : Answers (exec i s) := by
  obtain ⟨t, h, -⟩ := act_keeps s f
  exact ⟨t, he.trans h⟩

/-- Settles O45: the result of R76 stands in the destination, and an instruction that names g0 writes g0 at most. -/
theorem integerResultsWrap : Obligations.IntegerResultsWrap := by
  refine ⟨?_, ?_⟩
  · intro tile lane rd rs1 rs2 x a b s hi hx hrd ha hb op n h
    subst hx
    obtain ⟨w, hw, rfl⟩ := intResult_wraps ha hb h
    obtain ⟨t, hexec, hread⟩ := integerOp_reads hi hrd hw
    exact ⟨t, hexec, congrArg BitVec.toNat hread⟩
  · intro tile lane rs1 rs2 op s hi
    obtain ⟨t, hexec⟩ : Answers (exec (.integerOp tile lane op 0 rs1 rs2) s) :=
      answers_of_act (execIntegerOp.eq_def ..)
    obtain ⟨-, -, -, -, ⟨-, hkeep, -, -⟩, -⟩ := integerOp_writesOnly (rd := 0) hexec
    refine ⟨t, hexec, rfl, fun r => ?_⟩
    by_cases hr : r = 0
    · rw [hr]
      rfl
    · exact hkeep r fun hsome => hr (Option.some.inj hsome)

/-! ## Lane faults (R82, R87, R95) -/

/-- The event that a lane fault puts on its tile's line. -/
def State.laneFaultEvent (s : State) (tile : Nat) (st : Status) : ErrEvent :=
  { kind := .fault, src := srcTILE tile, status := st, unit := 0xFF, ctx := s.tileCtx tile, cls := .f2, stamp := s.dtime,
    forced := false, discrepancy := false, concurrent := false }

@[simp] theorem State.setLane_flt (s : State) (n l : Nat) (x : Lane) : (s.setLane n l x).flt = s.flt := rfl
@[simp] theorem State.setLane_dtime (s : State) (n l : Nat) (x : Lane) : (s.setLane n l x).dtime = s.dtime := rfl
@[simp] theorem State.setLane_tileCtx (s : State) (n l : Nat) (x : Lane) (m : Nat) :
    (s.setLane n l x).tileCtx m = s.tileCtx m := rfl

@[simp] theorem State.tileFault_flt (s : State) (n : Nat) (st : Status) : (s.tileFault n st).flt = s.flt := by
  unfold State.tileFault
  split
  · rfl
  · simp

@[simp] theorem State.tileFault_dtime (s : State) (n : Nat) (st : Status) : (s.tileFault n st).dtime = s.dtime := by
  unfold State.tileFault
  split
  · rfl
  · simp

/-- A lane fault stops the lane, leaves the barrier slots alone and puts F2 on the tile's line. -/
theorem fault_stops {i : Instr} {s : State} {tile lane : Nat} {st : Status}
    (h : Runs i s (s.endLane tile lane (.fault ((s.tile tile).lane lane) st))) :
    ∃ t, exec i s = .next t ∧ ((t.tile tile).lane lane).run = .faulted
      ∧ t.flt.lines = s.flt.lines ++ [s.laneFaultEvent tile st] ∧ (t.tile tile).bars = (s.tile tile).bars := by
  refine ⟨_, h, ?_, ?_, ?_⟩
  · simp [State.endLane, State.tile_laneFault]
  · simp [State.endLane, State.laneFault, State.raise, State.laneFaultEvent]
  · exact (laneFrame_endLane (g := none) (v := none) (p := fun _ => False) (LaneEnd.sameBut_fault ..)).bars

section
variable {s : State} {tile : Fin 96} {lane : Fin 288}

theorem eng_without_ticket {rd rs1 : Fin 32} {engine op : BitVec 8} (hsafe : s.safe = false)
    (hissues : s.laneIssues tile lane (· == .eng) = true)
    (hheld : ∀ k < 8, Map.has ((s.tile tile).lane lane).tickets k = true) :
    Runs (.eng tile lane rd rs1 engine op) s (s.endLane tile lane (.fault ((s.tile tile).lane lane) stLANE_ILLEGAL)) := by
  have hfull : (List.range 8).filter (fun k => !Map.has ((s.tile tile).lane lane).tickets k) = [] :=
    List.filter_eq_nil_iff.2 fun k hk => by simp [hheld k (List.mem_range.1 hk)]
  have hnone : s.choose ([] : List Nat) = none := rfl
  exact runs_act (execEng.eq_def ..) hsafe (by simp [hissues, hfull, hnone])

theorem ewait_without_ticket {rd rs1 : Fin 32} {k : Nat} (hsafe : s.safe = false)
    (hk : k = (((s.tile tile).lane lane).getG rs1).toNat) (hissues : s.laneIssues tile lane (· == .ewait k) = true)
    (hheld : Map.has ((s.tile tile).lane lane).tickets k = false) :
    Runs (.ewait tile lane rd rs1) s (s.endLane tile lane (.fault ((s.tile tile).lane lane) stLANE_ILLEGAL)) := by
  have hnone : Map.find ((s.tile tile).lane lane).tickets k = none := by simpa [Map.has] using hheld
  subst hk
  exact runs_act (execEwait.eq_def ..) hsafe (by simp [hissues, hnone])

/-- R87: the arrivals that fault. -/
theorem arriveFault_eq {slot : Fin 8} {st : Status}
    (h : notMember (s.maskOf tile slot) lane = true ∧ st = stBAR_NOT_MEMBER
      ∨ notMember (s.maskOf tile slot) lane = false ∧ bitOf ((s.tile tile).bar slot).arrived lane = true
        ∧ st = stBAR_TWICE) : (s.tile tile).arriveFault lane slot (s.maskOf tile slot) = some st := by
  rcases h with ⟨hnot, rfl⟩ | ⟨hmember, htwice, rfl⟩
  · simp [TileRec.arriveFault, hnot]
  · simp [TileRec.arriveFault, hmember, htwice]

section
variable {slot : Fin 8} {st : Status} (hi : Issues s tile lane)
  (hfault : (s.tile tile).arriveFault lane slot (s.maskOf tile slot) = some st)
include hi hfault

theorem barArrive_faults :
    Runs (.barArrive tile lane slot) s (s.endLane tile lane (.fault ((s.tile tile).lane lane) st)) :=
  runs_act (execBarArrive.eq_def ..) hi.1 (by simp [hi.2, hfault])

theorem barSync_faults :
    Runs (.barSync tile lane slot) s (s.endLane tile lane (.fault ((s.tile tile).lane lane) st)) :=
  runs_act (execBarSync.eq_def ..) hi.1 (by simp [hi.resumes, hi.stall_eq, hfault])

end

theorem barWait_without_arrival {slot : Fin 8} (hi : Issues s tile lane)
    (hnone : Map.find ((s.tile tile).lane lane).arrivals slot = none) :
    Runs (.barWait tile lane slot) s (s.endLane tile lane (.fault ((s.tile tile).lane lane) stBAR_NO_ARRIVAL)) :=
  runs_act (execBarWait.eq_def ..) hi.1 (by simp [hi.resumes, State.barWait, TileRec.released, hnone])

end

/-- Settles O46: neither instruction finds its ticket, and the lane faults. -/
theorem ticketMisuseFaultsTheLane : Obligations.TicketMisuseFaultsTheLane := by
  refine ⟨?_, ?_⟩
  · intro tile lane rd rs1 engine op s hsafe hissues hheld
    obtain ⟨t, hexec, hrun, hlines, -⟩ := fault_stops (eng_without_ticket hsafe hissues hheld)
    exact ⟨t, hexec, hrun, hlines⟩
  · intro tile lane rd rs1 k s hsafe hk hissues hheld
    obtain ⟨t, hexec, hrun, hlines, -⟩ := fault_stops (ewait_without_ticket hsafe hk hissues hheld)
    exact ⟨t, hexec, hrun, hlines⟩

/-- Settles O47: an arrival that R87 forbids faults before it changes the slot, and a wait without an arrival faults. -/
theorem barrierMisuseFaultsTheLane : Obligations.BarrierMisuseFaultsTheLane := by
  refine ⟨?_, ?_⟩
  · intro tile lane slot s st hi h
    have hfault := arriveFault_eq h
    obtain ⟨t, hexec, hrun, hlines, hbars⟩ := fault_stops (barArrive_faults hi hfault)
    obtain ⟨u, hexec', hrun', hlines', hbars'⟩ := fault_stops (barSync_faults hi hfault)
    exact ⟨⟨t, _, hexec, hrun, hlines, rfl, rfl, hbars⟩, ⟨u, _, hexec', hrun', hlines', rfl, rfl, hbars'⟩⟩
  · intro tile lane slot s hi hnone
    obtain ⟨t, hexec, hrun, hlines, -⟩ := fault_stops (barWait_without_arrival hi hnone)
    exact ⟨t, _, hexec, hrun, hlines, rfl, rfl⟩

end Sys2Proof.Machine
end

section
/-!
PROOFS. Shadow execution (R390, R391), Rounds (R96, R392) and the SAFE_STOP interlock (R394): each command under its
conditions takes the branch that its rule names.
-/
namespace Sys2Proof.Machine

/-! ## Shadow pairs (R390, R391) -/

/-- Placing a copy takes no time. -/
@[simp] theorem State.placeCopy_dtime (s : State) (n : Nat) (w : WorkItem) (copy : Nat) :
    (s.placeCopy n w copy).dtime = s.dtime := by
  have hslot : ∀ (m : Nat) (x : WorkItem), (s.putSlot n m x).dtime = s.dtime := fun m x => by
    unfold State.putSlot
    split <;> rfl
  unfold State.placeCopy State.putItem
  split
  · split
    · rfl
    · exact hslot ..
  · rfl

@[simp] theorem State.unqueue_dtime (s : State) (w : WorkItem) : (s.unqueue w).dtime = s.dtime := rfl

/-- A pair that starts on a READY tile with a partner: what it compares, and since when. -/
theorem State.startPair_adds {s : State} {n k u : Nat} {w : WorkItem} (hready : s.tileState n = tsREADY)
    (hpairs : s.work.pairs.any (fun p => p.tile == n) = false) (hslots : s.openSlots n ≠ [])
    (hitem : s.pairItem n = some (w, k)) (hpartner : s.choose (s.partners n [n]) = some u) (hu : u ≠ n) :
    ∃ p ∈ (s.startPair n).work.pairs, p.tile = n ∧ p.second = u ∧ p.item = w ∧ p.first = k ∧ p.started = s.dtime
      ∧ p.results = [] := by
  have hopen : (s.openSlots n).isEmpty = false := by simpa using hslots
  refine ⟨⟨w.ctx, n, u, none, w, k, s.dtime, []⟩, ?_, rfl, rfl, rfl, rfl, rfl, rfl⟩
  simp [State.startPair, hready, hpairs, hopen, hitem, hpartner, hu]

section
variable {s : State} {tile : Fin 96} {p : ShadowPair} {a b c : DoneItem} (hsafe : s.safe = false)
  (hpair : s.work.pairs.find? (fun p => p.tile == tile.val) = some p) (ha : p.result p.first = some a)
  (hb : p.result (p.first + 1) = some b)
include hsafe hpair ha hb

theorem shadowCompare_agrees (hthird : p.third = none) (hkey : s.shadowKey a = s.shadowKey b) :
    Runs (.shadowCompare tile) s
      (((((s.endPair p).clearTile p.tile p.started).clearTile p.second p.started).forcePair p.tile).forcePair p.second) :=
  runs_act (execShadowCompare.eq_def ..) hsafe (by simp [hpair, State.comparePair, ha, hb, hthird, hkey])

/-- The third copy agrees with the tile under test: the second tile is outvoted. -/
theorem shadowThirdCompare_outvotes {u : Nat} (hthird : p.third = some u) (hc : p.result (p.first + 2) = some c)
    (hother : p.second ≠ p.tile) (hkey : s.shadowKey c = s.shadowKey a) :
    Runs (.shadowThirdCompare tile) s
      (((s.endPair p).clearTile p.tile p.started).fenceTile p.second stSHADOW_MISMATCH 0xFF) :=
  runs_act (execShadowThirdCompare.eq_def ..) hsafe
    (by simp [hpair, State.compareThird, hthird, ha, hb, hc, hother, hkey])

end

/-! ## Rounds (R96, R392) -/

section
variable {s : State} {tile : Fin 96} (hsafe : s.safe = false)
include hsafe

/-- What a slice of an idle seated tile comes to. -/
theorem roundsTileSlice_completes (hpresent : s.tilePresent tile = true) (hseated : s.fld (fTILE_STATE_SEATED tile) = 1)
    (hstate : s.tileState tile ≠ tsFENCED) (hslice : (s.tile tile).slice = none) (hidle : s.tileIdle tile = true)
    (outcome : RoundsEnd) :
    Runs (.roundsTileSlice tile outcome) s (match outcome with
      | .failed => (s.sliceBegun tile).tileFailed tile
      | .complete => (s.sliceBegun tile).tilePassed tile
      | .passed => if 4096 ≤ Map.getD (s.sliceBegun tile).flt.roundsSlices tile 0 then (s.sliceBegun tile).tilePassed tile
          else s.sliceBegun tile) := by
  refine runs_act (execRoundsTileSlice.eq_def ..) hsafe ?_
  cases outcome <;> simp [hpresent, hseated, hstate, hslice, hidle]

theorem roundsSliceEnd_completes (hslice : (s.tile tile).slice ≠ none) :
    Runs (.roundsSliceEnd tile) s ((s.sliceEnded tile).deliverHeld tile (s.tile tile).held) :=
  runs_act (execRoundsSliceEnd.eq_def ..) hsafe (if_neg (by simpa using hslice))

/-- A tile 50 min from its last pass gets no dispatch (R96). -/
theorem roundsDispatchWithhold_completes (hseated : s.fld (fTILE_STATE_SEATED tile) = 1)
    (hstate : s.tileState tile ≠ tsFENCED) (hdue : s.passedAt tile + 50 * 60 * 10 ^ 9 ≤ s.dtime)
    (hnew : s.flt.withheld.contains tile.val = false) :
    Runs (.roundsDispatchWithhold tile) s { s with flt := { s.flt with withheld := s.flt.withheld ++ [tile.val] } } := by
  refine runs_act (execRoundsDispatchWithhold.eq_def ..) hsafe ?_
  rw [if_neg]
  simpa [hseated, hstate] using And.intro hdue hnew

theorem roundsUnseatedTileTest_completes (hpresent : s.tilePresent tile = true) (hstate : s.tileState tile = tsUNSEATED)
    (ok : Bool) :
    Runs (.roundsUnseatedTileTest tile ok) s (if ok then s.tilePassed tile else s.tileFailed tile) :=
  runs_act (execRoundsUnseatedTileTest.eq_def ..) hsafe (if_neg (by simp [hpresent, hstate]))

end

/-- A slice counts towards the pass. -/
theorem State.slices_sliceBegun (s : State) (n : Nat) :
    Map.getD (s.sliceBegun n).flt.roundsSlices n 0 = Map.getD s.flt.roundsSlices n 0 + 1 :=
  Map.getD_put_same ..

/-! ## The SAFE_STOP interlock (R394) -/

theorem safeStopQualify_completes {pin : Pin} {s : State} (hlevel : (s.channel pin).raw ≠ (s.channel pin).qualified)
    (hstable : (s.channel pin).edgeAt + s.filterNs ≤ s.monTime) :
    Runs (.safeStopQualify pin) s
      (((s.setChannel pin { s.channel pin with qualified := (s.channel pin).raw, qualAt := s.monTime }).showChannels).qualified
        pin) :=
  runs_always (execSafeStopQualify.eq_def ..) (if_neg (not_or.2 ⟨hlevel, Nat.not_lt.2 hstable⟩))

theorem discrepancyTimeout_completes {since : Nat} {s : State} (htimer : s.flt.timer = some since)
    (hdue : since + s.discrepancyNs ≤ s.monTime) : Runs .discrepancyTimeout s (s.loneDemand true) :=
  runs_always (execDiscrepancyTimeout.eq_def ..) (by simp [htimer, hdue])

/-- Settles O3: each command runs its effect, which the lemmas above and the definitions give case by case. -/
theorem shadowRoundsInterlockComplete : Obligations.ShadowRoundsInterlockComplete := by
  refine ⟨?_, ?_, ?_, ?_, ?_, ?_, ?_, ?_, ?_, ?_, ?_, ?_⟩
  · intro tile w k u s hsafe hready hpairs hslots hitem hpartner hu
    obtain ⟨p, hmem, hp⟩ := State.startPair_adds hready hpairs hslots hitem hpartner hu
    exact ⟨_, p, runs_act (execShadowPairStart.eq_def ..) hsafe rfl, hmem, hp⟩
  · intro tile p a b s hsafe hpair ha hb hthird hkey
    exact shadowCompare_agrees hsafe hpair ha hb hthird hkey
  · intro tile p u a b c s hsafe hpair hthird ha hb hc hother hkey
    exact shadowThirdCompare_outvotes hsafe hpair ha hb hthird hc hother hkey
  · intro tile s hsafe hpresent hseated hstate hslice hidle
    have hruns := roundsTileSlice_completes hsafe hpresent hseated hstate hslice hidle
    refine ⟨hruns .complete, hruns .failed, fun hcount => ?_⟩
    have hfew : ¬ 4096 ≤ Map.getD (s.sliceBegun tile).flt.roundsSlices tile 0 := by
      rw [s.slices_sliceBegun]
      omega
    simpa only [if_neg hfew] using hruns .passed
  · intro tile s hsafe hslice
    exact roundsSliceEnd_completes hsafe hslice
  · intro tile s hsafe hseated hstate hdue hnew
    exact ⟨_, roundsDispatchWithhold_completes hsafe hseated hstate hdue hnew, rfl, rfl⟩
  · intro tile s hsafe hpresent hstate
    have hruns := roundsUnseatedTileTest_completes hsafe hpresent hstate
    exact ⟨hruns true, hruns false⟩
  · intro checker s hsafe
    exact ⟨_, runs_act (execRoundsCheckerTest.eq_def ..) hsafe rfl, rfl, rfl⟩
  · intro s hsafe
    exact ⟨⟨_, runs_act (execRoundsSafeStopTest.eq_def ..) hsafe rfl, rfl⟩,
      runs_act (execRoundsSafeStopTest.eq_def ..) hsafe rfl⟩
  · intro pin level s hraw
    exact runs_always (execSafeStopEdge.eq_def ..) (if_neg hraw)
  · intro pin s hlevel hstable
    exact safeStopQualify_completes hlevel hstable
  · intro since s htimer hdue
    exact discrepancyTimeout_completes htimer hdue

end Sys2Proof.Machine
end

section
/-!
PROOFS. Seating and vocabulary slots (R101, R149, R151) and the lives of contexts (R349 to R361): a request that meets the
conditions of its rule passes every check, and each step of a context's life has its effect in the state that it needs.
-/
namespace Sys2Proof.Machine

/-! ## A request taken up leaves contexts and vocabulary banks alone -/

@[simp] theorem taken_ctxState (s : State) (r : HostReq) (c : Nat) : (s.taken r).ctxState c = s.ctxState c := rfl
@[simp] theorem taken_bankBound (s : State) (r : HostReq) (k : Nat) : (s.taken r).bankBound k = s.bankBound k := rfl

/-! ## Seating and vocabulary slots (R101, R149, R151) -/

section
variable {s : State} {sq : Fin 256} {r : HostReq}

theorem tileSeat_completes {ctx mask : Nat} (h : Asked s 0 sq 0x41 r) (hctx : ctx < 64) (hmask : mask < 2 ^ 96)
    (hstate : s.ctxState ctx ≠ csTEARDOWN) (hseat : (s.taken r).seatStatus ctx mask = none)
    (hawake : (s.taken r).awake mask = true) :
    Runs (.tileSeat sq ctx mask) s
      (((tilesIn mask).foldl (fun s t => s.seatTile ctx t) (s.taken r)).answer r stOK) := by
  have hargs : ¬ (64 ≤ ctx ∨ 2 ^ 96 ≤ mask) := by omega
  refine runs_asked (execTileSeat.eq_def ..) h ?_
  rw [if_neg hargs]
  simp [hstate, hseat, hawake]

theorem tileUnseat_completes {ctx mask : Nat} (h : Asked s 0 sq 0x42 r) (hctx : ctx < 64) (hmask : mask < 2 ^ 96)
    (hpresent : (tilesIn mask).all s.tilePresent = true) (hseated : (tilesIn mask).all (s.seatedTo ctx) = true)
    (hawake : (s.taken r).awake mask = true) :
    Runs (.tileUnseat sq ctx mask) s (((tilesIn mask).foldl State.unseatTile (s.taken r)).answer r stOK) := by
  have hargs : ¬ (64 ≤ ctx ∨ 2 ^ 96 ≤ mask) := by omega
  have hpresent' : (tilesIn mask).all (s.taken r).tilePresent = true := hpresent
  have hseated' : (tilesIn mask).all ((s.taken r).seatedTo ctx) = true := hseated
  refine runs_asked (execTileUnseat.eq_def ..) h ?_
  dsimp only
  rw [if_neg hargs, hpresent', hseated', hawake]
  rfl

theorem vocAssign_completes {slot ctx : Nat} (h : Asked s 0 sq 0x43 r) (hslot : slot < 8) (hctx : ctx < 64)
    (hstate : s.ctxState ctx ≠ csTEARDOWN) (hfree : s.fld (fVOC_SLOTn_ASSIGNED slot) ≠ 1) :
    Runs (.vocAssign sq slot ctx) s
      ((((s.taken r).flag (fVOC_SLOTn_ASSIGNED slot)).setFld (fVOC_SLOTn_CONTEXT slot) ctx).answer r stOK) := by
  have hargs : ¬ (8 ≤ slot ∨ 64 ≤ ctx) := by omega
  refine runs_asked (execVocAssign.eq_def ..) h ?_
  simp [hargs, hstate, hfree]

theorem vocUnassign_completes {slot : Nat} (h : Asked s 0 sq 0x44 r) (hslot : slot < 8)
    (hfree : ∀ b, b < 2 → s.bankBound (bankNum slot b) = false ∧ s.fld (fBankState slot b) ≠ vbLOADING) :
    Runs (.vocUnassign sq slot) s (((s.taken r).unassignSlot slot).answer r stOK) := by
  obtain ⟨hbound0, hstate0⟩ := hfree 0 (by omega)
  obtain ⟨hbound1, hstate1⟩ := hfree 1 (by omega)
  refine runs_asked (execVocUnassign.eq_def ..) h ?_
  simp [Nat.not_le.2 hslot, hbound0, hstate0, hbound1, hstate1]

end

/-! ## The lives of contexts (R349 to R361) -/

theorem ctxTeardown_completes {s : State} {sq : Fin 256} {r : HostReq} {target : Fin 64} (h : Asked s 0 sq 0x46 r)
    (hother : target ≠ 0) (hfree : s.ctxState target ≠ csFREE) (hstate : s.ctxState target ≠ csTEARDOWN) :
    Runs (.ctxTeardown sq target) s (((s.taken r).tearDown target).await r (.teardown target)) := by
  refine runs_asked (execCtxTeardown.eq_def ..) h ?_
  simp [hother, hfree, hstate]

section
variable {s : State} {ctx : Fin 64} (hsafe : s.safe = false)
include hsafe

theorem teardownComplete_completes (hstate : s.ctxState ctx = csTEARDOWN) (htiles : s.tilesOf ctx = [])
    (hkeys : s.keysHeld ctx = false) : Runs (.teardownComplete ctx) s (s.releaseContext ctx) :=
  runs_act (execTeardownComplete.eq_def ..) hsafe (by simp [hstate, htiles, hkeys])

/-- R349: a reset request of PF0 or of the context's own function starts the reset of an ACTIVE context. -/
theorem ctxResetReq_active {fn : Fin 64} (hreach : s.reaches fn = true) (hrec : s.mod.recovery = false)
    (hfn : fn = 0 ∨ fn = ctx) (hstate : s.ctxState ctx = csACTIVE) :
    Runs (.ctxResetReq fn ctx) s ((s.startReset ctx).flag (fCTX_CTRL_RESET_REQ ctx)) := by
  have howner : s.ownerReset ctx = some (s.startReset ctx) := if_pos hstate
  have hallowed : ¬ (((fn : Nat) ≠ 0 ∧ (fn : Nat) ≠ ctx) ∨ (s.ctxState ctx = csFENCED ∧ (fn : Nat) ≠ 0)) := by
    rw [hstate]
    rcases hfn with rfl | rfl <;> simp [csACTIVE, csFENCED]
  refine runs_act (execCtxResetReq.eq_def ..) hsafe ?_
  rw [if_pos ⟨hreach, by simp [hrec]⟩, State.resetReq, if_neg hallowed, howner]

theorem ctxStoppedAck_completes (hreach : s.reaches ctx = true) (hrec : s.mod.recovery = false)
    (hstopped : s.fld (fCTX_STATUS_STOPPED ctx) ≠ 0) :
    Runs (.ctxStoppedAck ctx ctx) s (s.push {
      kind := .ackF2, src := 0, status := stOK, unit := 0, ctx := ctx, cls := .f2, stamp := s.dtime, forced := false,
      discrepancy := false, concurrent := false }) :=
  runs_act (execCtxStoppedAck.eq_def ..) hsafe (by simp [hreach, hrec, State.stoppedAck, hstopped])

end

/-- Settles O12: each command runs its effect, which the lemmas above and the definitions give case by case. -/
theorem seatsAndContextsComplete : Obligations.SeatsAndContextsComplete := by
  refine ⟨?_, ?_, ?_, ?_, ?_, ?_, ?_, ?_, ?_, ?_, ?_⟩
  · intro sq r ctx mask s h hctx hmask hstate hseat hawake
    exact tileSeat_completes h hctx hmask hstate hseat hawake
  · intro sq r ctx mask s h hctx hmask hpresent hseated hawake
    exact tileUnseat_completes h hctx hmask hpresent hseated hawake
  · intro sq r slot ctx s h hslot hctx hstate hfree
    exact vocAssign_completes h hslot hctx hstate hfree
  · intro sq r slot s h hslot hfree
    exact vocUnassign_completes h hslot hfree
  · intro sq r target s t h hreset
    exact runs_asked (execCtxReset.eq_def ..) h (by simp only [hreset])
  · intro sq r target s h hother hfree hstate
    exact ctxTeardown_completes h hother hfree hstate
  · intro ctx s hsafe hstate htiles hkeys
    exact teardownComplete_completes hsafe hstate htiles hkeys
  · intro fn ctx s hsafe hreach hrec hfn hstate
    exact ctxResetReq_active hsafe hreach hrec hfn hstate
  · intro ctx s hsafe hreach hrec hstopped
    exact ⟨_, ctxStoppedAck_completes hsafe hreach hrec hstopped, rfl, rfl⟩
  · intro ctx s hsafe hstate
    exact runs_act (execDumpCaptureComplete.eq_def ..) hsafe (if_pos hstate)
  · intro ctx s hsafe hstate hdone
    exact runs_act (execContextResetComplete.eq_def ..) hsafe (if_pos ⟨hstate, hdone⟩)

end Sys2Proof.Machine
end

section
/-!
PROOFS. Engine calls (R136): a TRANSFORM whose taps leave the decoded rectangle ends with GEO_COVERAGE and an output range
that is undefined, so it takes a free value, where the statement about it finishes the call with the engine's own output.
-/
namespace Sys2Proof.Machine

/-! ## Which ends of a call take a free value -/

@[simp] theorem State.completeTicket_freeCtr (s : State) (n l k len : Nat) (st : Status) :
    (s.completeTicket n l k len st).freeCtr = s.freeCtr := by
  unfold State.completeTicket
  dsimp only
  split <;> rfl

@[simp] theorem State.completeCall_freeCtr (s : State) (n : Nat) (c : Call) (len : Nat) (st : Status) :
    (s.completeCall n c len st).freeCtr = s.freeCtr := State.completeTicket_freeCtr ..

/-- A call that ends with its output takes no free value. -/
theorem State.finishCall_freeCtr (s : State) (n : Nat) (c : Call) (e : EngRes) : (s.finishCall n c e).freeCtr = s.freeCtr :=
  State.completeCall_freeCtr ..

/-- A call that ends with GEO_COVERAGE, its output range undefined, takes one. -/
theorem State.finishDecode_freeCtr {s : State} {n : Nat} {c : Call} {range : Nat} {e : EngRes}
    (h : e.status = stGEO_COVERAGE) : (s.finishDecode n c range e).freeCtr = s.freeCtr + 1 := by
  have hundefined : ¬ (e.status = stOK ∨ e.status = stDEC_LIMIT ∨ e.status = stDEC_REGION) := by
    rw [h]
    decide
  rw [State.finishDecode, if_neg hundefined, State.completeCall_freeCtr]
  rfl

/-! ## TRANSFORM outside the decoded rectangle (R136) -/

/-- The engine's own end of a TRANSFORM call. -/
def State.transformed (s : State) (tile : Nat) (c : Call) : EngRes :=
  geoTransform s.clockProfile (selfOverlap c.desc) (s.inBytes tile c) (s.auxBytes tile c) (descOut c.desc).2

/-- A TRANSFORM that ends with GEO_COVERAGE takes a free value for its output range. -/
theorem transform_uncovered_freeCtr {s t : State} {tile : Fin 96} {c : Call} (h : Called s tile 0x03 0x01 c)
    (hcoverage : (s.transformed tile c).status = stGEO_COVERAGE) (ht : Runs (.transform tile) s t) :
    t.freeCtr = s.freeCtr + 1 := by
  have hruns : Runs (.transform tile) s (s.finishDecode tile c (descOut c.desc).2 (s.transformed tile c)) :=
    runs_called (execTransform.eq_def ..) h (if_pos hcoverage)
  have hsame := congrArg State.freeCtr (Host.Outcome.next.inj (ht.symm.trans hruns))
  exact hsame.trans (State.finishDecode_freeCtr hcoverage)

/-! ## A call that asks for a pixel that was not decoded -/

/-- A grey image of 2 × 1 pixels, of which the left one is decoded (Table 4.5). -/
def leftPixel : Bytes :=
  toLE 1 1 ++ toLE 1 1 ++ toLE 2 8 ++ toLE 2 2 ++ toLE 2 1 ++ zeros 4 ++ toLE 2 1 ++ toLE 2 1 ++ toLE 4 1 ++ toLE 4 1
    ++ zeros 8 ++ toLE 1 7

/-- Parameters that crop the right pixel, by the nearest filter, to grey bytes (Table 5.2). -/
def cropRight : Bytes :=
  zeros 2 ++ toLE 1 2 ++ zeros 1 ++ toLE 4 8 ++ toLE 2 1 ++ zeros 2 ++ toLE 2 1 ++ toLE 2 1 ++ toLE 2 1 ++ toLE 2 1
    ++ zeros 108

/-- The TRANSFORM call: input at 0x1000, parameters at 0x2000, room for 16 bytes at 0x3000 (Table 3.4). -/
def rightPixelCall : Call :=
  { seq := 0, lane := 0, ticket := 0, engine := 3, op := 1, descAddr := 0,
    desc := toLE 1 3 ++ toLE 1 1 ++ zeros 2 ++ toLE 4 0x1000 ++ toLE 4 33 ++ toLE 4 0x3000 ++ toLE 4 16 ++ toLE 4 0x2000
      ++ toLE 4 128 ++ zeros 36 }

/-- Tile 0 with that call in its geometry engine's queue. -/
def uncoveredState : State :=
  { State.reset with
    tiles := [(0, { TileRec.off with
      store := Mem.write (Mem.write [] 0x1000 leftPixel) 0x2000 cropRight
      calls := [rightPixelCall], nextSeq := 1 })] }

theorem uncoveredState_called : Called uncoveredState 0 0x03 0x01 rightPixelCall := by
  unfold Called
  decide +kernel

theorem uncoveredState_status : (uncoveredState.transformed 0 rightPixelCall).status = stGEO_COVERAGE := by decide +kernel

/-- Refutes O15: the clause of TRANSFORM finishes a call that ends with GEO_COVERAGE with the engine's output, where the
output range is undefined (R136) and the command takes a free value for it. -/
theorem not_engineCallsComplete : ¬ Obligations.EngineCallsComplete := by
  unfold Obligations.EngineCallsComplete
  intro h
  obtain ⟨-, -, -, -, -, -, -, htransform, -⟩ := h
  have hstated := htransform 0 rightPixelCall uncoveredState uncoveredState_called
  have hfree := transform_uncovered_freeCtr (tile := 0) uncoveredState_called uncoveredState_status hstated
  rw [State.finishCall_freeCtr] at hfree
  exact Nat.succ_ne_self _ hfree.symm

end Sys2Proof.Machine
end

section
/-!
PROOFS. Secrets, blobs and debug access (R150, R368 to R381): a request that meets the conditions of its rule passes every
check of its opcode. What a signature, a key agreement or a tag decides is the model's own test and stays in the effect.
-/
namespace Sys2Proof.Machine

/-! ## Attestation and key delivery (R368 to R370) -/

section
variable {s : State} {ctx : Fin 64} {sq : Fin 256} {r : HostReq} {buf : Bytes}

theorem attest_completes (h : Asked s ctx sq 0x03 r) (hlen : buf.length = r.len) (hnonce : 48 ≤ buf.length)
    (hroom : (Map.getD s.sec.reports ctx []).length < 4) :
    Runs (.attest ctx sq buf) s (((s.taken r).attested ctx r buf).answer r stOK) := by
  have hargs : ¬ (buf.length ≠ r.len ∨ buf.length < 48) := by omega
  refine runs_asked (execAttest.eq_def ..) h ?_
  rw [if_neg hargs]
  exact if_neg (Nat.not_le.2 hroom)

/-- R368: the reports that are 60 s old go, the younger ones stay. -/
theorem reportExpiry_completes (hsafe : s.safe = false) :
    ∃ t, exec (.reportExpiry ctx) s = .next t ∧ t.regs = s.regs
      ∧ Map.getD t.sec.reports ctx [] = (Map.getD s.sec.reports ctx []).filter (fun r => !r.expired s.dtime) :=
  ⟨_, runs_act (execReportExpiry.eq_def ..) hsafe rfl, rfl, Map.getD_put_same ..⟩

/-- R369, R370: a well-formed delivery on a live report spends it, and ends as key agreement and tag decide. -/
theorem keyDeliver_completes {x : Report} (h : Asked s ctx sq 0x04 r) (hlen : buf.length = r.len)
    (hsize : buf.length = 1776) (hkeys : (s.taken r).keysHeld ctx = false) (hmagic : fieldAt buf 0 4 = 0x444B464F)
    (hversion : fieldAt buf 4 2 = 1) (hctx : fieldAt buf 6 1 = ctx.val)
    (hreport : (Map.getD s.sec.reports ctx []).find? (fun x => x.digest == slice buf 8 48) = some x)
    (hlive : x.expired s.dtime = false) :
    Runs (.keyDeliver ctx sq buf) s (match x.unwrap buf with
      | none => (((s.taken r).spendReport ctx x).bump fSEC_AUTH_FAIL_COUNT_BLOB 1).answer r stSEC_DELIVERY
      | some k => (((s.taken r).spendReport ctx x).holdKey ctx k).answer r stOK) := by
  have hargs : ¬ (buf.length ≠ r.len ∨ buf.length ≠ 1776) := by omega
  have hheader : ¬ (fieldAt buf 0 4 ≠ 0x444B464F ∨ fieldAt buf 4 2 ≠ 1 ∨ fieldAt buf 6 1 ≠ ctx.val) := by
    simp [hmagic, hversion, hctx]
  have hlive' : ((s.taken r).spendReport ctx x).dtime = s.dtime := rfl
  refine runs_asked (execKeyDeliver.eq_def ..) h ?_
  dsimp only
  rw [if_neg hargs, hkeys, if_neg Bool.false_ne_true, if_neg hheader, taken_sec, hreport]
  dsimp only
  rw [hlive', hlive]
  exact if_neg Bool.false_ne_true

end

/-! ## Sealed blobs (R371, R372) -/

/-- A request whose blob has a good header and opens goes on with the plaintext. -/
theorem State.withBlob_opened {s t : State} {c engine : Nat} {kinds : List Nat} {r : HostReq} {buf plain : Bytes}
    (bad : Status) (body : State → Bytes → State) (hheader : blobHeaderOk c kinds r.len buf = true)
    (hopen : s.takeBlob c buf = .ok (some plain, t)) : s.withBlob c engine kinds r buf bad body = body t plain := by
  unfold State.withBlob
  simp [hheader, hopen]

section
variable {s t : State} {ctx : Fin 64} {sq : Fin 256} {engine : Fin 65536} {r : HostReq} {buf : Bytes}

/-- A blob of another KIND than a vocabulary image has its KIND's effect. -/
theorem blob_completes {plain : Bytes} (h : Asked s ctx sq 0x05 r) (hkind : blobKind buf ≠ 3)
    (hheader : blobHeaderOk ctx (blobKinds ctx) r.len buf = true) (hargs : blobArgsOk (blobKind buf) r = true)
    (hopen : (s.taken r).takeBlob ctx buf = .ok (some plain, t)) :
    Runs (.blob ctx sq engine buf) s (t.blobEffect ctx (blobKind buf) r plain) := by
  refine runs_asked (execBlob.eq_def ..) h ?_
  dsimp only
  rw [hheader, hargs, if_neg hkind]
  exact State.withBlob_opened _ _ hheader hopen

/-- R150: a vocabulary image starts its load whether or not its tag is good: the load's end tells (Table 6.3). -/
theorem blob_startsLoad {plain : Option Bytes} (h : Asked s ctx sq 0x05 r) (hkind : blobKind buf = 3)
    (hheader : blobHeaderOk ctx (blobKinds ctx) r.len buf = true) (hargs : blobArgsOk 3 r = true)
    (hopen : (s.taken r).takeBlob ctx buf = .ok (plain, t)) :
    Runs (.blob ctx sq engine buf) s (t.startLoad ctx (fieldAt r.args 0 1) (buf.length - 48) plain r) := by
  refine runs_asked (execBlob.eq_def ..) h ?_
  dsimp only
  rw [hkind, hheader, hargs, hopen]
  rfl

end

/-! ## Vocabulary banks (R150, Table 6.3) -/

theorem vocabLoadComplete_ready {s : State} {slot : Fin 8} {bank : Fin 2} {engine : Fin 65536} {v : VocBank}
    (hsafe : s.safe = false) (hbank : Map.find s.vocs (bankNum slot bank) = some v)
    (hloading : s.fld (fBankState slot bank) = vbLOADING) (hopened : v.digest ≠ [])
    (hparses : (parseVocab v.image).isSome = true) :
    Runs (.vocabLoadComplete slot bank engine) s
      ((s.setFld (fBankState slot bank) vbREADY).endLoad slot bank stOK) := by
  have hformat : ¬ (parseVocab v.image).isNone = true := by simp [← Option.not_isSome, hparses]
  refine runs_act (execVocabLoadComplete.eq_def ..) hsafe ?_
  rw [hbank]
  dsimp only
  rw [if_neg (not_not.2 hloading), if_neg hopened, if_neg hformat]

theorem vocDiscard_completes {s : State} {ctx : Fin 64} {sq : Fin 256} {r : HostReq} {slot bank : Nat}
    (h : Asked s ctx sq 0x06 r) (hslot : slot < 8) (hbank : bank < 2) (hassigned : (s.taken r).slotOf ctx slot = true)
    (hheld : s.fld (fBankState slot bank) ≠ vbEMPTY) (hloaded : s.fld (fBankState slot bank) ≠ vbLOADING)
    (hfree : (s.taken r).bankBound (bankNum slot bank) = false) :
    Runs (.vocDiscard ctx sq slot bank) s (((s.taken r).emptyBank slot bank).answer r stOK) := by
  have hargs : ¬ (8 ≤ slot ∨ 2 ≤ bank) := by omega
  have hidle : ¬ (s.fld (fBankState slot bank) = vbLOADING
      ∨ (s.fld (fBankState slot bank) = vbREADY ∧ (s.taken r).bankBound (bankNum slot bank) = true)) := by
    simp [hloaded, hfree]
  refine runs_asked (execVocDiscard.eq_def ..) h ?_
  dsimp only
  rw [if_neg hargs, hassigned, taken_fld, if_neg hheld, if_neg hidle]
  rfl

/-! ## Decommission and debug access (R380, R381) -/

section
variable {s : State} {sq : Fin 256} {r : HostReq}

/-- R380: the challenge is a nonce of 48 bytes, kept with its time and written to the owner's buffer. -/
theorem debugChallenge_completes (h : Asked s 0 sq 0x48 r) (hroom : 48 ≤ r.len) :
    ∃ t n, exec (.debugChallenge sq) s = .next t ∧ n.length = 48 ∧ t.sec.challenge = some (n, s.dtime)
      ∧ t.out = s.out ++ [.hostWrite r.ctx r.addr n] ∧ t.regs = s.regs :=
  ⟨_, toLE 48 ((s.taken r).free 384), runs_asked (execDebugChallenge.eq_def ..) h (if_neg (Nat.not_lt.2 hroom)),
    length_toLE .., rfl, rfl, rfl⟩

/-- R380: a good token unlocks the vendor's level, any other is refused. -/
theorem debugUnlock_completes (token : DebugToken) (h : Asked s 0 sq 0x49 r) :
    Runs (.debugUnlock sq token) s
      (if (s.taken r).tokenOk token then ((s.taken r).unlocked.setFld fSEC_STATUS_DEBUG 2).answer r stOK
       else (s.taken r).answer r stSEC_DEBUG_TOKEN) := by
  refine runs_asked (execDebugUnlock.eq_def ..) h ?_
  by_cases hok : (s.taken r).tokenOk token = true
  · rw [if_pos hok, if_neg (by simp [hok])]
  · rw [if_neg hok, if_pos (by simp [hok])]

end

/-- R380: below the vendor's level, PF0 selects level OWNER or leaves it. -/
theorem ownerDebugWrite_completes {s : State} (on : Bool) (hsafe : s.safe = false) (hreach : s.reaches 0 = true)
    (hrec : s.mod.recovery = false) (hlevel : s.fld fSEC_STATUS_DEBUG ≠ 2) :
    Runs (.ownerDebugWrite 0 on) s
      ((s.setFld fSEC_DEBUG_CTRL_OWNER_DEBUG (if on then 1 else 0)).setFld fSEC_STATUS_DEBUG (if on then 1 else 0)) := by
  have hallowed : ¬ ((0 : Fin 64) ≠ 0 ∨ !s.reaches (0 : Fin 64) ∨ s.mod.recovery) := by simp [hreach, hrec]
  refine runs_act (execOwnerDebugWrite.eq_def ..) hsafe ?_
  rw [if_neg hallowed]
  exact if_neg hlevel

/-- Settles O8: each command passes its checks, which the lemmas above show clause by clause; DECOMMISSION has none. -/
theorem secretsComplete : Obligations.SecretsComplete := by
  refine ⟨?_, ?_, ?_, ?_, ?_, ?_, ?_, ?_, ?_, ?_, ?_⟩
  · intro ctx sq r buf s h hlen hnonce hroom
    exact attest_completes h hlen hnonce hroom
  · intro ctx s hsafe
    exact reportExpiry_completes hsafe
  · intro ctx sq r buf x s u h hlen hsize hkeys hmagic hversion hctx hreport hlive hspent
    subst hspent
    exact keyDeliver_completes h hlen hsize hkeys hmagic hversion hctx hreport hlive
  · intro ctx sq engine r buf plain s t h hkind hheader hargs hopen
    exact blob_completes h hkind hheader hargs hopen
  · intro ctx sq engine r buf plain s t h hkind hheader hargs hopen
    exact blob_startsLoad h hkind hheader hargs hopen
  · intro slot bank engine v s hsafe hbank hloading hopened hparses
    exact vocabLoadComplete_ready hsafe hbank hloading hopened hparses
  · intro ctx sq r slot bank s h hslot hbank hassigned hheld hloaded hfree
    exact vocDiscard_completes h hslot hbank hassigned hheld hloaded hfree
  · intro sq r s h
    exact runs_asked (execDecommission.eq_def ..) h rfl
  · intro sq r s h hroom
    exact debugChallenge_completes h hroom
  · intro sq r token s h
    exact debugUnlock_completes token h
  · intro on s hsafe hreach hrec hlevel
    exact ownerDebugWrite_completes on hsafe hreach hrec hlevel

end Sys2Proof.Machine
end

section
/-!
PROOFS. The Lantern's control of runs (R188, R400, R401, R410 to R418): a message, a timer or a decision that meets the
conditions of its rule passes every check of its command, clause by clause; what remains of the command is its effect.
-/
namespace Sys2Proof.Machine

/-! ## Leg aborts (R410, R411) -/

/-- R410: the first LEG_ABORT of a run is passed on to this pod's keepers and aborts the leg here. -/
theorem legAbortReceive_completes {m : LanMsg} {r : RunRec} {s : State} (hsafe : s.safe = false)
    (hrun : s.runWithId m.ctx m.arg0 = some r) (hkind : m.kind = lkLEG_ABORT) (hfirst : r.aborted = none) :
    Runs (.legAbortReceive m) s
      ((s.sendAll (s.ownKeepers.filter (· != noKeeper)) lkLEG_ABORT m.ctx m.arg0 m.arg1 m.arg2 []).doAbort m.ctx m.arg1) :=
  runs_act (execLegAbortReceive.eq_def ..) hsafe (by simp [hrun, hkind, hfirst])

/-- R411: a member of this pod that has not reported 20 ms after the abort is lost with reason abort timeout. -/
theorem abortTimeout_completes {ctx : Fin 64} {pos : Nat} {r : RunRec} {e : JEntry} {s : State} (hsafe : s.safe = false)
    (hrun : s.runOf ctx = some r) (hentry : s.entry ctx = some e) (hactive : s.isActive = true)
    (haborted : r.aborted.isSome = true) (hdue : r.abortAt + 20000000 ≤ s.dtime)
    (hmember : (s.runMembers ctx s.ownPod).contains pos = true) (hother : pos ≠ s.self)
    (hsilent : bitOf e.abortMask (pos % 32) = false) (hlive : s.isLost pos = false) :
    Runs (.abortTimeout ctx pos) s (s.losePeer pos 2) := by
  refine runs_act (execAbortTimeout.eq_def ..) hsafe ?_
  simp only [hrun, hentry]
  exact if_pos (by simp [hactive, haborted, hdue, hmember, hother, hsilent, hlive, -List.contains_eq_mem])

/-! ## Commits and restarts (R412 to R414) -/

theorem stepCommitReceive_completes {m : LanMsg} {s : State} (hsafe : s.safe = false) (hkind : m.kind = lkSTEP_COMMIT) :
    Runs (.stepCommitReceive m) s (if s.isActive then s.keeperTakes m else s.takeCommit m.ctx m.arg0 m.arg1) :=
  runs_act (execStepCommitReceive.eq_def ..) hsafe (if_neg (not_not_intro hkind))

/-- R413: the coordinator restarts a run whose abort is complete and whose lost ranks each have a carrier. -/
theorem restart_completes {ctx : Fin 64} {carriers : List (Nat × Nat)} {r : RunRec} {e : JEntry} {s : State}
    (hsafe : s.safe = false) (hrun : s.runOf ctx = some r) (hentry : s.entry ctx = some e) (hcoord : s.isCoord = true)
    (haborted : r.aborted.isSome = true) (hcomplete : s.abortComplete ctx = true)
    (hlost : carriers.map (·.1) = s.lostRanks r) (hcarry : carriers.all (s.carrierOk r) = true) :
    Runs (.restart ctx carriers) s
      ((s.tellRestart ctx r e carriers).doRestart ctx (e.committed + 1) (e.restarts + 1) carriers) := by
  refine runs_act (execRestart.eq_def ..) hsafe ?_
  have hdue : ¬ (!s.isCoord ∨ r.aborted.isNone ∨ !s.abortComplete ctx) := by
    simpa [hcoord, hcomplete] using Option.isSome_iff_ne_none.1 haborted
  have hcarried : ¬ (decide (carriers.map (·.1) ≠ s.lostRanks r) || !carriers.all (s.carrierOk r)) = true := by
    rw [hlost, hcarry]
    simp
  simp only [hrun, hentry]
  rw [if_neg hdue, if_neg hcarried]

theorem restartReceive_completes {m : LanMsg} {r : RunRec} {s : State} (remaps : List (Nat × Nat)) (hsafe : s.safe = false)
    (hrun : s.runWithId m.ctx m.arg0 = some r) (hkind : m.kind = lkRESTART) (haborted : r.aborted.isSome = true)
    (hnext : m.arg2 = r.restarts + 1) :
    Runs (.restartReceive m remaps) s (s.doRestart m.ctx m.arg1 m.arg2 remaps) := by
  have hdue : ¬ (m.kind ≠ lkRESTART ∨ r.aborted.isNone ∨ m.arg2 ≠ r.restarts + 1) := by
    simpa [hkind, hnext] using Option.isSome_iff_ne_none.1 haborted
  refine runs_act (execRestartReceive.eq_def ..) hsafe ?_
  simp only [hrun]
  exact if_neg hdue

/-! ## Acknowledgements (R418) -/

/-- The ACK of a message that leads to nothing more, neither a SEAL nor a fixed outcome, only empties the outbox of it. -/
theorem controlAckReceive_completes {m : LanMsg} {o : OutMsg} {s : State} (hsafe : s.safe = false) (hkind : m.kind = lkACK)
    (hfound : s.lan.outbox.find? (fun o => o.msg.seq == m.arg0 && o.msg.kind == m.arg1) = some o)
    (hseal : o.msg.kind ≠ lkSEAL) (hmix : o.msg.kind ≠ lkMIX_OUTCOME) :
    Runs (.controlAckReceive m) s (s.setLan { s.lan with
      outbox := s.lan.outbox.filter (fun x => !(x.msg.seq == m.arg0 && x.msg.kind == m.arg1)) }) := by
  refine runs_act (execControlAckReceive.eq_def ..) hsafe ?_
  simp only [hkind, beq_self_eq_true, hfound]
  rw [if_neg hseal, if_neg (fun h => hmix h.1)]

/-! ## The journal (R417, R418) -/

/-- R417: an active keeper with a standby writes the image of its changed journal there and sends JOURNAL_COPY. -/
theorem journalCopy_completes {n p : Nat} {s u : State} (hsafe : s.safe = false) (hactive : s.isActive = true)
    (hdue : s.lan.copyAt + 250000 ≤ s.dtime) (hnews : s.lan.dirty = true ∨ s.lan.held ≠ []) (hn : n = s.lan.journalSeq + 1)
    (hu : u = s.setLan { s.lan with
      journalSeq := n
      copyAt := s.dtime
      dirty := false
      held := s.lan.held.map (fun h => { h with image := some (h.image.getD n) }) })
    (hstandby : u.lan.view.standby u.ownPod = some p) (hp : p ≠ noKeeper) :
    Runs .journalCopy s
      ((u.sendTc0 16384 (.journal p (n % 2) (u.journalImage n))).sendLan p lkJOURNAL_COPY 0xFF n (n % 2) 0 []) := by
  have hcopies : ¬ (!s.isActive ∨ s.dtime < s.lan.copyAt + 250000 ∨ (!s.lan.dirty ∧ s.lan.held.isEmpty)) := by
    rcases hnews with hdirty | hheld
    · simp [hactive, hdirty, hdue]
    · simp [hactive, hheld, hdue]
  refine runs_act (execJournalCopy.eq_def ..) hsafe ?_
  rw [if_neg hcopies]
  dsimp only
  rw [← hn, ← hu]
  simp only [hstandby]
  exact if_neg hp

/-- R417: the standby takes a valid image that is newer than its own and acknowledges it. -/
theorem journalCopyReceive_completes {m : LanMsg} {image : Bytes} {s : State} (hsafe : s.safe = false)
    (hkind : m.kind = lkJOURNAL_COPY) (hstandby : s.isStandby = true) (hgood : journalOk image m.arg0 = true)
    (hnewer : (((s.lan.validSlot).bind (Map.find s.lan.slots)).map (fun b => fieldAt b 8 8)).getD 0 < m.arg0)
    (hslot : m.arg1 < 2) :
    Runs (.journalCopyReceive m image) s
      ((s.setLan { s.lan with slots := Map.put s.lan.slots m.arg1 image, validSlot := some m.arg1 }).sendLan m.sender
        lkJOURNAL_ACK 0xFF m.arg0 m.arg1 0 []) := by
  refine runs_act (execJournalCopyReceive.eq_def ..) hsafe ?_
  rw [if_neg (by simp [hkind, hstandby])]
  exact if_pos ⟨hgood, hnewer, hslot⟩

theorem journalAckReceive_completes {m : LanMsg} {s : State} (hsafe : s.safe = false) (hkind : m.kind = lkJOURNAL_ACK)
    (hactive : s.isActive = true) : Runs (.journalAckReceive m) s (s.actHeld (HeldMsg.copiedBy m.arg0)) :=
  runs_act (execJournalAckReceive.eq_def ..) hsafe (if_neg (by simp [hkind, hactive]))

/-! ## Mixing records on their way (R188, R400, R401) -/

/-- R188: a well-formed record that comes after the last one, in time and with room in the Logbook, is distributed to the
run's other devices. -/
theorem mixRecordExamine_completes {ctx : Fin 64} {m : RxDone} {r : RunRec} {b : Bytes} {slot : Nat} {s u : State}
    (hsafe : s.safe = false) (htake : s.takeMessage 1 (some ctx) = some (m, u)) (hrun : s.runOf ctx = some r)
    (hslot : slot = m.addr / 8192 * 8192)
    (hb : b = u.winBytes 1 ctx slot (64 + 16 * min 256 (fieldAt (u.winBytes 1 ctx slot 64) 6 2)))
    (hformat : u.mixFormatOk ctx b = true) (hafter : ∀ n, (u.ctxData ctx).lastMix = some n → n < fieldAt b 16 8)
    (htime : u.beaconStep + r.cfg.pack.lead + 2 ≤ fieldAt b 8 8)
    (hroom : (u.ctxData ctx).logRoom (16 * fieldAt b 6 2) = true) :
    Runs (.mixRecordExamine ctx) s
      ((u.setData ctx { u.ctxData ctx with mixing := (u.ctxData ctx).mixing ++ [{
        seq := fieldAt b 16 8, step := fieldAt b 8 8, total := 0, frags := [], record := some b, entry := true,
        source := u.self, qp := m.qp, acked := [], sentAt := u.dtime, decided := none }] }).sendFragments ctx r.cfg.runId b
          (fieldAt b 16 8) (r.devices.filter (· != u.self))) := by
  refine runs_act (execMixRecordExamine.eq_def ..) hsafe ?_
  simp only [htake, hrun]
  rw [← hslot, ← hb, if_neg (by simp [hformat])]
  rw [if_neg, if_neg (by omega), if_neg (by simp [hroom])]
  · rfl
  · cases hlast : (u.ctxData ctx).lastMix with
    | none => simp
    | some q => simpa using hafter q hlast

/-- R400: the first fragment of a record of several is kept until the others have come. -/
theorem mixDistReceive_completes {m : LanMsg} {r : RunRec} {s : State} (hsafe : s.safe = false)
    (hrun : s.runWithId m.ctx m.arg0 = some r) (hkind : m.kind = lkMIX_DIST)
    (hindex : m.arg2 / 256 % 256 < m.arg2 % 256) (hmore : 1 < m.arg2 % 256)
    (hnew : (s.ctxData m.ctx).mixing.find? (fun x => x.seq == m.arg1) = none) :
    Runs (.mixDistReceive m) s
      (s.setData m.ctx { s.ctxData m.ctx with
        mixing := (s.ctxData m.ctx).mixing.filter (fun x => x.seq != m.arg1) ++ [{
          seq := m.arg1, step := 0, total := m.arg2 % 256, frags := [(m.arg2 / 256 % 256, m.body)], record := none,
          entry := false, source := m.sender, qp := 0, acked := [], sentAt := 0, decided := none }] }) := by
  refine runs_act (execMixDistReceive.eq_def ..) hsafe ?_
  simp only [hrun]
  rw [if_neg (by simp [hkind, hindex]), hnew]
  exact if_pos hmore

/-- R400: 1 ms after the last time, the one undecided record goes again to the devices that have not acknowledged it. -/
theorem mixDistResend_completes {ctx : Fin 64} {p : MixPending} {r : RunRec} {s u : State} (hsafe : s.safe = false)
    (hrun : s.runOf ctx = some r)
    (hdue : (s.ctxData ctx).mixing.filter (fun p => p.entry && p.decided.isNone && p.sentAt + 1000000 ≤ s.dtime) = [p])
    (hu : u = s.mapMix ctx p.seq (fun p => { p with sentAt := s.dtime })) :
    Runs (.mixDistResend ctx) s
      (u.sendFragments ctx r.cfg.runId (p.record.getD []) p.seq
        (r.devices.filter (fun k => k != u.self && !p.acked.contains k))) := by
  refine runs_act (execMixDistResend.eq_def ..) hsafe ?_
  simp only [hrun, hdue, List.foldl_cons, List.foldl_nil]
  rw [← hu]

theorem mixAckReceive_completes {m : LanMsg} {r : RunRec} {s : State} (hsafe : s.safe = false) (hkind : m.kind = lkMIX_ACK)
    (hrun : s.runWithId m.ctx m.arg0 = some r) :
    Runs (.mixAckReceive m) s (s.mapMix m.ctx m.arg1 (fun p =>
      if p.entry then { p with acked := (p.acked ++ [m.sender]).eraseDups } else p)) :=
  runs_act (execMixAckReceive.eq_def ..) hsafe (if_neg (by simp [hkind, hrun]))

/-- R188: with every acknowledgement in before the record is late, the entry device decides OK and says so. -/
theorem mixDecide_completes {ctx : Fin 64} {p : MixPending} {r : RunRec} {s : State} (hsafe : s.safe = false)
    (hrun : s.runOf ctx = some r) (hopen : (s.ctxData ctx).mixing.find? (fun p => p.entry && p.decided.isNone) = some p)
    (htime : s.lastStep + r.cfg.pack.lead + 1 < p.step)
    (hacked : r.devices.all (fun k => k == s.self || p.acked.contains k) = true) :
    Runs (.mixDecide ctx) s
      ((s.mapMix ctx p.seq (fun p => { p with decided := some stOK })).toKeeper lkMIX_OUTCOME ctx r.cfg.runId p.seq
        stOK.toNat) := by
  refine runs_act (execMixDecide.eq_def ..) hsafe ?_
  simp only [hrun, hopen]
  rw [if_neg (by omega), if_pos hacked]

/-- R401: a fixed outcome is acknowledged, relayed by an active keeper, and applied. -/
theorem mixOutcomeReceive_completes {m : LanMsg} {s u : State} (hsafe : s.safe = false) (hkind : m.kind = lkMIX_OUTCOME)
    (hfixed : bitOf m.arg2 16 = true) (hu : u = s.ackMsg m) :
    Runs (.mixOutcomeReceive m) s
      ((if u.isActive then u.relayOutcome m.ctx m.arg0 m.arg1 m.arg2 else u).applyOutcome m.ctx m.arg1
        (BitVec.ofNat 16 m.arg2)) := by
  refine runs_act (execMixOutcomeReceive.eq_def ..) hsafe ?_
  rw [if_neg (not_not_intro hkind), if_pos hfixed, ← hu]

/-- Settles O23: each command passes its checks, which the lemmas above show clause by clause; the reports of a pod have
only the check of the message's kind, and CONTROL_RESEND has none. -/
theorem lanternRunsComplete : Obligations.LanternRunsComplete := by
  refine ⟨fun _ _ _ => legAbortReceive_completes, fun m s hsafe => ⟨?_, ?_, ?_⟩,
    fun _ _ _ _ _ => abortTimeout_completes, fun _ _ => stepCommitReceive_completes,
    fun _ _ _ _ _ => restart_completes, fun _ remaps _ _ => restartReceive_completes remaps,
    fun m o s hsafe hkind hfound hseal hmix => ?_, fun s hsafe => ?_,
    fun _ _ _ _ => journalCopy_completes, fun _ _ _ => journalCopyReceive_completes,
    fun _ _ => journalAckReceive_completes, fun _ _ _ _ _ _ _ => mixRecordExamine_completes,
    fun _ _ _ => mixDistReceive_completes, fun _ _ _ _ _ => mixDistResend_completes,
    fun _ _ _ => mixAckReceive_completes, fun _ _ _ _ => mixDecide_completes,
    fun _ _ _ => mixOutcomeReceive_completes⟩
  · exact fun hkind => runs_act (execAbortDoneReceive.eq_def ..) hsafe (if_pos hkind)
  · exact fun hkind => runs_act (execStepReportReceive.eq_def ..) hsafe (if_pos hkind)
  · exact fun hkind => runs_act (execSealMessageReceive.eq_def ..) hsafe (if_pos hkind)
  · exact ⟨_, controlAckReceive_completes hsafe hkind hfound hseal hmix, rfl, rfl⟩
  · exact runs_act (execControlResend.eq_def ..) hsafe rfl

end Sys2Proof.Machine
end

section
/-!
PROOFS. Row payloads (R205 to R208). Placing an item takes from a row's room what it adds in tokens, all of the run's ID
width, and stops at SEG_MAX segments; so the regions of Table 8.3 have the sizes that PAYLOAD_LEN adds up.
-/
namespace Sys2Proof.Machine

/-! ## Regions (Table 8.3) -/

theorem le_align64 (n : Nat) : n ≤ align64 n := by
  unfold align64 ceilDiv
  omega

theorem length_padTo {n : Nat} {b : Bytes} (h : b.length ≤ n) : (padTo n b).length = n := by
  simp [padTo, zeros, h]

theorem length_flatten_of_width {bs : List Bytes} {w : Nat} (h : ∀ b ∈ bs, b.length = w) :
    bs.flatten.length = bs.length * w := by
  rw [List.length_flatten, List.sum_eq_card_nsmul _ w (by simpa using h)]
  simp

/-! ## Items (R205) -/

/-- Every token of the item is an ID of w bytes. -/
def PackItem.HasWidth (w : Nat) (it : PackItem) : Prop := ∀ t ∈ it.tokens, t.length = w

theorem length_of_mem_cutTokens {w n : Nat} {b t : Bytes} (hlen : n * w ≤ b.length) (ht : t ∈ cutTokens w n b) :
    t.length = w := by
  induction n generalizing b with
  | zero => simp [cutTokens] at ht
  | succ n ih =>
    rw [Nat.succ_mul] at hlen
    rcases List.mem_cons.1 ht with rfl | htail
    · rw [List.length_take]
      omega
    · exact ih (by rw [List.length_drop]; omega) htail

theorem hasWidth_of_tokenItem {p : PackCfg} {w : Nat} {d : Prepared} {it : PackItem} (h : tokenItem p w d = some it) :
    it.HasWidth w := by
  cases d with
  | none => simp [tokenItem] at h
  | some b =>
    have hcut : ∀ n ≤ b.length / w, ∀ t ∈ cutTokens w n b, t.length = w := fun n hn t ht =>
      length_of_mem_cutTokens ((Nat.mul_le_mul_right w hn).trans (Nat.div_mul_le_self ..)) ht
    simp only [tokenItem] at h
    split_ifs at h with _ hlong
    · cases h
      exact hcut _ (by omega)
    · cases h
      exact hcut _ le_rfl

/-! ## Filling a row (R206) -/

def tokenCount (segs : List Segment) : Nat := (segs.map (fun g => g.tokens.length)).sum

/-- The segments of a row and its room hold ROW_TOKENS tokens of w bytes, in at most SEG_MAX segments. -/
structure SegsFit (p : PackCfg) (w : Nat) (segs : List Segment) (room : Nat) : Prop where
  count : tokenCount segs + room = p.rowTokens
  width : ∀ g ∈ segs, ∀ t ∈ g.tokens, t.length = w
  most : segs.length ≤ p.segMax

theorem segsFit_nil (p : PackCfg) (w : Nat) : SegsFit p w [] p.rowTokens :=
  ⟨by simp [tokenCount], by simp, by simp⟩

/-- Below SEG_MAX segments, tokens that the room holds may follow as one more segment. -/
theorem SegsFit.place {p : PackCfg} {w room n : Nat} {segs : List Segment} {g : Segment} (h : SegsFit p w segs room)
    (hmore : segs.length ≠ p.segMax) (hroom : n ≤ room) (hlen : g.tokens.length = n)
    (hwidth : ∀ t ∈ g.tokens, t.length = w) : SegsFit p w (segs ++ [g]) (room - n) := by
  obtain ⟨hcount, hsegs, hmost⟩ := h
  refine ⟨?_, ?_, ?_⟩
  · simp only [tokenCount, List.map_append, List.sum_append, List.map_singleton, List.sum_singleton] at hcount ⊢
    omega
  · exact List.forall_mem_append.2 ⟨hsegs, List.forall_mem_singleton.2 hwidth⟩
  · rw [List.length_append, List.length_singleton]
    omega

/-- A row being filled: its segments fit, and what it leaves in the queue has the run's ID width. -/
structure RowFill.Fits (p : PackCfg) (w : Nat) (f : RowFill) : Prop where
  segs : SegsFit p w f.segs f.room
  queue : ∀ it ∈ f.queue, it.HasWidth w

/-- R206: in each of its four cases the loop's step places at most what the room holds, or leaves the row as it is. -/
theorem fillItem_fits {p : PackCfg} {w : Nat} {f : RowFill} {it : PackItem} (hf : f.Fits p w) (hit : it.HasWidth w) :
    (fillItem p f it).Fits p w := by
  obtain ⟨hsegs, hqueue⟩ := hf
  have hpart : ∀ n, ∀ t ∈ (it.tokens.drop it.start).take n, t.length = w := fun n t ht =>
    hit t (List.mem_of_mem_drop (List.mem_of_mem_take ht))
  have hlater : ∀ start, ∀ x ∈ f.queue ++ [⟨it.tokens, start, true⟩], x.HasWidth w := fun _ =>
    List.forall_mem_append.2 ⟨hqueue, List.forall_mem_singleton.2 hit⟩
  unfold fillItem
  dsimp only
  split_ifs with hfull hwhole
  · exact ⟨hsegs, hlater _⟩
  · exact ⟨hsegs.place hfull hwhole (by simp) (hpart _), hqueue⟩
  · have hlen : ((it.tokens.drop it.start).take f.room).length = f.room := by
      rw [List.length_take, List.length_drop]
      omega
    exact ⟨Nat.sub_self f.room ▸ hsegs.place hfull le_rfl hlen (hpart _), hlater _⟩
  · exact ⟨hsegs, hlater _⟩

theorem foldl_fillItem_fits {p : PackCfg} {w : Nat} {f : RowFill} {its : List PackItem} (hf : f.Fits p w)
    (hits : ∀ it ∈ its, it.HasWidth w) : (its.foldl (fillItem p) f).Fits p w :=
  List.foldlRecOn its (fillItem p) hf fun _ hf it hit => fillItem_fits hf (hits it hit)

theorem fillRows_fits {p : PackCfg} {w : Nat} {own : List (List PackItem × Nat)} {q : List PackItem}
    (hown : ∀ o ∈ own, ∀ it ∈ o.1, it.HasWidth w) (hq : ∀ it ∈ q, it.HasWidth w) :
    ∀ r ∈ (fillRows p own q).1, SegsFit p w r.segs r.room := by
  induction own generalizing q with
  | nil => simp [fillRows]
  | cons o rest ih =>
    obtain ⟨hfirst, hrest⟩ := List.forall_mem_cons.1 hown
    have hfill := foldl_fillItem_fits (f := ⟨[], p.rowTokens, [], false, false⟩) ⟨segsFit_nil p w, by simp⟩
      (List.forall_mem_append.2 ⟨hq, hfirst⟩)
    exact List.forall_mem_cons.2 ⟨hfill.segs, ih hrest hfill.queue⟩

/-! ## The payload of a row (R207, R208) -/

/-- Bytes laid out segment by segment, k for each token. -/
theorem length_flatten_perToken {α : Type} {xs : List α} {seg : α → Segment} {f : α → Bytes} {k : Nat}
    (h : ∀ x ∈ xs, (f x).length = (seg x).tokens.length * k) :
    (xs.map f).flatten.length = tokenCount (xs.map seg) * k := by
  have hmap : xs.map (fun x => (f x).length) = xs.map (fun x => (seg x).tokens.length * k) := List.map_congr_left h
  rw [List.length_flatten, tokenCount, List.map_map, List.map_map, ← List.sum_map_mul_right]
  exact congrArg List.sum hmap

theorem map_snd_numbered {α : Type} (xs : List α) : (numbered xs).map (·.2) = xs :=
  List.map_snd_zip (by simp)

theorem length_segStarts (segs : List Segment) (a : Nat) : (segStarts segs a).length = segs.length := by
  induction segs generalizing a with
  | nil => rfl
  | cons g gs ih => simp [segStarts, ih]

theorem length_tokenRegion {p : PackCfg} {w : Nat} {r : PackedRow} (h : SegsFit p w r.segs r.room) :
    (tokenRegion p w r).length = align64 (p.rowTokens * w) := by
  have htokens := length_flatten_perToken (seg := id) (f := fun g => g.tokens.flatten) (k := w)
    fun g hg => length_flatten_of_width (h.width g hg)
  have hpad := length_flatten_of_width (bs := List.replicate r.room (toLE w p.padId)) (w := w) (by simp)
  refine length_padTo (le_trans (le_of_eq ?_) (le_align64 _))
  rw [List.length_append, htokens, hpad, List.map_id, List.length_replicate, ← add_mul, h.count]

/-- LAYOUT 0: a segment number and a position for each token, in regions for ROW_TOKENS of them. -/
theorem length_tokenPayload_marks {p : PackCfg} {w : Nat} {r : PackedRow} (hlayout : p.layout = 0)
    (h : SegsFit p w r.segs r.room) : (tokenPayload p w r).length = p.payloadLen w := by
  have hused : tokenCount r.segs ≤ p.rowTokens := by
    have := h.count
    omega
  have hids := length_flatten_perToken (xs := numbered r.segs) (seg := (·.2))
    (f := fun e => (List.replicate e.2.tokens.length (toLE 2 (e.1 + 1))).flatten) (k := 2)
    fun e _ => by simp
  have hpos := length_flatten_perToken (xs := r.segs) (seg := id)
    (f := fun g => ((List.range g.tokens.length).map (fun i => toLE 4 (g.start + i))).flatten) (k := 4)
    fun g _ => by simp [Function.comp_def]
  rw [map_snd_numbered] at hids
  rw [List.map_id] at hpos
  have hidsRegion := length_padTo (hids.le.trans ((Nat.mul_le_mul_right 2 hused).trans (le_align64 _)))
  have hposRegion := length_padTo (hpos.le.trans (Nat.mul_le_mul_right 4 hused))
  simp only [tokenPayload, PackCfg.payloadLen, hlayout, if_true, List.length_append, length_tokenRegion h, hidsRegion,
    hposRegion]

/-- LAYOUT 1: SEG_MAX + 1 offsets of 4 bytes. -/
theorem length_tokenPayload_offsets {p : PackCfg} {w : Nat} {r : PackedRow} (hlayout : p.layout = 1)
    (h : SegsFit p w r.segs r.room) : (tokenPayload p w r).length = p.payloadLen w := by
  have hmost := h.most
  have hoffsets : ∀ used, ((segStarts r.segs 0 ++
      List.replicate (p.segMax + 1 - (segStarts r.segs 0).length) used).map (toLE 4)).flatten.length = (p.segMax + 1) * 4 := by
    intro used
    rw [length_flatten_of_width (List.forall_mem_map.2 fun n _ => length_toLE 4 n), List.length_map, List.length_append,
      List.length_replicate, length_segStarts]
    congr 1
    omega
  simp only [tokenPayload, PackCfg.payloadLen, hlayout, one_ne_zero, if_false, List.length_append, length_tokenRegion h,
    hoffsets]

/-- LAYOUT 2: an entry of ENTRY_BYTES for each place, admitted or not, and one bit. -/
theorem length_tensorPayload {p : PackCfg} {entries : List Prepared} (hlayout : p.layout = 2) (w : Nat)
    (hplaces : entries.length ≤ p.q) : (tensorPayload p entries).length = p.payloadLen w := by
  unfold tensorPayload
  dsimp only
  rw [List.length_append, length_padTo]
  · simp [PackCfg.payloadLen, hlayout]
  · rw [length_flatten_of_width (w := p.entryBytes), List.length_map]
    · exact (Nat.mul_le_mul_right _ hplaces).trans (le_align64 _)
    · intro b hb
      obtain ⟨d, -, rfl⟩ := List.mem_map.1 hb
      cases d with
      | none => simp [zeros]
      | some x =>
        dsimp only
        split_ifs with hx
        · exact hx
        · simp [zeros]

/-! ## The rows of a group -/

theorem packGroup_tensor_payload {p : PackCfg} {w step u consumer first : Nat} {ds : List Prepared} {row : Bytes × Bytes}
    (hlayout : p.layout = 2) (hrow : row ∈ packGroup p w step u consumer first ds) :
    ∃ r, row.2 = tensorPayload p (rowPlaces p ds r) := by
  rw [packGroup, if_pos hlayout] at hrow
  obtain ⟨r, -, rfl⟩ := List.mem_map.1 hrow
  exact ⟨r, rfl⟩

theorem packGroup_token_payload {p : PackCfg} {w step u consumer first : Nat} {ds : List Prepared} {row : Bytes × Bytes}
    (hlayout : p.layout ≠ 2) (hrow : row ∈ packGroup p w step u consumer first ds) :
    ∃ r, SegsFit p w r.segs r.room ∧ row.2 = tokenPayload p w r := by
  rw [packGroup, if_neg hlayout] at hrow
  obtain ⟨⟨i, r⟩, hmem, rfl⟩ := List.mem_map.1 hrow
  refine ⟨r, fillRows_fits (q := []) ?_ (by simp) r (List.of_mem_zip hmem).2, rfl⟩
  intro o ho it hit
  obtain ⟨i, -, rfl⟩ := List.mem_map.1 ho
  obtain ⟨d, -, hd⟩ := by simpa using hit
  exact hasWidth_of_tokenItem hd

/-- Settles O56: layout by layout; rows of tokens by the invariant of the packer's loop, rows of tensors because a row has
at most Q places. -/
theorem rowPayloadsHaveOneLength : Obligations.RowPayloadsHaveOneLength := by
  intro p w step u consumer first ds hlayout _ _ row hrow
  by_cases htensor : p.layout = 2
  · obtain ⟨r, hr⟩ := packGroup_tensor_payload htensor hrow
    rw [hr]
    exact length_tensorPayload htensor w (List.length_take_le ..)
  · obtain ⟨r, hfits, hr⟩ := packGroup_token_payload htensor hrow
    rw [hr]
    by_cases hmarks : p.layout = 0
    · exact length_tokenPayload_marks hmarks hfits
    · exact length_tokenPayload_offsets (by omega) hfits

end Sys2Proof.Machine
end

section
/-!
PROOFS. Step time (R218 to R238), the Logbook set of a step (R341), the packer (R204), the exchange (R200) and the delivery of
rows (R212 to R216): each command under its conditions takes the branch that its rule names.
-/
namespace Sys2Proof.Machine

/-! ## Step time (R218, R221, R230, R238) -/

/-- R218: a well-formed beacon enters the timeline. -/
theorem beaconExamine_completes {m : RxDone} {b : Bytes} {s u : State} (hsafe : s.safe = false)
    (htake : s.takeMessage 0 none = some (m, u)) (hb : b = u.winBytes 0 0 (m.addr / 64 * 64) 64)
    (hformat : u.beaconFormatOk b (m.addr / 512) = true) : Runs .beaconExamine s (u.onBeacon (readBeacon b)) := by
  subst hb
  refine runs_act (execBeaconExamine.eq_def ..) hsafe ?_
  simp only [htake, hformat]
  rfl

/-- R221: a step whose beacon has not come by the end of GRACE is extrapolated, or step time holds. -/
theorem stepExtrapolate_completes {last t : Nat} {n : Nat × Nat} {s : State} (hsafe : s.safe = false)
    (hlast : last = s.fld fSTEP_LAST_STEP) (hlive : s.timeline = tlLOCKED ∨ s.timeline = tlEXTRAPOLATING)
    (hstart : s.startOf (last + 1) = some t) (hnewest : s.newest = some n) (hdue : t + s.grace ≤ s.dtime) :
    Runs .stepExtrapolate s (if last - n.1 < s.fld fSTEP_CFG_EXTRAP_MAX then
      (s.extrapolated (last - n.1 + 1)).changeover (last + 1) else s.holdTime) := by
  refine runs_act (execStepExtrapolate.eq_def ..) hsafe ?_
  dsimp only
  rw [← hlast]
  simp only [hstart, hnewest]
  exact if_neg (by simp [hlive, hdue])

/-- R238: the first deadline that an unstamped row misses, with LATE_LIMIT steps still to go, is STEP_LATE. -/
theorem stepDeadlineCheck_late {ctx : Fin 64} {step : Nat} {r : RunRec} {s : State} (hsafe : s.safe = false)
    (hrun : s.runOf ctx = some r) (hgoing : s.timeline ≠ tlPAUSED) (hexempt : r.exempt < step)
    (hunstamped : r.unstamped step = true) (hpassed : s.passed step = true) (hlimit : s.fld fSTEP_CFG_LATE_LIMIT ≠ 0)
    (hfirst : r.late.contains step = false) (hbefore : s.passed (step + s.fld fSTEP_CFG_LATE_LIMIT) = false) :
    Runs (.stepDeadlineCheck ctx step) s
      ((s.mapRun ctx (fun r => { r with late := r.late ++ [step] })).raise srcGATE stSTEP_LATE 0 ctx .f0) := by
  have hchecked : ¬ (s.timeline = tlPAUSED ∨ step ≤ r.exempt ∨ !r.unstamped step ∨ !s.passed step) := by
    simp [hgoing, hexempt, hunstamped, hpassed]
  have hlate : ¬ (s.fld fSTEP_CFG_LATE_LIMIT = 0 ∨ r.late.contains step) := by
    simp [hlimit, hfirst, -List.contains_eq_mem]
  refine runs_act (execStepDeadlineCheck.eq_def ..) hsafe ?_
  simp only [hrun]
  rw [if_neg hchecked, if_neg hlate, if_neg (by simp [hbefore])]

theorem pausedStepEnd_completes {s : State} (hsafe : s.safe = false) (hpaused : s.timeline = tlPAUSED)
    (hungated : s.ungated = true) : Runs .pausedStepEnd s s.enterUngated :=
  runs_act (execPausedStepEnd.eq_def ..) hsafe (if_pos ⟨hpaused, hungated⟩)

/-! ## The packer (R204) -/

/-- R204: a group whose peg stands at the expected count and whose positions are all ready is packed. -/
theorem packerStart_completes {ctx : Fin 64} {step consumer grp n : Nat} {r : RunRec} {g : GroupRec}
    {checks : List PosCheck} {s u : State} (hsafe : s.safe = false) (hu : u = s.queueArrived ctx)
    (hrun : u.runOf ctx = some r)
    (hgroup : r.groups.find? (fun g => g.step == step && g.consumer == consumer && g.grp == grp) = some g)
    (hsound : g.failed = false) (hnew : g.packed = false) (hn : n = r.cfg.pack.group * r.cfg.pack.q)
    (hcount : ((u.peg ctx (r.cfg.groupPeg (step - r.cfg.firstStep) g.ordinal)).map (·.value)).getD 0 = n)
    (hchecks : checks = (List.range n).map (u.checkPos ctx r g)) (hready : ∀ e ∈ checks, ∃ d h, e = .ready d h) :
    Runs (.packerStart ctx step consumer grp .agrees) s
      (u.packRows ctx r g (checks.map PosCheck.row) (checks.map PosCheck.handles).flatten) := by
  have hnone : ∀ x : PosCheck, (∀ d h, x ≠ .ready d h) → checks.any (fun e => decide (e = x)) = false := by
    intro x hx
    refine List.any_eq_false.2 fun e he => ?_
    obtain ⟨d, h, rfl⟩ := hready e he
    simpa using (hx d h).symm
  refine runs_act (execPackerStart.eq_def ctx step consumer grp .agrees s) hsafe ?_
  dsimp only
  rw [← hu]
  simp only [hrun, hgroup]
  rw [← hn, hcount, ← hchecks, if_neg (by simp [hsound]), if_neg (by simp [hnew]), if_neg (lt_irrefl n),
    if_neg (lt_irrefl n), if_neg (by simp [hnone]), if_neg (by simp [hnone]), if_neg (by simp [hnone])]
/-! ## The exchange (R200) -/

theorem exchangeSend_item {ctx : Fin 64} {id : Nat} {d : DoneItem} {r : RunRec} {s : State} (hsafe : s.safe = false)
    (hrun : s.runOf ctx = some r)
    (hitem : s.work.returned.find? (fun d => d.item.ctx == ctx.val && d.item.id == id && !d.item.ownerSite) = some d) :
    Runs (.exchangeSend (.item ctx id)) s (s.sendExchange r d) := by
  refine runs_act (execExchangeSend.eq_def (.item ctx id) s) hsafe ?_
  simp only [hitem, hrun]

/-- R200: a SEND call hands the tile's chain to EXCHANGE. -/
theorem exchangeSend_call {tile : Fin 96} {handle num : Nat} {ch : Chain} {c : Call} {s : State}
    (h : Called s tile 0x13 1 c) (hchain : s.findChain (s.tileCtx tile) handle (some (agTILE, tile.val)) = .ok (num, ch)) :
    Runs (.exchangeSend (.call tile handle)) s ((s.giveTo handle agEXCHANGE).completeCall tile c 0 stOK) := by
  refine runs_act (execExchangeSend.eq_def (.call tile handle) s) h.1 ?_
  dsimp only
  rw [onCall_called h]
  simp only [hchain]

/-! ## Credit (R212) -/

/-- R212: a row beyond what was asked for makes the owner read the credit word. -/
theorem creditRead_completes {ctx : Fin 64} {consumer : Nat} {r : RunRec} {s : State} (hsafe : s.safe = false)
    (hrun : s.runOf ctx = some r) (hidle : (r.credit consumer).reading = false)
    (hbeyond : (r.blocked consumer).any (fun w => (r.credit consumer).asked ≤ w.seq) = true) :
    Runs (.creditRead ctx consumer) s (s.readCredit ctx r consumer) := by
  refine runs_act (execCreditRead.eq_def ..) hsafe ?_
  simp only [hrun]
  exact if_pos (by rw [hidle, hbeyond]; rfl)

/-- R212: while rows are blocked, the credit word is read again after CREDIT_POLL. -/
theorem creditPollTimer_completes {ctx : Fin 64} {consumer : Nat} {r : RunRec} {s : State} (hsafe : s.safe = false)
    (hrun : s.runOf ctx = some r) (hidle : (r.credit consumer).reading = false) (hblocked : r.blocked consumer ≠ [])
    (hasked : 0 < (r.credit consumer).asked) (hdue : (r.credit consumer).readAt + r.cfg.pack.creditPoll ≤ s.dtime) :
    Runs (.creditPollTimer ctx consumer) s (s.readCredit ctx r consumer) := by
  refine runs_act (execCreditPollTimer.eq_def ..) hsafe ?_
  simp only [hrun]
  exact if_pos (by simp [hidle, hblocked, hasked, hdue])

/-! ## Rows on their way (R213) -/

theorem State.onRow_found {ctx step consumer row : Nat} {r : RunRec} {w : RowRec} {s : State} (hrun : s.runOf ctx = some r)
    (hrow : r.rows.find? (fun w => w.step == step && w.consumer == consumer && w.row == row) = some w)
    (body : RunRec → RowRec → State) : s.onRow ctx step consumer row body = body r w := by
  simp only [State.onRow, hrun, hrow]

/-- A command on a row of the run completes with its body's effect. -/
theorem runs_row {i : Instr} {s t : State} {ctx step consumer row : Nat} {r : RunRec} {w : RowRec}
    {body : State → RunRec → RowRec → State} (he : exec i s = act s (fun s => s.onRow ctx step consumer row (body s)))
    (hsafe : s.safe = false) (hrun : s.runOf ctx = some r)
    (hrow : r.rows.find? (fun w => w.step == step && w.consumer == consumer && w.row == row) = some w)
    (ht : body s r w = t) : Runs i s t :=
  runs_act he hsafe (by rw [State.onRow_found hrun hrow, ht])

/-! ## Stamped steps (R216) -/

/-- R216: a planned step of a run that goes on, every row of it stamped, is reported to the keeper once. -/
theorem stepStampedReport_completes {ctx : Fin 64} {step : Nat} {r : RunRec} {s : State} (hsafe : s.safe = false)
    (hrun : s.runOf ctx = some r) (hgoes : r.aborted = none) (hopen : r.nextCommit ≤ step) (hplanned : step < r.nextPlan)
    (hfirst : r.reported.contains step = false) (hstamped : r.unstamped step = false) :
    Runs (.stepStampedReport ctx step) s ((s.stepDone ctx r step).toKeeper lkSTEP_REPORT ctx r.cfg.runId step 0) := by
  have hdue : ¬ (r.aborted.isSome ∨ step < r.nextCommit ∨ r.nextPlan ≤ step ∨ r.reported.contains step
      ∨ r.unstamped step) := by
    simp [hgoes, hopen, hplanned, hfirst, hstamped, -List.contains_eq_mem]
  refine runs_act (execStepStampedReport.eq_def ..) hsafe ?_
  simp only [hrun]
  exact if_neg hdue

/-- Settles O19: each command passes its checks, which the lemmas above show clause by clause; LOGBOOK_SET_WRITE has its
check within the write, and the three writes of a row differ in the phase they ask for. -/
theorem stepsAndDeliveryComplete : Obligations.StepsAndDeliveryComplete := by
  refine ⟨fun _ _ _ _ => beaconExamine_completes, fun _ _ _ _ => stepExtrapolate_completes, ?_,
    fun _ _ _ _ => stepDeadlineCheck_late, fun _ => pausedStepEnd_completes, ?_, ?_,
    fun _ _ _ _ _ _ => exchangeSend_call, fun _ _ _ _ => creditRead_completes,
    fun _ _ _ _ => creditPollTimer_completes, ?_, fun _ _ _ _ => stepStampedReport_completes⟩
  · intro ctx r s hsafe _ _
    exact runs_act (execLogbookSetWrite.eq_def ..) hsafe rfl
  · rintro ctx step consumer grp n r g checks _ _ s u hsafe hu hrun hgroup hsound hnew hn hcount hchecks hready rfl rfl
    exact packerStart_completes hsafe hu hrun hgroup hsound hnew hn hcount hchecks hready
  · rintro _ ctx id d r s hsafe rfl hrun hitem
    exact exchangeSend_item hsafe hrun hitem
  · intro ctx step consumer row r w s hsafe hrun hrow
    refine ⟨fun hpacked hcredit => ?_, fun hphase hpend => ?_, fun hphase hpend => ?_⟩
    · exact runs_row (execRowPayloadWrite.eq_def ..) hsafe hrun hrow (if_neg (by simp [hpacked, hcredit]))
    · exact runs_row (execRowHeaderWrite.eq_def ..) hsafe hrun hrow (if_pos ⟨hphase, hpend⟩)
    · exact runs_row (execRowStampWrite.eq_def ..) hsafe hrun hrow (if_pos ⟨hphase, hpend⟩)

end Sys2Proof.Machine
end

section
/-!
PROOFS. Configuration transactions (R241, R352, R438, R439): a request that finds its transaction in the state that its rule
asks for passes every check.
-/
namespace Sys2Proof.Machine

@[simp] theorem taken_txnsOf (s : State) (r : HostReq) (c : Nat) : (s.taken r).txnsOf c = s.txnsOf c := rfl
@[simp] theorem taken_openTxn (s : State) (r : HostReq) (c : Nat) : (s.taken r).openTxn c = s.openTxn c := rfl
@[simp] theorem taken_lastNum (s : State) (r : HostReq) : (s.taken r).host.lastNum = s.host.lastNum := rfl

/-- A descriptor that an open transaction has room for joins it (R439). -/
theorem State.stage_room {s : State} {c : Nat} {x : Txn} (hopen : s.openTxn c = some x) (hroom : x.staged < 64)
    (item : TxnItem) :
    s.stage c item = (stOK, s.setTxns c ((s.txnsOf c).map (fun t => if t.isOpen then
      { x with staged := x.staged + 1, items := x.items ++ [item] } else t))) := by
  simp only [State.stage, hopen, if_pos hroom]

section
variable {s : State} {ctx : Fin 64} {sq : Fin 256} {r : HostReq}

/-- R438: with no transaction open, a NUM above the last committed one opens one. -/
theorem txnBegin_completes (h : Asked s ctx sq 0x38 r) (hargs : allZero (r.args.drop 4) = true)
    (hnone : s.openTxn ctx = none) (habove : ∀ n, Map.find s.host.lastNum ctx = some n → n < fieldAt r.args 0 4) :
    Runs (.txnBegin ctx sq) s
      (((s.taken r).setTxns ctx (s.txnsOf ctx ++ [{
        num := fieldAt r.args 0 4, eff := r.effStep, state := .open_, marked := false, staged := 0, items := [] }])).answer r
          stOK) := by
  refine runs_asked (execTxnBegin.eq_def ..) h ?_
  cases hlast : Map.find s.host.lastNum ctx with
  | none => simp [hargs, hnone, hlast]
  | some n => simp [hargs, hnone, hlast, habove n hlast]

/-- R439: a commit that the device accepts answers the step that it resolved and the transaction's NUM. -/
theorem txnCommit_accepted {x : Txn} {e : Nat} {t : State} (h : Asked s ctx sq 0x39 r) (hopen : s.openTxn ctx = some x)
    (hcommit : ((s.taken r).dropOpen ctx).commitTxn ctx x = .ok (e, t)) :
    Runs (.txnCommit ctx sq) s (t.finish r stOK e x.num) := by
  refine runs_asked (execTxnCommit.eq_def ..) h ?_
  simp only [taken_openTxn, hopen, hcommit]

theorem txnRollback_completes (h : Asked s ctx sq 0x3A r) (hopen : s.openTxn ctx ≠ none) :
    Runs (.txnRollback ctx sq) s (((s.taken r).dropOpen ctx).answer r stOK) :=
  runs_asked (execTxnRollback.eq_def ..) h (if_neg (by simp [hopen]))

/-- R438: a transaction that is not fixed yet leaves the list, and what its commit reserved is released. -/
theorem txnCancel_completes {num : Nat} {x : Txn} (h : Asked s ctx sq 0x3B r)
    (hfound : (s.txnsOf ctx).find? (fun t => !t.isOpen && t.num == num) = some x) (hstate : x.state ≠ .fixed) :
    Runs (.txnCancel ctx sq num) s
      ((((s.taken r).setTxns ctx ((s.txnsOf ctx).erase x)).releaseTxn ctx x).answer r stOK) := by
  refine runs_asked (execTxnCancel.eq_def ..) h ?_
  simp only [taken_txnsOf, hfound, if_neg hstate]

end

/-- R352: a share record of whole shaper entries is staged in CTX0's open transaction. -/
theorem share_completes {s : State} {sq : Fin 256} {r : HostReq} {buf : Bytes} {x : Txn} (h : Asked s 0 sq 0x40 r)
    (hlong : 64 ≤ buf.length) (hwhole : buf.length % 8 = 0) (hlen : buf.length = r.len) (hopen : s.openTxn 0 = some x)
    (hroom : x.staged < 64) :
    Runs (.share sq buf) s
      (((s.taken r).setTxns 0 ((s.txnsOf 0).map (fun t => if t.isOpen then
        { x with staged := x.staged + 1, items := x.items ++ [.share buf] } else t))).answer r stOK) := by
  have hformed : ¬ (buf.length < 64 ∨ buf.length % 8 ≠ 0 ∨ buf.length ≠ r.len) := by omega
  have hopen' : (s.taken r).openTxn 0 = some x := hopen
  refine runs_asked (execShare.eq_def ..) h ?_
  rw [if_neg hformed, State.stage_room hopen' hroom]
  rfl

/-- Settles O11: each request passes its checks, which the lemmas above show one by one; TXN_APPLY has none. -/
theorem transactionsComplete : Obligations.TransactionsComplete :=
  ⟨fun _ _ _ _ => txnBegin_completes, fun _ _ _ _ _ _ _ => txnCommit_accepted, fun _ _ _ _ => txnRollback_completes,
    fun _ _ _ _ _ _ => txnCancel_completes, fun _ _ hsafe => runs_act (execTxnApply.eq_def ..) hsafe rfl,
    fun _ _ _ _ _ => share_completes⟩

end Sys2Proof.Machine
end

section
/-!
PROOFS. Gates (R228 to R235), frames and links (R244 to R248), and the packets and timers of the RoCEv2 engine (R250 to R261):
each command under its conditions takes the branch that its rule names.
-/
namespace Sys2Proof.Machine

/-! ## Time and gates (R228 to R235) -/

section
variable {port : Fin 32} {sub : Fin 4} {s : State}

/-- R228: a sync message that the servo accepts moves it. -/
theorem ptpMessage_sync {offset : Int} {interval : Nat} {f : RxFrame} {u : State} (hsafe : s.safe = false)
    (hgroup : s.groupSwitches port = false) (htake : s.takeRx port sub (· == .ptp) = some (f, u)) :
    Runs (.ptpMessage port sub (some (offset, interval))) s (u.servo offset interval) := by
  refine runs_act (execPtpMessage.eq_def port sub (some (offset, interval)) s) hsafe ?_
  simp [hgroup, htake]

/-- A gate entry opens within its effective gate, when that is 2G long at least and the subport has no gate open (R231). -/
theorem State.openGate_opens {entry : Nat} {e : GateEntry} {x o c eo ec : Nat} (hentry : s.gateEntry entry = some e)
    (hstep : s.gateStep = some x) (hnominal : s.nominalGate e x = some (o, c))
    (heffective : s.effectiveGate e x = some (eo, ec)) (hport : bitOf e.ports port = true) (ho : o ≤ s.dtime)
    (hc : s.dtime < c) (hskip : s.net.skipped.contains (subKey port sub, entry, x) = false)
    (hclosed : Map.has s.net.gates (subKey port sub) = false) (hlong : 2 * s.guard port ≤ ec - eo) (heo : eo ≤ s.dtime)
    (hec : s.dtime < ec) (htime : s.fld fSTEP_STATUS_TIME ≠ 2) :
    s.openGate port sub entry =
      (s.setGates (Map.put s.net.gates (subKey port sub)
        { entry := entry, cls := e.cls, step := x, close := ec, lastStart := ec - s.guard port })).zeroShapers port sub
          e.cls := by
  have hnow : (!bitOf e.ports port || s.dtime < o || c ≤ s.dtime
      || s.net.skipped.contains (subKey port sub, entry, x) || Map.has s.net.gates (subKey port sub)) = false := by
    simp [hport, ho, hc, hskip, hclosed, -List.contains_eq_mem]
  have hwithin : ¬ (s.dtime < eo ∨ ec ≤ s.dtime) := by omega
  unfold State.openGate
  simp only [hentry, hstep, hnominal]
  rw [hnow]
  simp only [heffective]
  rw [if_neg (by simp), if_neg (Nat.not_lt.2 hlong), if_neg hwithin, if_neg (fun h => htime h.2)]

/-- R231: while the timeline lets gates open, the command has the entry open on a present subport, or be skipped. -/
theorem gateOpen_running {entry : Fin 32} (hsafe : s.safe = false) (hrun : s.gatesRun = true)
    (hpresent : s.subPresent port sub = true) : Runs (.gateOpen port sub entry) s (s.openGate port sub entry) :=
  runs_act (execGateOpen.eq_def ..) hsafe (if_pos (by simp [hrun, hpresent]))

theorem gateClose_completes {g : OpenGate} (hsafe : s.safe = false)
    (hgate : Map.find s.net.gates (subKey port sub) = some g) (hdue : g.close ≤ s.dtime) :
    Runs (.gateClose port sub) s ((s.setGates (Map.del s.net.gates (subKey port sub))).zeroShapers port sub g.cls) := by
  refine runs_act (execGateClose.eq_def ..) hsafe ?_
  simp only [hgate]
  exact if_neg (Nat.not_lt.2 hdue)

/-! ## Frames and queue telemetry (R230, R235) -/

theorem frameStart_completes {f : EgFrame} (hsafe : s.safe = false) (hpresent : s.subPresent port sub = true)
    (hlink : s.linkUp port sub = true) (hidle : Map.getD s.net.busyUntil (subKey port sub) 0 ≤ s.dtime)
    (hnext : s.nextFrame port sub = some f) : Runs (.frameStart port sub) s (s.startFrame port sub f) := by
  refine runs_act (execFrameStart.eq_def ..) hsafe ?_
  simp [hpresent, hlink, hidle, hnext]

theorem queueSample_completes (hsafe : s.safe = false) (hpresent : s.portPresent port = true)
    (hdue : Map.getD s.net.sampledAt port 0 + s.sampleNs ≤ s.dtime) : Runs (.queueSample port) s (s.samplePort port) :=
  runs_act (execQueueSample.eq_def ..) hsafe (if_neg (by simp [hpresent, hdue]))

/-- R235: at the predicted end of the last step its summary is written once. -/
theorem queueSummary_completes {t : Nat} (hsafe : s.safe = false)
    (hend : s.startOf (s.fld fSTEP_LAST_STEP + 1) = some t) (hdue : t ≤ s.dtime)
    (hfirst : Map.find s.net.summarised port ≠ some (s.fld fSTEP_LAST_STEP)) :
    Runs (.queueSummary port) s (s.summarise port (s.fld fSTEP_LAST_STEP)) := by
  refine runs_act (execQueueSummary.eq_def ..) hsafe ?_
  simp only [hend]
  exact if_neg (by simp [hdue, hfirst])

/-! ## Subports: frames received, PFC, MKA, links (R244 to R248) -/

section
variable {tag : Option (Nat × Bool)} {body : RxBody} (hsafe : s.safe = false) (hpresent : s.subPresent port sub = true)
  (hlink : s.linkUp port sub = true)
include hsafe hpresent hlink

theorem frameReceive_valid : Runs (.frameReceive port sub .valid tag body) s (s.classify port sub tag body) :=
  runs_act (execFrameReceive.eq_def port sub .valid tag body s) hsafe (if_neg (by simp [hpresent, hlink]))

/-- R247: a frame without MACsec is classified while the channel is not SECURED. -/
theorem frameReceive_plain (hmacsec : s.macsec port sub ≠ 2) :
    Runs (.frameReceive port sub .plain tag body) s (s.classify port sub tag body) := by
  refine runs_act (execFrameReceive.eq_def port sub .plain tag body s) hsafe ?_
  rw [if_neg (by simp [hpresent, hlink])]
  exact if_neg (fun h => hmacsec h.1)

theorem frameReceive_invalid : Runs (.frameReceive port sub .invalid tag body) s (s.macsecDrop port sub) :=
  runs_act (execFrameReceive.eq_def port sub .invalid tag body s) hsafe (if_neg (by simp [hpresent, hlink]))

end

/-- R246: a PFC frame for the PCP of TC0 pauses TC0 for its time, or ends the pause with a time of 0. -/
theorem pfcFrame_honoured {pcp : Fin 8} {pause : Nat} {f : RxFrame} {u : State} (hsafe : s.safe = false)
    (htake : s.takeRx port sub RxBody.isPfc = some (f, u)) (hbody : f.body = .pfc pcp pause)
    (hon : u.fld (fNET_PORT_CFG_PFC_EN port) = 1) (hpcp : pcp.val = u.pcp0) :
    Runs (.pfcFrame port sub) s
      (u.setSub port sub { u.subState port sub with
        pausedUntil := if pause = 0 then none else some (u.dtime + pause) }) := by
  refine runs_act (execPfcFrame.eq_def ..) hsafe ?_
  simp only [htake, hbody]
  exact if_pos ⟨hon, hpcp⟩

theorem pfcPauseExpiry_completes {t : Nat} (hsafe : s.safe = false) (hpause : (s.subState port sub).pausedUntil = some t)
    (hdue : t ≤ s.dtime) :
    Runs (.pfcPauseExpiry port sub) s (s.setSub port sub { s.subState port sub with pausedUntil := none }) := by
  refine runs_act (execPfcPauseExpiry.eq_def ..) hsafe ?_
  simp only [hpause]
  exact if_pos hdue

/-- R374: with MACsec enabled and K_link held, an MKA frame moves the subport's channel as the exchange ended. -/
theorem mkaFrame_completes {outcome : MkaEnd} {f : RxFrame} {u : State} (hsafe : s.safe = false)
    (hgroup : s.groupSwitches port = false) (htake : s.takeRx port sub RxBody.isMka = some (f, u))
    (hon : u.fld (fNET_PORT_CFG_MACSEC_EN port) ≠ 0) (hkey : u.fld fSEC_STATUS_LINK_KEY ≠ 0) :
    Runs (.mkaFrame port sub outcome) s
      (u.setMacsec port sub (match outcome with | .pending => 1 | .secured => 2 | .failed => 3)) := by
  refine runs_act (execMkaFrame.eq_def ..) hsafe ?_
  rw [hgroup]
  simp only [Bool.false_eq_true, if_false, htake]
  exact if_neg (by simp [hon, hkey])

theorem linkDown_completes (hsafe : s.safe = false) (hpresent : s.subPresent port sub = true)
    (hlink : s.linkUp port sub = true) :
    Runs (.linkDown port sub) s
      (((s.unflag ((fNET_PORT_STATUS_LINK port).bit sub)).flag (fNET_PORT_ERR_LINK_DOWN port)).raise (srcPORT port)
        stNET_LINK_DOWN sub noCtx .f0) :=
  runs_act (execLinkDown.eq_def ..) hsafe (if_neg (by simp [hpresent, hlink]))

/-- R244, R374: a link that comes up takes the configured mode, its channel PENDING or NONE. -/
theorem linkUp_completes {u : State} (hsafe : s.safe = false) (hpresent : s.subPresent port sub = true)
    (hlink : s.linkUp port sub = false) (hboot : 4 ≤ s.mod.booted) (hgroup : s.groupSwitches port = false)
    (hu : u = (s.flag ((fNET_PORT_STATUS_LINK port).bit sub)).setFld (fNET_PORT_STATUS_MODE_ACTIVE port)
      (s.fld (fNET_PORT_CFG_MODE port))) :
    Runs (.linkUp port sub) s (u.setMacsec port sub
      (if u.fld (fNET_PORT_CFG_MACSEC_EN port) = 1 ∧ u.fld fSEC_STATUS_LINK_KEY = 1 then 1 else 0)) := by
  subst hu
  exact runs_act (execLinkUp.eq_def ..) hsafe (if_neg (by simp [hpresent, hlink, hboot, hgroup]))

/-! ## Packets (R250 to R257) -/

variable {i : Nat} {q : Qp} {u : State}

/-- R261: a WRITE packet with the expected PSN is checked against its window and placed. -/
theorem rdmaWriteReceive_inOrder {qpn psn : Nat} {last ar : Bool} {reth : Option (Nat × Nat × Nat)} {imm : Option Nat}
    {d : Bytes} (h : Arrived s port sub Pkt.isWrite (.write qpn psn last ar reth imm d) i q u)
    (horder : psnOrder q.ePsn psn = .inOrder) :
    Runs (.rdmaWriteReceive port sub) s (u.writeInOrder i q psn last ar reth imm d) := by
  refine runs_packet (execRdmaWriteReceive.eq_def ..) h ?_
  simp only [horder]

/-- R257: a READ request with the expected PSN, within the READs that the queue pair may hold and its window, is answered with
the handle's bytes. -/
theorem rdmaReadRequestReceive_inOrder {qpn psn addr key len handle : Nat} {q' : Qp} {w : Window}
    (h : Arrived s port sub Pkt.isReadReq (.readReq qpn psn addr key len) i q u)
    (horder : psnOrder q.ePsn psn = .inOrder) (hroom : u.heldReads i < q.respDepth)
    (haccess : u.accessOk q key addr len true = some w) (hkind : w.kind = .handle handle)
    (hq' : q' = { q with ePsn := psnAdd psn (max 1 (ceilDiv len q.pmtu)), gapNak := false }) :
    Runs (.rdmaReadRequestReceive port sub) s
      ((u.setQp i q').enqueue (readFrames q' i u.dtime psn (u.readHandle handle addr len))) := by
  subst hq'
  refine runs_packet (execRdmaReadRequestReceive.eq_def ..) h ?_
  simp only [horder, if_neg (Nat.not_le.2 hroom), haccess, hkind, if_true]

/-- R256: a response joins the bytes of the READ that waits for it, and acknowledges what was sent before. -/
theorem rdmaReadResponseReceive_awaited {qpn psn k : Nat} {last : Bool} {d : Bytes}
    (h : Arrived s port sub Pkt.isReadResp (.readResp qpn psn last d) i q u)
    (hwait : q.sends.findIdx? (fun r => r.awaits psn q.pmtu) = some k) :
    Runs (.rdmaReadResponseReceive port sub) s
      ((u.setQp i { q with sends := q.sends.modify k (fun r => { r with got := r.got ++ d }) }).ackUpTo i psn) := by
  refine runs_packet (execRdmaReadResponseReceive.eq_def ..) h ?_
  simp only [hwait]

end

/-! ## Timers of a queue pair and its flush (R255, R256, R258) -/

section
variable {qp : Fin 16384} {q q' : Qp} {since : Nat} {s u : State} (hsafe : s.safe = false) (hqp : s.qp qp = some q)
include hsafe hqp

/-- R255: the newest placed PSN is acknowledged. -/
theorem ackCoalesceTimer_completes (hpending : q.coalesce = some since) (hstate : q.state ≠ .err) :
    Runs (.ackCoalesceTimer qp) s (s.ackPlaced qp (psnAdd q.ePsn (2 ^ 24 - 1)) true) := by
  refine runs_act (execAckCoalesceTimer.eq_def ..) hsafe ?_
  simp only [hqp, hpending, if_neg hstate]

/-- R256: with retries left, the requester slows down, if its queue pair is paced, and sends again. -/
theorem ackTimerExpiry_retries (htimer : q.timer = some since)
    (hdue : since + q.timeoutNs ≤ s.dtime) (hretry : q.retries < q.retryCnt)
    (hq' : q' = { q with retries := q.retries + 1 }) :
    Runs (.ackTimerExpiry qp) s
      ((s.setQp qp (if q'.paced then q'.onExpiry s.dtime (s.fld fNET_RC_CFG1_MIN_MBPS) else q')).goBack qp) := by
  subst hq'
  refine runs_act (execAckTimerExpiry.eq_def ..) hsafe ?_
  simp only [hqp, htimer, if_neg (Nat.not_lt.2 hdue), if_neg (Nat.not_le.2 hretry)]

/-- R258: what a queue pair in ERR had queued is gone, and it is FLUSHED; one of a run is destroyed. -/
theorem qpFlushComplete_completes (hstate : q.state = .err) (hfirst : q.flushed = false)
    (hu : u = State.setQp { s with net := { s.net with egress := s.net.egress.filter (fun f => f.qp != some qp.val) } } qp
      { q with flushed := true }) :
    Runs (.qpFlushComplete qp) s (if q.kind = .client then u else u.destroyQp qp) := by
  subst hu
  refine runs_act (execQpFlushComplete.eq_def ..) hsafe ?_
  simp only [hqp]
  exact if_neg (by simp [hstate, hfirst])

end

/-- Settles O18: each command passes its checks, which the lemmas above show clause by clause; the window of an in-order WRITE
is checked within its placement, and an acknowledgement has no condition but its arrival. -/
theorem networkCompletes : Obligations.NetworkCompletes := by
  refine ⟨fun _ _ _ _ _ _ _ => ptpMessage_sync, ?_, ?_,
    fun _ _ _ _ => gateClose_completes, fun _ _ _ _ => frameStart_completes, fun _ _ => queueSample_completes,
    fun _ _ _ => queueSummary_completes, ?_, fun _ _ _ _ _ _ _ => pfcFrame_honoured,
    fun _ _ _ _ => pfcPauseExpiry_completes, ?_, fun _ _ _ => linkDown_completes, fun _ _ _ _ => linkUp_completes, ?_,
    fun _ _ _ _ _ _ _ _ _ _ _ _ _ _ => rdmaReadRequestReceive_inOrder,
    fun _ _ _ _ _ _ _ _ _ _ _ => rdmaReadResponseReceive_awaited, ?_, fun _ _ _ _ => ackCoalesceTimer_completes,
    fun _ _ _ _ _ => ackTimerExpiry_retries, fun _ _ _ _ => qpFlushComplete_completes⟩
  · intro s hsafe hdue
    exact runs_act (execUncertaintyTick.eq_def ..) hsafe (if_pos hdue)
  · rintro port sub entry e x o c eo ec _ s hsafe hrun hpresent rfl hentry hstep hnominal heffective hport ho hc hskip hclosed
      hlong heo hec htime
    rw [← State.openGate_opens hentry hstep hnominal heffective hport ho hc hskip hclosed hlong heo hec htime]
    exact gateOpen_running hsafe hrun hpresent
  · intro port sub tag body s hsafe hpresent hlink
    exact ⟨frameReceive_valid hsafe hpresent hlink, frameReceive_plain hsafe hpresent hlink,
      frameReceive_invalid hsafe hpresent hlink⟩
  · intro port sub outcome f s u hsafe hgroup htake hon hkey
    exact mkaFrame_completes hsafe hgroup htake hon hkey
  · intro port sub qpn psn addr key len i last ar imm d q w s u v h horder _ _ _ _
    exact rdmaWriteReceive_inOrder h horder
  · intro port sub qpn psn i q s u h
    exact runs_packet (execAckReceive.eq_def ..) h rfl

end Sys2Proof.Machine
end

section
/-!
PROOFS. Resources that a context asks for (R253, R260, R262, R264, R326, R330): a request that meets the conditions of its
rule passes every check of its opcode. A packet whose number names no open queue pair (R251) is dropped as stale.
-/
namespace Sys2Proof.Machine

/-! ## A request taken up leaves queue pairs, windows, pegs, barriers and Ledger queues alone -/

@[simp] theorem taken_clientQp (s : State) (r : HostReq) (c qpn : Nat) : (s.taken r).clientQp c qpn = s.clientQp c qpn := rfl
@[simp] theorem taken_windowAt (s : State) (r : HostReq) (key : Nat) : (s.taken r).windowAt key = s.windowAt key := rfl
@[simp] theorem taken_sync (s : State) (r : HostReq) : (s.taken r).sync = s.sync := rfl
@[simp] theorem taken_peg (s : State) (r : HostReq) (c v : Nat) : (s.taken r).peg c v = s.peg c v := rfl
@[simp] theorem taken_barsOf (s : State) (r : HostReq) (c : Nat) : (s.taken r).barsOf c = s.barsOf c := rfl
@[simp] theorem taken_ledger (s : State) (r : HostReq) : (s.taken r).ledger = s.ledger := rfl
@[simp] theorem taken_queue (s : State) (r : HostReq) (n : Nat) : (s.taken r).queue n = s.queue n := rfl

section
variable {s t : State} {ctx : Fin 64} {sq : Fin 256} {r : HostReq}

/-! ## Queue pairs (R253) -/

theorem qpOpen_completes {cls pd port sub pmtu timeout retry initDepth respDepth i : Nat} (h : Asked s ctx sq 0x20 r)
    (hargs : (s.taken r).qpArgsOk cls pd port sub pmtu timeout retry initDepth respDepth = true)
    (hopen : (s.taken r).openQp false .client cls ctx pd port sub pmtu timeout retry initDepth respDepth = .ok (i, t)) :
    Runs (.qpOpen ctx sq cls pd port sub pmtu timeout retry initDepth respDepth) s
      (t.used.finish r stOK (qpnOf i (((t.qp i).map (·.gen)).getD 0)) (t.free 32)) := by
  refine runs_asked (execQpOpen.eq_def ..) h ?_
  simp only [hargs, hopen]
  rfl

section
variable {qpn i : Nat} {q : Qp} (hqp : s.clientQp ctx qpn = some (i, q))
include hqp

theorem qpConnect_completes {peerQpn sqPsn ePsn : Nat} {gid : BitVec 128} (h : Asked s ctx sq 0x21 r)
    (hstate : q.state = .init) (hpeer : peerQpn < 2 ^ 24) (hsq : sqPsn < 2 ^ 24) (he : ePsn < 2 ^ 24) :
    Runs (.qpConnect ctx sq qpn gid peerQpn sqPsn ePsn) s
      (((s.taken r).setQp i (q.connect (toBE 16 gid.toNat) peerQpn sqPsn ePsn)).answer r stOK) := by
  have hargs : ¬ (q.state ≠ .init ∨ 2 ^ 24 ≤ peerQpn ∨ 2 ^ 24 ≤ sqPsn ∨ 2 ^ 24 ≤ ePsn) := by
    simpa [hstate] using And.intro hpeer ⟨hsq, he⟩
  refine runs_asked (execQpConnect.eq_def ..) h ?_
  simp only [taken_clientQp, hqp]
  exact if_neg hargs

theorem qpClose_completes (h : Asked s ctx sq 0x22 r) (hstate : q.state ≠ .err) :
    Runs (.qpClose ctx sq qpn) s (((s.taken r).qpError i stNET_FLUSHED true).answer r stOK) := by
  refine runs_asked (execQpClose.eq_def ..) h ?_
  simp only [taken_clientQp, hqp]
  exact if_neg hstate

theorem qpDestroy_completes (h : Asked s ctx sq 0x23 r) (hstate : q.state = .err) (hflushed : q.flushed = true) :
    Runs (.qpDestroy ctx sq qpn) s (((s.taken r).destroyQp i).answer r stOK) := by
  refine runs_asked (execQpDestroy.eq_def ..) h ?_
  simp only [taken_clientQp, hqp]
  exact if_pos ⟨hstate, hflushed⟩

end

/-! ## Windows (R260, R262) -/

theorem windowOpen_completes {kind pd len handle key : Nat} {write read : Bool} {k : WinKind} (h : Asked s ctx sq 0x24 r)
    (hkind : (s.taken r).winKindOk ctx kind handle len write read = some k) (hpd : pd < 256)
    (hopen : (s.taken r).openWindow ctx pd k len write read = .ok (key, t)) :
    Runs (.windowOpen ctx sq kind pd len handle write read) s (t.used.finish r stOK key (t.free 32)) := by
  refine runs_asked (execWindowOpen.eq_def ..) h ?_
  simp only [hkind, if_neg (Nat.not_le.2 hpd), hopen]

theorem windowClose_completes {key : Nat} {w : Window} (h : Asked s ctx sq 0x25 r) (hwindow : s.windowAt key = some w)
    (hctx : w.ctx = ctx.val) (hkind : w.kind ≠ .landing) :
    Runs (.windowClose ctx sq key) s (((s.taken r).revoke (key / 2 ^ 16)).await r (.window (key / 2 ^ 16))) := by
  refine runs_asked (execWindowClose.eq_def ..) h ?_
  simp only [taken_windowAt, hwindow]
  exact if_neg (not_or.2 ⟨not_not_intro hctx, hkind⟩)

theorem windowCloseComplete_completes {window : Fin 65536} {w : Window} (hsafe : s.safe = false)
    (hwindow : Map.find s.net.windows window = some w) (hclosing : w.closing.isSome = true) :
    Runs (.windowCloseComplete window) s
      (State.wake { s with net := { s.net with windows := Map.put s.net.windows window { w with closing := none } } }
        (.window window) stOK) := by
  have hrevoked : ¬ w.closing.isNone = true := by simp [Option.isSome_iff_ne_none.1 hclosing]
  refine runs_act (execWindowCloseComplete.eq_def ..) hsafe ?_
  simp only [hwindow]
  exact if_neg hrevoked

/-! ## Pegs (R326) -/

/-- A peg that is not mapped, where the device and the context's share have room, is mapped at value 0. -/
theorem pegMap_completes {peg : Nat} (h : Asked s ctx sq 0x28 r) (hpeg : peg < 16384) (hfree : s.peg ctx peg = none)
    (hdevice : s.mappedPegs < 65536) (hshare : (s.pegsOf ctx).length < s.sharePegs ctx) :
    Runs (.pegMap ctx sq peg) s
      (((s.taken r).used.setPegs ctx
        (Map.put (s.pegsOf ctx) peg { phys := (s.taken r).freePhys, value := 0 })).answer r stOK) := by
  have hroom : ¬ (65536 ≤ s.mappedPegs ∨ s.sharePegs ctx ≤ (s.pegsOf ctx).length) := by omega
  refine runs_asked (execPegMap.eq_def ..) h ?_
  simp only [if_neg (Nat.not_le.2 hpeg), taken_peg, hfree]
  exact if_neg hroom

theorem pegUnmap_completes {peg : Nat} {p : Peg} (h : Asked s ctx sq 0x29 r) (hpeg : peg < 16384)
    (hmapped : s.peg ctx peg = some p) (ht : t = (s.taken r).endWaits ctx (fun w => w.peg == peg) stPEG_UNMAPPED) :
    Runs (.pegUnmap ctx sq peg) s ((t.setPegs ctx (Map.del (t.pegsOf ctx) peg)).answer r stOK) := by
  subst ht
  refine runs_asked (execPegUnmap.eq_def ..) h ?_
  simp only [if_neg (Nat.not_le.2 hpeg), taken_peg, hmapped]

/-! ## Device barriers (R330) -/

/-- A barrier that is not open, where the device and the context's share have room, opens over the tiles that are ready. -/
theorem dbarOpen_completes {barrier mode : Nat} (h : Asked s ctx sq 0x2A r) (hbarrier : barrier < 256) (hmode : mode < 2)
    (hfree : Map.has (s.barsOf ctx) barrier = false)
    (hdevice : (s.sync.bars.map (fun e => e.2.length)).foldl (· + ·) 0 < 1024)
    (hshare : (s.barsOf ctx).length < s.shareDbars ctx) :
    Runs (.dbarOpen ctx sq barrier mode) s
      (((s.taken r).setBar ctx barrier {
        stepMode := mode == 1, sense := false, gen := 0, members := (s.taken r).readyTiles ctx, arrived := [],
        gate := false, waiters := [] }).answer r stOK) := by
  have hargs : ¬ (256 ≤ barrier ∨ 2 ≤ mode ∨ Map.has (s.barsOf ctx) barrier = true) := by
    simp [hfree, hbarrier, hmode]
  have hroom : ¬ (1024 ≤ (s.sync.bars.map (fun e => e.2.length)).foldl (· + ·) 0
      ∨ s.shareDbars ctx ≤ (s.barsOf ctx).length) := by omega
  refine runs_asked (execDbarOpen.eq_def ..) h ?_
  exact (if_neg hargs).trans (if_neg hroom)

/-- The waiters of a barrier that closes end with DBAR_NOT_MEMBER. -/
theorem dbarClose_completes {barrier : Nat} {b : Dbar} (h : Asked s ctx sq 0x2B r)
    (hopen : Map.find (s.barsOf ctx) barrier = some b)
    (ht : t = { s.taken r with sync := { s.sync with bars := Map.put s.sync.bars ctx (Map.del (s.barsOf ctx) barrier) } }) :
    Runs (.dbarClose ctx sq barrier) s
      ((b.waiters.foldl (fun s w => s.completeTicket w.1 w.2.1 w.2.2.1 0 stDBAR_NOT_MEMBER) t).answer r stOK) := by
  subst ht
  refine runs_asked (execDbarClose.eq_def ..) h ?_
  simp only [taken_barsOf, hopen, taken_sync]

/-! ## Ledger queues (R264) -/

theorem ldgQueueOpen_completes {queue mode base count qpn addr key entries i : Nat} {q : Qp} (h : Asked s ctx sq 0x2C r)
    (hroom : s.ledger.length < 1024) (hqp : s.clientQp ctx qpn = some (i, q))
    (hargs : (s.taken r).queueOk ctx queue mode base count entries addr (some (i, q)) = true) :
    Runs (.ldgQueueOpen ctx sq queue mode base count qpn addr key entries) s
      (((s.taken r).setQueue queue (LedgerQueue.fresh ctx mode base count i addr key entries)).answer r stOK) := by
  refine runs_asked (execLdgQueueOpen.eq_def ..) h ?_
  simp only [taken_ledger, if_neg (Nat.not_le.2 hroom), taken_clientQp, hqp, hargs]
  rfl

theorem ldgQueueClose_completes {queue : Nat} {q : LedgerQueue} (h : Asked s ctx sq 0x2D r)
    (hqueue : s.queue queue = some q) (hctx : q.ctx = ctx.val) (hrecovery : q.recovery = false)
    (ht : t = (s.taken r).abortQueue queue) :
    Runs (.ldgQueueClose ctx sq queue) s (State.answer { t with ledger := Map.del t.ledger queue } r stOK) := by
  subst ht
  refine runs_asked (execLdgQueueClose.eq_def ..) h ?_
  simp only [taken_queue, hqueue]
  exact if_neg (by simp [hctx, hrecovery])

end

/-- Settles O10: each request passes the checks of its opcode, which the lemmas above show clause by clause. -/
theorem hostResourcesComplete : Obligations.HostResourcesComplete :=
  ⟨fun _ _ _ _ _ _ _ _ _ _ _ _ _ _ _ => qpOpen_completes,
    fun _ _ _ _ _ _ _ _ _ _ _ h hqp => qpConnect_completes hqp h,
    fun _ _ _ _ _ _ _ h hqp => qpClose_completes hqp h,
    fun _ _ _ _ _ _ _ h hqp => qpDestroy_completes hqp h,
    fun _ _ _ _ _ _ _ _ _ _ _ _ _ => windowOpen_completes,
    fun _ _ _ _ _ _ => windowClose_completes,
    fun _ _ _ => windowCloseComplete_completes,
    fun _ _ _ _ _ => pegMap_completes,
    fun _ _ _ _ _ _ _ => pegUnmap_completes,
    fun _ _ _ _ _ _ => dbarOpen_completes,
    fun _ _ _ _ _ _ _ => dbarClose_completes,
    fun _ _ _ _ _ _ _ _ _ _ _ _ _ _ => ldgQueueOpen_completes,
    fun _ _ _ _ _ _ _ => ldgQueueClose_completes⟩

/-! ## Stale packets (R251) -/

section
variable {s u : State} {port sub : Nat} {p : Pkt → Bool} {f : RxFrame} {sealed : Bool} {x : Pkt}
  {body : State → Nat → Qp → Pkt → State}

/-- R251: where no open queue pair has the packet's number, the packet is taken off the port and counted, and its body does
not run. -/
theorem onPacket_stale (htake : s.takeRx port sub (RxBody.carries p) = some (f, u)) (hbody : f.body = .rdma sealed x)
    (hnone : u.findQpn x.qpn = none) : s.onPacket port sub p body = u.dropStale port := by
  unfold State.onPacket
  simp only [htake, hbody, hnone]

/-- A command that takes a packet off a port drops a stale one, whatever it would do with one that comes through. -/
theorem runs_stale {c : Instr} (he : exec c s = act s (fun s => s.onPacket port sub p body)) (hsafe : s.safe = false)
    (htake : s.takeRx port sub (RxBody.carries p) = some (f, u)) (hbody : f.body = .rdma sealed x)
    (hnone : u.findQpn x.qpn = none) : Runs c s (u.bump (fNET_PORT_DROP_COUNT_STALE port) 1) :=
  runs_act he hsafe (onPacket_stale htake hbody hnone)

end

/-- Settles O59: each of the four commands handles its packet through `onPacket`, which drops a stale one. -/
theorem stalePacketsHaveNoEffect : Obligations.StalePacketsHaveNoEffect := by
  rintro port sub p c f x sealed s u hsafe (⟨rfl, rfl⟩ | ⟨rfl, rfl⟩ | ⟨rfl, rfl⟩ | ⟨rfl, rfl⟩) htake hbody hnone
  · exact runs_stale (execRdmaWriteReceive.eq_def ..) hsafe htake hbody hnone
  · exact runs_stale (execRdmaReadRequestReceive.eq_def ..) hsafe htake hbody hnone
  · exact runs_stale (execRdmaReadResponseReceive.eq_def ..) hsafe htake hbody hnone
  · exact runs_stale (execAckReceive.eq_def ..) hsafe htake hbody hnone

end Sys2Proof.Machine
end

section
/-!
PROOFS. The Ledger (R266 to R278, R302): a command in the state that its rule asks for passes every check and has the effect
of the rule. Completions follow their ring with its PHASE (R272).
-/
namespace Sys2Proof.Machine

section
variable {s u t : State} {queue slot : Fin 1024} {q q' : LedgerQueue} {c c' : LedgerCmd}

/-! ## Examination and start (R265, R268, R269) -/

/-- R265: the record at the front of the window, for a FREE slot of a queue that is not resetting, is examined. -/
theorem ledgerRecordExamine_completes {ctx : Fin 64} {m : RxDone} {place n : Nat} (hsafe : s.safe = false)
    (hflush : s.media.flushing = none) (htake : s.takeMessage 2 (some ctx) = some (m, u))
    (hplace : place = u.slotBase ctx + m.addr / 128)
    (hqueue : u.ledger.find? (fun e => e.2.ctx == ctx.val && e.2.base ≤ place && place < e.2.base + e.2.count) = some (n, q))
    (hreset : q.reset = none) (hfree : q.cmdAt (place - q.base) = none) :
    Runs (.ledgerRecordExamine ctx) s (u.examineTask n q (place - q.base) (u.winBytes 2 ctx (m.addr / 128 * 128) 128)) := by
  subst hplace
  refine runs_act (execLedgerRecordExamine.eq_def ..) hsafe ?_
  rw [hflush, if_neg (by simp)]
  simp only [htake, hqueue]
  rw [if_neg (by simp [hreset, hfree])]

theorem ledgerCommandStart_completes (hsafe : s.safe = false) (hqueue : s.queue queue = some q)
    (hcmd : q.cmdAt slot = some c) (hstart : q.mayStart c = true) (hready : s.mediaReady = true) :
    Runs (.ledgerCommandStart queue slot) s (s.startCmd queue q c).touchMedia := by
  refine runs_act (execLedgerCommandStart.eq_def ..) hsafe ?_
  simp only [hqueue, hcmd]
  exact if_pos (by simp [hstart, hready])

/-! ## Reads (R271, R275, R278, R302) -/

/-- A read that finds its data at its start posts the writes of that data. -/
theorem State.runRead_found {n : Nat} {find : State → Except (Status × Nat) Bytes} {d : Bytes} (hverdict : c.verdict = none)
    (hfind : find s = .ok d) : s.runRead n q c find = s.postWrites n q c d := by
  simp only [State.runRead, hverdict, hfind]

/-- R278: this device holds the sample, which passes R72 at once and fits the command's buffer. -/
theorem sampleRead_clean {m : ManifestRec} {e : DatasetEnt} {loc : Nat} {b : Bytes}
    (h : Commanded s queue slot ldSAMPLE_READ q c) (hready : s.mediaReady = true) (hverdict : c.verdict = none)
    (hmanifest : (s.ctxData q.ctx).manifestAt s.lastStep = some m)
    (hdataset : m.datasets.find? (fun e => e.id == bitsOf c.task.object 48 8) = some e)
    (hloc : loc = c.task.object % 2 ^ 48) (hcount : loc < e.count) (hrun : (s.ctxData q.ctx).run = none)
    (hholder : m.sampleHolder (e.base + loc) = s.self) (hmedia : s.hw.variant.hasMedia = true)
    (hclean : s.fetchSample q.ctx e (e.base + loc) [] [] none = .clean b) (hfits : fieldAt b 8 4 ≤ c.task.length) :
    Runs (.sampleRead queue slot [] [] none) s (s.postWrites queue q c (slice b 32 (fieldAt b 8 4))) := by
  subst hloc
  refine runs_cmd (execSampleRead.eq_def ..) h ?_
  simp only [hready, hverdict, hmanifest, hdataset, hrun, hholder, hmedia, hclean]
  rw [if_neg (by simp), if_neg (Nat.not_le.2 hcount), if_neg (by simp), if_neg (Nat.not_lt.2 hfits)]

theorem objectRead_found {o : Obj} (h : Commanded s queue slot ldOBJECT_READ q c) (hready : s.mediaReady = true)
    (hverdict : c.verdict = none)
    (hobj : s.media.objects.find? (fun o => o.ctx == q.ctx && o.id == c.task.object) = some o) (hsound : o.damaged = false)
    (hrange : c.task.offset + c.task.length ≤ o.data.length) :
    Runs (.objectRead queue slot) s
      (s.used.postWrites queue q c ((o.data.drop c.task.offset).take c.task.length)) := by
  refine runs_cmd (execObjectRead.eq_def ..) h ?_
  have hobj' : s.used.media.objects.find? (fun o => o.ctx == q.ctx && o.id == c.task.object) = some o := hobj
  refine (if_neg (by simp [hready])).trans (State.runRead_found hverdict ?_)
  simp only [hobj', hsound]
  exact if_neg (Nat.not_lt.2 hrange)

/-- R275: every chunk of the range is held by a sealed generation and undamaged. -/
theorem ckptRestore_found {g : Gen} {first count : Nat} {b : Bytes} (h : Commanded s queue slot ldCKPT_RESTORE q c)
    (hready : s.mediaReady = true) (hverdict : c.verdict = none) (hgen : s.findGen q.ctx c.task.gen = some g)
    (hsealed : g.isSealed = true) (hfirst : first = c.task.offset / 2 ^ 20)
    (hcount : count = (c.task.offset + c.task.length - 1) / 2 ^ 20 + 1 - first) (hsound : ∀ k ∈ g.chunks, k.damaged = false)
    (hbytes : g.bytes c.task.object count first = some b)
    (hrange : c.task.offset % 2 ^ 20 + c.task.length ≤ b.length) :
    Runs (.ckptRestore queue slot true) s
      (s.postWrites queue q c ((b.drop (c.task.offset % 2 ^ 20)).take c.task.length)) := by
  subst hfirst hcount
  refine runs_cmd (execCkptRestore.eq_def ..) h ?_
  refine (if_neg (by simp [hready])).trans (State.runRead_found hverdict ?_)
  have hdamage (p : Chunk → Bool) : (g.chunks.filter p).any (·.damaged) = false :=
    List.any_eq_false.2 fun k hk => by simp [hsound k (List.mem_of_mem_filter hk)]
  have hlen : ((b.drop (c.task.offset % 2 ^ 20)).take c.task.length).length = c.task.length := by
    rw [List.length_take, List.length_drop]
    omega
  simp only [hgen, hsealed, hdamage, hbytes]
  exact if_pos hlen

/-- R302: the range of the stored fragment is returned as it stands. -/
theorem fragmentRead_found {f : Frag} {off : Nat} (h : Commanded s queue slot ldFRAGMENT_READ q c)
    (hready : s.mediaReady = true) (hverdict : c.verdict = none) (hoff : off = c.task.offset % 2 ^ 32)
    (hfrag : s.media.frags.find? (fun f =>
      f.tag == c.task.object && f.stripe == c.task.offset / 2 ^ 32 && f.num == c.task.elem) = some f)
    (hrange : off + c.task.length ≤ f.data.length) (hsound : f.lost = []) :
    Runs (.fragmentRead queue slot) s (s.postWrites queue q c ((f.data.drop off).take c.task.length)) := by
  subst hoff
  refine runs_cmd (execFragmentRead.eq_def ..) h ?_
  refine (if_neg (by simp [hready])).trans (State.runRead_found hverdict ?_)
  simp only [hfrag, hsound]
  exact if_neg (Nat.not_lt.2 hrange)

/-! ## Writes (R270, R274) -/

/-- R270: in the protected write buffer an object commits once its last byte has come. -/
theorem objectWrite_protected (h : Commanded s queue slot ldOBJECT_WRITE q c) (hout : c.inBuffer = false)
    (hmoved : Moved s queue q c q' c' u) (hfits : u.mediaFits q'.ctx c'.task.length = true) (hwt : u.writeThrough = false) :
    Runs (.objectWrite queue slot) s
      (((u.dropStreams (· == .obj q'.ctx c'.task.object)).commitObject queue q' c').pushWb {
        stream := .obj q'.ctx c'.task.object, bytes := c'.task.length, queue := some queue.val, tag := c'.task.tag,
        cmd := none }) := by
  refine runs_cmd (execObjectWrite.eq_def ..) h ?_
  rw [hout, if_neg Bool.false_ne_true, whenMoved_moved hmoved, hfits, hwt]
  rfl

/-- R270: with the chunks that have arrived every chunk has committed. -/
theorem ckptAbsorb_whole {d : LedgerCmd} (h : Commanded s queue slot ldCKPT_ABSORB q c)
    (hcollect : s.collect queue c = (c', u)) (hfits : u.mediaFits q.ctx c'.arrivedLen = true) (hwt : u.writeThrough = false)
    (hfailed : c'.failed = none) (hwhole : (c'.kept ++ c'.arrived).length = c'.parts)
    (hd : d = { c' with taken := c'.taken ++ c'.arrived, kept := c'.kept ++ c'.arrived }) :
    Runs (.ckptAbsorb queue slot) s
      ((c'.arrived.foldl (fun s i => s.takeChunk queue q c' i) u).finishCmd queue q d stOK d.task.length) := by
  subst hd
  refine runs_cmd (execCkptAbsorb.eq_def ..) h ?_
  simp only [hcollect, hfits, hwt, State.settleAbsorb, hfailed]
  exact if_pos hwhole

/-- R274: with nothing of the queue buffered, a FLUSH that seals nothing ends. -/
theorem flush_unsealing (h : Commanded s queue slot ldFLUSH q c) (hbuffer : s.buffered queue = false)
    (hwait : c.sealWait = false) (hseals : c.task.seals = false) :
    Runs (.flush queue slot) s (s.endLedgerFlush queue q c 0) := by
  refine runs_cmd (execFlush.eq_def ..) h ?_
  rw [if_neg (by simp [hbuffer, hwait]), hseals]
  rfl

/-- R274: in LOCAL mode a FLUSH seals an undamaged generation at once. -/
theorem flush_sealing {g : Gen} (h : Commanded s queue slot ldFLUSH q c) (hbuffer : s.buffered queue = false)
    (hwait : c.sealWait = false) (hseals : c.task.seals = true) (hgen : s.findGen q.ctx c.task.gen = some g)
    (hsound : g.damaged = false) (hmode : q.mode = 0) :
    Runs (.flush queue slot) s ((s.sealGen q.ctx c.task.gen).endLedgerFlush queue q c 1) := by
  refine runs_cmd (execFlush.eq_def ..) h ?_
  rw [if_neg (by simp [hbuffer, hwait])]
  simp only [hseals, hgen, hsound]
  rw [hmode]
  rfl

theorem trim_gen {g : Gen} (h : Commanded s queue slot ldTRIM q c) (hready : s.mediaReady = true)
    (hseals : c.task.seals = true) (hgen : s.findGen q.ctx c.task.gen = some g) :
    Runs (.trim queue slot) s ((s.dropGen q.ctx c.task.gen).finishCmd queue q c stOK 0) := by
  refine runs_cmd (execTrim.eq_def ..) h ?_
  rw [hready, if_neg (by simp), if_pos hseals]
  simp only [hgen]

theorem trim_object (h : Commanded s queue slot ldTRIM q c) (hready : s.mediaReady = true) (hseals : c.task.seals = false)
    (hobj : s.media.objects.any (fun o => o.ctx == q.ctx && o.id == c.task.object) = true) :
    Runs (.trim queue slot) s
      (((s.setMedia { s.media with
        objects := s.media.objects.filter (fun o => !(o.ctx == q.ctx && o.id == c.task.object)) }).dropStreams
          (· == .obj q.ctx c.task.object)).finishCmd queue q c stOK 0) := by
  refine runs_cmd (execTrim.eq_def ..) h ?_
  rw [hready, if_neg (by simp), hseals, if_neg Bool.false_ne_true]
  simp only [hobj]
  rfl

/-! ## Resets and timeouts (R276, R277) -/

/-- R276: FABRIC mode denies a reset; in the other modes every command ends. -/
theorem queueReset_completes {tag : Nat} (hsafe : s.safe = false) (hqueue : s.queue queue = some q)
    (hreset : q.reset = some tag) :
    Runs (.queueReset queue) s
      (if q.mode = 2 then s.setQueue queue { q with reset := none, cpls := q.cpls ++ [{
          tag := tag, status := stLDG_RESET_DENIED, slot := 0, seq := 2 ^ 64 - 1, result := 0 }] }
       else (s.setQueue queue { q.abortAll with cpls := q.abortAll.cpls ++ [{
          tag := tag, status := stOK, slot := 0, seq := 2 ^ 64 - 1, result := 0 }] }).dropUncommitted queue) := by
  refine runs_act (execQueueReset.eq_def ..) hsafe ?_
  simp only [hqueue, hreset]

theorem ledgerTimeout_completes (hsafe : s.safe = false) (hqueue : s.queue queue = some q) (hcmd : q.cmdAt slot = some c)
    (htimeout : c.task.timeout ≠ 0) (hdue : c.at_ + c.task.timeout * 1000 ≤ s.dtime) :
    Runs (.ledgerTimeout queue slot) s ((s.dropPending queue c.order).finishCmd queue q c stLDG_TIMEOUT 0) := by
  refine runs_act (execLedgerTimeout.eq_def ..) hsafe ?_
  simp only [hqueue, hcmd]
  exact if_neg (by omega)

/-! ## Completions (R272, R273) -/

/-- The oldest deferred error, which a completion carries unless a QUEUE_RESET completion waits (R273, R276). -/
def LedgerQueue.carried (q : LedgerQueue) (c : LedgerCpl) (rest : List LedgerCpl) : Option (Nat × Status) :=
  if rest.any (fun x => x.seq == 2 ^ 64 - 1) || c.seq == 2 ^ 64 - 1 then none else q.deferred.head?

/-- The oldest waiting completion is written to its entry of the ring. -/
theorem ledgerCompletionWrite_completes {k : LedgerCpl} {rest : List LedgerCpl} (hsafe : s.safe = false)
    (hqueue : s.queue queue = some q) (hcpls : q.cpls = k :: rest) :
    Runs (.ledgerCompletionWrite queue) s
      ((s.setQueue queue (q.wrote rest (q.carried k rest).isSome)).post q.qp
        (.write (q.cplAddr + q.written % q.cplEntries * 32) q.cplKey none
          (cplBytes k (q.carried k rest) (q.written / q.cplEntries % 2 == 0))) .plain) := by
  refine runs_act (execLedgerCompletionWrite.eq_def ..) hsafe ?_
  simp only [hqueue, hcpls, LedgerQueue.carried]

end

/-- Settles O20: each command finds what its rule asks for, which the lemmas above show one by one. -/
theorem ledgerCommandsComplete : Obligations.LedgerCommandsComplete := by
  refine ⟨fun _ _ _ _ _ _ _ => ledgerRecordExamine_completes, fun _ _ _ _ _ => ledgerCommandStart_completes,
    fun _ _ _ _ _ _ _ _ _ => sampleRead_clean, fun _ _ _ _ _ _ => objectRead_found,
    fun _ _ _ _ _ _ _ _ => objectWrite_protected, fun _ _ _ _ _ _ _ _ => ckptAbsorb_whole,
    fun _ _ _ _ _ _ _ _ _ => ckptRestore_found, fun _ _ _ _ _ => flush_unsealing, fun _ _ _ _ _ _ => flush_sealing,
    fun _ _ _ _ _ _ => trim_gen, fun _ _ _ _ _ => trim_object, fun _ _ _ _ _ _ _ => fragmentRead_found,
    fun _ _ _ _ => queueReset_completes, fun _ _ _ _ _ => ledgerTimeout_completes, ?_⟩
  intro queue q c rest d s hsafe hqueue hcpls hhold hd
  have hcarried : q.carried c rest = d := by
    rw [hd, LedgerQueue.carried, hhold, if_neg Bool.false_ne_true]
  exact hcarried ▸ ledgerCompletionWrite_completes hsafe hqueue hcpls

/-! ## The completion entry and its ring (Table 11.6, R272) -/

/-- A field at the end of a byte string holds what was put there. -/
theorem fieldAt_append_toLE (bs : Bytes) (len n : Nat) : fieldAt (bs ++ toLE len n) bs.length len = n % 2 ^ (8 * len) := by
  have hslice : slice (bs ++ toLE len n) bs.length len = toLE len n := by
    simp [slice, zeros, List.take_of_length_le]
  rw [fieldAt, hslice, leNat_toLE]

/-- An entry has 31 bytes before the byte that holds PHASE. -/
theorem cplBytes_split (c : LedgerCpl) (d : Option (Nat × Status)) (phase : Bool) :
    ∃ front : Bytes, front.length = 31 ∧ cplBytes c d phase = front ++ toLE 1 (if phase then 1 else 0) := by
  cases d <;> exact ⟨_, by simp, rfl⟩

theorem length_cplBytes (c : LedgerCpl) (d : Option (Nat × Status)) (phase : Bool) : (cplBytes c d phase).length = 32 := by
  obtain ⟨front, hfront, hentry⟩ := cplBytes_split c d phase
  simp [hentry, hfront]

theorem phase_cplBytes (c : LedgerCpl) (d : Option (Nat × Status)) (phase : Bool) :
    bitOf (fieldAt (cplBytes c d phase) 31 1) 0 = phase := by
  obtain ⟨front, hfront, hentry⟩ := cplBytes_split c d phase
  rw [hentry, ← hfront, fieldAt_append_toLE]
  cases phase <;> rfl

/-- Issuing requests leaves the Ledger alone. -/
@[simp] theorem State.pump_ledger (s : State) (idx fuel : Nat) : (s.pump idx fuel).ledger = s.ledger := by
  induction fuel generalizing s with
  | zero => rfl
  | succ fuel ih =>
    unfold State.pump
    split
    · rfl
    split
    · rfl
    split
    · rfl
    split
    · rfl
    split
    · rfl
    exact ih _

@[simp] theorem State.post_ledger (s : State) (idx : Nat) (w : Wr) (o : WrFor) : (s.post idx w o).ledger = s.ledger := by
  unfold State.post
  split
  · rfl
  split
  · rfl
  exact State.pump_ledger ..

theorem State.queue_post (s : State) (idx n : Nat) (w : Wr) (o : WrFor) : (s.post idx w o).queue n = s.queue n :=
  congrArg (Map.find · n) (s.post_ledger idx w o)

theorem State.queue_setQueue_same (s : State) (n : Nat) (q : LedgerQueue) : (s.setQueue n q).queue n = some q :=
  Map.find_put_same ..

/-- Settles O58: the entry's bytes carry the PHASE of its pass, and posting the write leaves the queue as `wrote` made it. -/
theorem ledgerCompletionsFollowTheRing : Obligations.LedgerCompletionsFollowTheRing := by
  intro queue q c rest s hsafe hqueue hcpls
  exact ⟨_, _, q.wrote rest (q.carried c rest).isSome, ledgerCompletionWrite_completes hsafe hqueue hcpls,
    (State.queue_post ..).trans (State.queue_setQueue_same ..), rfl, rfl, length_cplBytes .., phase_cplBytes .., rfl⟩

end Sys2Proof.Machine
end

section
/-!
PROOFS. The media controller (R279, R287 to R309): power states, blocks, scans, rebuilds, recovery and health; each command in
the state that its rule asks for has the effect of the rule.
-/
namespace Sys2Proof.Machine

section
variable {s t u v : State} {block : Nat} {b : Superblock} {r : Rebuild} {m : Recovery} {f : Frag}

/-! ## Power states (R279) -/

section
variable {t1 t2 : Nat} (hsafe : s.safe = false) (ht1 : t1 = s.fld fLDG_PS_CFG_IDLE1_US * 1000)
  (hmedia : s.hw.variant.hasMedia = true) (hserves : s.mediaServes = true) (hidle : s.mediaIdle = true) (hon : t1 ≠ 0)
include hsafe ht1 hmedia hserves hidle hon

theorem mediaIdleTimer_mps1 (hmps : s.mps = 0) (hdue : s.media.lastOp + t1 ≤ s.dtime) :
    Runs .mediaIdleTimer s (s.setFld fLDG_STATUS_MPS 1) := by
  subst ht1
  refine runs_act (execMediaIdleTimer.eq_def ..) hsafe ?_
  exact (if_neg (by simp [hmedia, hserves, hidle, hon])).trans (if_pos ⟨hmps, hdue⟩)

/-- Media in MPS1 go on to MPS2 unless a run with holdings of this device is seated. -/
theorem mediaIdleTimer_mps2 (ht2 : t2 = s.fld fLDG_PS_CFG_IDLE2_MS * 1000000) (hmps : s.mps = 1) (hon2 : t2 ≠ 0)
    (hdue : s.media.lastOp + t1 + t2 ≤ s.dtime) (hfree : s.runHolds = false) :
    Runs .mediaIdleTimer s (s.setFld fLDG_STATUS_MPS 2) := by
  subst ht1 ht2
  refine runs_act (execMediaIdleTimer.eq_def ..) hsafe ?_
  exact (if_neg (by simp [hmedia, hserves, hidle, hon])).trans
    ((if_neg (by simp [hmps])).trans (if_pos ⟨hmps, hon2, hdue, by simp [hfree]⟩))

end

theorem mediaWake_completes (hsafe : s.safe = false) : Runs .mediaWake s (s.setFld fLDG_STATUS_MPS 0).touchMedia :=
  runs_act (execMediaWake.eq_def ..) hsafe rfl

/-! ## Operations of a running controller -/

/-- A command of the running controller completes with its body's effect, and counts as a media operation. -/
theorem runs_media {i : Instr} {body : State → State} (he : exec i s = act s (fun s => s.onMedia body))
    (hsafe : s.safe = false) (hruns : s.mediaRuns = true) (ht : body s = t) : Runs i s t.touchMedia :=
  runs_act he hsafe (by rw [State.onMedia, if_pos hruns, ht])

/-! ## Blocks: reads, scans, draining, folding, erasing (R288 to R294) -/

theorem mediaPageRead_completes (result : PageRead) (hsafe : s.safe = false) (hruns : s.mediaRuns = true)
    (hblock : s.media.blocks.find? (fun b => b.num == block) = some b) :
    Runs (.mediaPageRead block result) s (s.pageRead b result).touchMedia :=
  runs_media (execMediaPageRead.eq_def ..) hsafe hruns (by simp only [hblock])

theorem retentionScan_completes {weak : Bool} (hsafe : s.safe = false) (hruns : s.mediaRuns = true)
    (hblock : s.media.blocks.find? (fun b => b.num == block) = some b)
    (hu : u = s.setMedia { s.media with blocks := s.media.blocks.map (fun x =>
      if x.num = block then { x with scanned := s.dtime } else x) }) :
    Runs (.retentionScan block weak) s (if weak then u.relocate b else u).touchMedia := by
  subst hu
  exact runs_media (execRetentionScan.eq_def ..) hsafe hruns (by simp only [hblock])

/-- Data that had committed before is programmed in arrival order. -/
theorem writeBufferDrain_committed {w : WbItem} {rest : List WbItem} (hsafe : s.safe = false) (hruns : s.mediaRuns = true)
    (hwb : s.media.wb = w :: rest) (hcmd : w.cmd = none) :
    Runs .writeBufferDrain s ((s.program w).commitDrained w).touchMedia := by
  refine runs_media (execWriteBufferDrain.eq_def ..) hsafe hruns ?_
  simp [hwb, hcmd]

theorem fold_completes (hsafe : s.safe = false) (hruns : s.mediaRuns = true)
    (hblock : s.media.blocks.find? (fun b => b.slc) = some b) : Runs .fold s (s.foldBlock b).touchMedia :=
  runs_media (execFold.eq_def ..) hsafe hruns (by simp only [hblock])

theorem relocationErase_completes {rest : List Superblock} (hsafe : s.safe = false) (hruns : s.mediaRuns = true)
    (hstale : s.media.stale = b :: rest) :
    Runs .relocationErase s (s.setMedia { s.media with stale := rest }).touchMedia :=
  runs_media (execRelocationErase.eq_def ..) hsafe hruns (by rw [hstale, List.drop_one, List.tail_cons])

/-! ## Checkpoints, resume records, the end of a flush (R287, R306, R309) -/

/-- R287: a checkpoint is due after 16 GiB of journal or 60 s. -/
theorem mapCheckpoint_due {full : Bool} (hsafe : s.safe = false) (hruns : s.mediaRuns = true)
    (hdue : full = true ∨ s.media.checkpointAt + 60 * 10 ^ 9 ≤ s.dtime) :
    Runs (.mapCheckpoint full) s s.checkpoint.touchMedia := by
  refine runs_media (execMapCheckpoint.eq_def ..) hsafe hruns (if_neg ?_)
  rintro ⟨hfull, hearly⟩
  rcases hdue with rfl | hdue
  · exact absurd hfull (by decide)
  · exact absurd hearly (Nat.not_lt.2 hdue)

theorem resumeRecordWrite_due {st : Nat} (readBack : Bool) (hsafe : s.safe = false) (hdue : s.media.resumeDue = some st) :
    Runs (.resumeRecordWrite readBack) s
      (s.setMedia { s.media.writeResume (s.media.nextResume st) (!readBack) with resumeDue := none }) :=
  runs_act (execResumeRecordWrite.eq_def ..) hsafe (by simp only [hdue])

theorem State.safe_setFld_other (s : State) (x : Fld) (n : Nat) (h : fFLT_STATUS_GRAVE.addr ≠ x.addr) :
    (s.setFld x n).safe = s.safe := by
  rw [State.safe, State.fld_setFld_addr _ _ _ _ h, State.safe]

/-- The end of a flush touches no register but those of the write buffer. -/
theorem State.endFlush_safe (s : State) (bad : Bool) : (s.endFlush bad).safe = s.safe := by
  unfold State.endFlush State.refreshWb
  rw [State.safe_setFld_other _ _ _ (by decide), State.safe_setFld_other _ _ _ (by decide)]
  rfl

theorem State.endFlush_mod (s : State) (bad : Bool) : (s.endFlush bad).mod = s.mod := by
  simp [State.endFlush, State.refreshWb, State.setMedia]

/-- R306: outside the safe state and with no reset waiting, the end of the flush has no further effect. -/
theorem flushComplete_plain (readBack : Bool) (hflush : s.media.flushing.isSome = true) (hsafe : s.safe = false)
    (hreset : s.mod.resetDue = false) : Runs (.flushComplete readBack) s (s.endFlush (!readBack)) := by
  refine runs_always (execFlushComplete.eq_def ..) ?_
  rw [if_neg (by simp [← Option.not_isSome, hflush])]
  simp [State.endFlush_safe, State.endFlush_mod, hsafe, hreset]

/-! ## Die loss and rebuilds (R295, R296) -/

theorem dieLost_completes {channel : Fin 96} {die : Fin 16} (hsafe : s.safe = false) (hserves : s.mediaServes = true)
    (hpresent : s.diePresent channel die = true) : Runs (.dieLost channel die) s (s.retireDie channel die) :=
  runs_act (execDieLost.eq_def ..) hsafe (if_neg (by simp [hserves, hpresent]))

/-- A superblock whose pages all read is rebuilt elsewhere. -/
theorem superblockRebuilt_next {group : Fin 192} (hsafe : s.safe = false) (hruns : s.mediaRuns = true)
    (hrebuild : Map.find s.media.rebuilds group = some r) (hnext : s.nextRebuild group = some b) (honce : r.double = false) :
    Runs (.superblockRebuilt group false) s (s.relocate b).touchMedia := by
  refine runs_media (execSuperblockRebuilt.eq_def ..) hsafe hruns ?_
  simp only [hrebuild, hnext, honce]
  rfl

/-- With nothing left to rebuild the group's rebuild ends; with no rebuild left, DEGRADED media are READY. -/
theorem superblockRebuilt_last {group : Fin 192} (hsafe : s.safe = false) (hruns : s.mediaRuns = true)
    (hrebuild : Map.find s.media.rebuilds group = some r) (hnext : s.nextRebuild group = none)
    (hu : u = (s.setMedia { s.media with rebuilds := Map.del s.media.rebuilds group }).setFld fMED_STATUS_REBUILDS
      (s.fld fMED_STATUS_REBUILDS - 1)) :
    Runs (.superblockRebuilt group false) s
      (if u.mediaSt = msDEGRADED ∧ (Map.del s.media.rebuilds group).isEmpty then u.setFld fMED_STATUS_STATE msREADY
       else u).touchMedia := by
  subst hu
  refine runs_media (execSuperblockRebuilt.eq_def ..) hsafe hruns ?_
  simp only [hrebuild, hnext]

/-! ## Pod-level recovery (R301) -/

theorem podRecoveryStart_completes {tag stripe n off len : Nat} {rest : List (Nat × Nat × Nat × Nat × Nat)}
    (hsafe : s.safe = false) (hruns : s.mediaRuns = true) (hlost : s.media.lostQueue = (tag, stripe, n, off, len) :: rest)
    (hu : u = s.setMedia { s.media with lostQueue := rest }) (hfrag : u.findFrag tag stripe n = some f)
    (hasked : (List.range 11).foldl (fun (x : Recovery × State) i => x.2.askFragment f x.1 i)
      ({ tag := tag, stripe := stripe, num := n, off := off, len := len, asked := [] }, u) = (m, v)) :
    Runs .podRecoveryStart s (v.setMedia { v.media with recoveries := v.media.recoveries ++ [m] }).touchMedia := by
  subst hu
  refine runs_media (execPodRecoveryStart.eq_def ..) hsafe hruns ?_
  simp only [hlost, hfrag, hasked]

theorem podRecoveryComplete_recovered {got : Fin 4096} {rest : List Recovery} {d : Bytes} (hsafe : s.safe = false)
    (hruns : s.mediaRuns = true) (hrecovery : s.media.recoveries = m :: rest)
    (hfrag : s.findFrag m.tag m.stripe m.num = some f)
    (hbytes : recoverFragment m.len m.num (s.recovered f m got) = some d) :
    Runs (.podRecoveryComplete got) s
      ((((s.mendFragment f m d).endRecovery m).flag fMED_ERR_POD_RECOVERED).raise srcMEDIA stMED_POD_RECOVERED 0 noCtx
        .f1).touchMedia := by
  refine runs_media (execPodRecoveryComplete.eq_def ..) hsafe hruns ?_
  simp only [hrecovery, hfrag, hbytes]

/-! ## Health (R303, R304) -/

/-- R303: a condition that arises while its bit is clear is flagged and raised. -/
theorem mediaHealthEvent_arises {event : HealthEvent} {i : Nat} (hsafe : s.safe = false) (hserves : s.mediaServes = true)
    (hmeasure : s.measureHealth event = (i, true, u)) (hclear : u.fld (fMED_ERR_HEALTH_WEAR.bit i) = 0)
    (hbefore : bitOf u.media.health i = false) :
    Runs (.mediaHealthEvent event) s
      (((u.setMedia { u.media with health := putBits u.media.health i 1 1 }).flag (fMED_ERR_HEALTH_WEAR.bit i)).raise srcMEDIA
        stMED_HEALTH 0 noCtx .f0) := by
  refine runs_act (execMediaHealthEvent.eq_def ..) hsafe ?_
  rw [if_neg (by simp [hserves]), hmeasure]
  exact if_pos ⟨rfl, by simp [hbefore], hclear⟩

theorem mediaReadOnly_completes (hsafe : s.safe = false) (hwrites : s.mediaWrites = true)
    (hspare : s.fld fMED_HEALTH_SPARE_PCT < 2) : Runs .mediaReadOnly s (s.setFld fMED_STATUS_STATE msREAD_ONLY) :=
  runs_act (execMediaReadOnly.eq_def ..) hsafe (if_pos (by simp [hwrites, hspare]))

end

/-- Settles O21: each command finds what its rule asks for, which the lemmas above show one by one. -/
theorem mediaCompletes : Obligations.MediaCompletes :=
  ⟨fun _ _ _ hsafe ht1 ht2 hmedia hserves hidle hon =>
      ⟨mediaIdleTimer_mps1 hsafe ht1 hmedia hserves hidle hon, mediaIdleTimer_mps2 hsafe ht1 hmedia hserves hidle hon ht2⟩,
    fun _ => mediaWake_completes, fun readBack _ _ => resumeRecordWrite_due readBack,
    fun _ result _ _ => mediaPageRead_completes result, fun _ _ _ _ _ => retentionScan_completes,
    fun _ _ => mapCheckpoint_due, fun _ _ _ => writeBufferDrain_committed, fun _ _ => fold_completes,
    fun _ _ _ => relocationErase_completes, fun _ _ _ => dieLost_completes, fun _ _ _ _ => superblockRebuilt_next,
    fun _ _ _ _ => superblockRebuilt_last, fun _ _ _ _ _ _ _ _ _ _ _ => podRecoveryStart_completes,
    fun _ _ _ _ _ _ => podRecoveryComplete_recovered,
    fun _ _ _ _ hsafe hserves hmeasure _ _ hclear hbefore => mediaHealthEvent_arises hsafe hserves hmeasure hclear hbefore,
    fun _ => mediaReadOnly_completes, fun readBack _ => flushComplete_plain readBack⟩

end Sys2Proof.Machine
end

section
/-!
PROOFS. The Lantern's heartbeats, losses, views and joins (R302, R402 to R407): each command in the state that its rule asks
for has the effect of the rule.
-/
namespace Sys2Proof.Machine

section
variable {s u : State} {m : LanMsg} {pos : Nat}

/-! ## Heartbeats (R402, R404) -/

/-- R402: 250 µs after the last one, a joined device sends its heartbeat to its keepers, and a keeper also to its members and
the other keepers. -/
theorem heartbeatSend_completes {flags : Nat} {dests : List Nat} (hsafe : s.safe = false) (hjoined : s.lan.joined = true)
    (hdue : s.lan.beatAt + 250000 ≤ s.dtime)
    (hflags : flags = (if s.lan.fwAlive then 1 else 0) + (if s.isKeeper then 2 else 0) + (if s.isCoord then 4 else 0))
    (hdests : dests = ((s.ownKeepers ++
      (if s.isKeeper then s.lan.view.members s.ownPod ++ s.otherKeepers else [])).eraseDups).filter (· != noKeeper))
    (hu : u = s.sendAll dests lkHEARTBEAT 0xFF s.lastStep flags 0 []) :
    Runs .heartbeatSend s (u.setLan { u.lan with beatAt := u.dtime }) := by
  subst hu hflags hdests
  exact runs_act (execHeartbeatSend.eq_def ..) hsafe (if_neg (by simp [hjoined, hdue]))

/-- R404: a heartbeat restarts its sender's silence timer and shows whether its firmware is alive. -/
theorem heartbeatReceive_completes (hsafe : s.safe = false) (hjoined : s.lan.joined = true) (hkind : m.kind = lkHEARTBEAT) :
    Runs (.heartbeatReceive m) s
      (s.setPeer m.sender ((Map.getD s.lan.peers m.sender (PeerRec.fresh s.dtime)).beat s.dtime (bitOf m.arg1 0))) :=
  runs_act (execHeartbeatReceive.eq_def ..) hsafe (if_neg (by simp [hjoined, hkind]))

/-! ## Losses (R403, R404, R406) -/

/-- R403: a watched peer that was silent for 2 ms is lost. -/
theorem peerSilence_completes (hsafe : s.safe = false) (hjoined : s.lan.joined = true)
    (hwatched : s.watched.contains pos = true) (hwatchable : (s.peerRec pos).watchable = true)
    (hdue : (s.peerRec pos).lastBeat + 2000000 ≤ s.dtime) : Runs (.peerSilence pos) s (s.losePeer pos 0) :=
  runs_act (execPeerSilence.eq_def ..) hsafe
    (if_pos (by simp [hjoined, hwatched, hwatchable, hdue, -List.contains_eq_mem]))

/-- R403: a watched peer that gives notice of its loss is lost. -/
theorem deviceLostReceive_completes (hsafe : s.safe = false) (hkind : m.kind = lkDEVICE_LOST)
    (hjoined : s.lan.joined = true) (hwatched : s.watched.contains m.sender = true)
    (hwatchable : (s.peerRec m.sender).watchable = true) : Runs (.deviceLostReceive m) s (s.losePeer m.sender 3) :=
  runs_act (execDeviceLostReceive.eq_def ..) hsafe
    (if_pos (by simp [hkind, hjoined, hwatched, hwatchable, -List.contains_eq_mem]))

/-- R404: a keeper reports a peer that has been HUNG for HANG_MS. -/
theorem hangTimeout_completes (hsafe : s.safe = false) (hkeeper : s.isKeeper = true)
    (hwatched : s.watched.contains pos = true) (hhung : (s.peerRec pos).state = .hung)
    (hdue : (s.peerRec pos).since + s.fld fNET_LAN_CFG_HANG_MS * 1000000 ≤ s.dtime) :
    Runs (.hangTimeout pos) s (s.losePeer pos 1) :=
  runs_act (execHangTimeout.eq_def ..) hsafe
    (if_pos (by simp [hkeeper, hwatched, hhung, hdue, -List.contains_eq_mem]))

/-- A live position that nobody has reported yet joins the reports, and the first one starts the gathering. -/
theorem State.gather_first {reason : Nat} (hlive : s.lan.view.live.contains pos = true)
    (hnew : s.lan.reports.any (fun e => e.1 == pos) = false) :
    s.gather pos reason = s.setLan { s.lan with
      reports := s.lan.reports ++ [(pos, reason)], gatherAt := some (s.lan.gatherAt.getD s.dtime) } := by
  rw [State.gather, hlive, hnew]
  rfl

theorem lossReportReceive_completes (hsafe : s.safe = false) (hkind : m.kind = lkLOSS_REPORT) (hcoord : s.isCoord = true)
    (hlive : s.lan.view.live.contains m.arg0 = true) (hnew : s.lan.reports.any (fun e => e.1 == m.arg0) = false) :
    Runs (.lossReportReceive m) s (s.setLan { s.lan with
      reports := s.lan.reports ++ [(m.arg0, m.arg1)], gatherAt := some (s.lan.gatherAt.getD s.dtime) }) :=
  runs_act (execLossReportReceive.eq_def ..) hsafe
    ((if_pos ⟨hkind, hcoord⟩).trans (State.gather_first hlive hnew))

/-! ## Views (R406, R407) -/

/-- R406: after 100 µs of gathering, the coordinator proposes the next view without the reported positions. -/
theorem viewPropose_completes {since : Nat} {removed : List Nat} {v : View} (hsafe : s.safe = false)
    (hgather : s.lan.gatherAt = some since) (hnone : s.lan.proposal = none) (hcoord : s.isCoord = true)
    (hdue : since + 100000 ≤ s.dtime)
    (hremoved : removed = (s.lan.reports.map (·.1)).filter (s.lan.view.live.contains ·))
    (hv : v = s.lan.view.without removed)
    (hu : u = s.setLan { s.lan with
      gatherAt := none, proposal := some { view := v, removed := removed, acks := [s.ownPod] } }) :
    Runs .viewPropose s (u.sendAll v.actives lkVIEW_PROPOSE 0xFF v.num 0 0 (viewBody removed v)).tryCommit := by
  subst hu hv hremoved
  refine runs_act (execViewPropose.eq_def ..) hsafe ?_
  simp only [hgather, hnone]
  exact if_neg (by simp [hcoord, hdue])

/-- R406: the active keeper that the next view names for its pod acknowledges the proposal. -/
theorem viewProposeReceive_completes {v : View} {gone : List Nat} (hsafe : s.safe = false) (hkind : m.kind = lkVIEW_PROPOSE)
    (hjoined : s.lan.joined = true) (hnext : m.arg0 = s.lan.view.num + 1)
    (happly : s.lan.view.apply m.arg0 m.body = (v, gone)) (hactive : v.active s.ownPod = some s.self) :
    Runs (.viewProposeReceive m) s (s.sendLan m.sender lkVIEW_ACK 0xFF m.arg0 0 0 []) := by
  refine runs_act (execViewProposeReceive.eq_def ..) hsafe ?_
  rw [if_neg (by simp [hkind, hjoined, hnext]), happly]
  exact if_pos hactive

/-- R406: the coordinator counts the acknowledging pod, once, and commits if it now has a majority. -/
theorem viewAckReceive_completes {p : Proposal} (hsafe : s.safe = false) (hopen : s.lan.proposal = some p)
    (hkind : m.kind = lkVIEW_ACK) (hnum : m.arg0 = p.view.num) :
    Runs (.viewAckReceive m) s
      (s.setLan { s.lan with proposal := some { p with acks := (p.acks ++ [podOf m.sender]).eraseDups } }).tryCommit := by
  refine runs_act (execViewAckReceive.eq_def ..) hsafe ?_
  simp only [hopen]
  exact if_neg (by simp [hkind, hnum])

/-- R406: a device takes a newer view; a keeper, of the old view or of the new, relays it first. -/
theorem viewCommitReceive_completes {v : View} {gone : List Nat} (hsafe : s.safe = false) (hkind : m.kind = lkVIEW_COMMIT)
    (hjoined : s.lan.joined = true) (hnewer : s.lan.view.num < m.arg0)
    (happly : s.lan.view.apply m.arg0 m.body = (v, gone)) :
    Runs (.viewCommitReceive m) s
      (State.takeView (if s.isKeeper || v.isKeeper s.self then s.relayView s.lan.view m.arg0 m.body else s) v gone) := by
  refine runs_act (execViewCommitReceive.eq_def ..) hsafe ?_
  rw [if_neg (by simp [hkind, hjoined, hnewer])]
  simp only [happly]

/-- R407: 6 ms without a commit leave the device without a quorum, which each of its runs is told. -/
theorem quorumTimeout_completes {since : Nat} (hsafe : s.safe = false) (hwait : s.lan.waitCommit = some since)
    (hdue : since + 6000000 ≤ s.dtime)
    (hu : u = (s.setLan { s.lan with waitCommit := none, noQuorum := true }).flag fNET_LAN_ERR_NO_QUORUM) :
    Runs .quorumTimeout s (u.runCtxs.foldl (fun s c => s.raise srcROCE stLAN_NO_QUORUM 0 c .f2) u) := by
  subst hu
  refine runs_act (execQuorumTimeout.eq_def ..) hsafe ?_
  simp only [hwait]
  exact if_neg (Nat.not_lt.2 hdue)

/-! ## Joining a pod (R302) -/

theorem podJoin_own {v : View} {media : List Nat} (hsafe : s.safe = false) (houtside : s.lan.joined = false) :
    Runs (.podJoin (.own pos v media)) s (s.joinSelf pos v media) :=
  runs_act (execPodJoin.eq_def (.own ..) _) hsafe (if_neg (by simp [houtside]))

theorem podJoin_other {hasMedia : Bool} (hsafe : s.safe = false) (hjoined : s.lan.joined = true) (hother : pos ≠ s.self) :
    Runs (.podJoin (.other pos hasMedia)) s (s.joinOther pos hasMedia) :=
  runs_act (execPodJoin.eq_def (.other ..) _) hsafe (if_pos ⟨hjoined, hother⟩)

end

/-- Settles O22: each command passes its checks, which the lemmas above show clause by clause; WATCHDOG_KICK has none. -/
theorem lanternViewsComplete : Obligations.LanternViewsComplete := by
  refine ⟨fun _ _ s hsafe hjoined hdue hflags hdests => ?_, fun _ _ => heartbeatReceive_completes,
    fun _ _ => peerSilence_completes, fun _ _ => deviceLostReceive_completes, fun _ _ => hangTimeout_completes,
    fun m s hsafe hkind hcoord hlive hnew => ?_, fun _ _ _ _ _ => viewPropose_completes,
    fun _ _ _ _ => viewProposeReceive_completes, fun _ _ _ => viewAckReceive_completes,
    fun _ _ _ _ => viewCommitReceive_completes, fun _ _ _ => quorumTimeout_completes, fun _ _ _ _ => podJoin_own,
    fun _ _ _ => podJoin_other, fun s hsafe => ?_⟩
  · exact ⟨_, rfl, heartbeatSend_completes hsafe hjoined hdue hflags hdests rfl⟩
  · exact ⟨_, lossReportReceive_completes hsafe hkind hcoord hlive hnew, rfl, rfl, rfl⟩
  · exact ⟨_, runs_act (execWatchdogKick.eq_def ..) hsafe rfl, rfl, rfl⟩

end Sys2Proof.Machine
end

section
/-!
PROOFS. The dies of a die group (R283). A group's number is the die's number in its channel times 12, or 6, plus the channel's
place in its run of that many channels; quotient and remainder of the division give the die and the channels back.
-/
namespace Sys2Proof.Machine

/-- A channel's place is less than the count of places, so the sum is the one division of g with remainder. -/
theorem mul_add_mod_eq_iff {n : Nat} (hn : 0 < n) (die ch g : Nat) :
    die * n + ch % n = g ↔ die = g / n ∧ ch % n = g % n := by
  rw [eq_comm (a := die), eq_comm (a := ch % n) (b := g % n), Nat.div_mod_unique hn, and_iff_left (Nat.mod_lt ch hn),
    Nat.add_comm, Nat.mul_comm]

section
variable {s : State} (ch die g : Nat)

theorem State.groupOf_a_iff (ha : s.hw.variant = .a) : s.groupOf ch die = g ↔ die = g / 12 ∧ ch % 12 = g % 12 := by
  rw [← mul_add_mod_eq_iff (by decide), State.groupOf, ha]
  rfl

theorem State.groupOf_b_iff (hb : s.hw.variant = .b) : s.groupOf ch die = g ↔ die = g / 6 ∧ ch % 6 = g % 6 := by
  rw [← mul_add_mod_eq_iff (by decide), State.groupOf, hb]
  rfl

end

/-- On an OF-HX1-A a carrier has 12 channels, one of each place. -/
theorem place_iff_carrier_a {ch : Nat} (g : Nat) (hch : ch < 96) : ch % 12 = g % 12 ↔ ∃ c, c < 8 ∧ ch = 12 * c + g % 12 := by
  constructor
  · exact fun h => ⟨ch / 12, by omega, by omega⟩
  · rintro ⟨c, -, hc⟩
    omega

/-- On an OF-HX1-B a carrier has 12 channels, two of each of the 6 places. -/
theorem place_iff_carrier_b {ch : Nat} (g : Nat) (hch : ch < 48) :
    ch % 6 = g % 6 ↔ ∃ c, c < 4 ∧ (ch = 12 * c + g % 6 ∨ ch = 12 * c + g % 6 + 6) := by
  constructor
  · exact fun h => ⟨ch / 12, by omega, by omega⟩
  · rintro ⟨c, -, hc | hc⟩ <;> omega

theorem State.groups_a {s : State} (ha : s.hw.variant = .a) : s.groups = 12 * s.diesPerChannel := by
  rw [State.groups, ha, Variant.channels]
  omega

theorem State.groups_b {s : State} (hb : s.hw.variant = .b) : s.groups = 6 * s.diesPerChannel := by
  rw [State.groups, hb, Variant.channels]
  omega

/-- Settles O55: the group's number gives the die and the channels' place, and each carrier has the channels of that place. -/
theorem dieGroupsSpanTheCarriers : Obligations.DieGroupsSpanTheCarriers := by
  refine ⟨fun s g ch die ha hch _ => ?_, fun s g ch die hb hch _ => ?_, fun _ => State.groups_a, fun _ => State.groups_b⟩
  · rw [State.groupOf_a_iff ch die g ha, place_iff_carrier_a g hch, and_comm]
    simp only [← exists_and_right, and_assoc]
  · rw [State.groupOf_b_iff ch die g hb, place_iff_carrier_b g hch]

end Sys2Proof.Machine
end

section
/-!
PROOFS. The queue of commands (log entries 2, 3, 16): every command has its effect through `act` or `always`, so that a step
takes one command off the queue and answers, and the safe state ignores all but the commands of the second form.
-/
namespace Sys2Proof.Machine

/-- The form of every command's meaning: only commands that act in the safe state use `always`. -/
theorem exec_form (c : Instr) :
    (∃ f, ∀ s, exec c s = act s f) ∨ (actsInSafe c = true ∧ ∃ f, ∀ s, exec c s = always s f) := by
  cases c
  case rcRegisterRead | lowerHalfRead | upperHalfRead | errorLineEvent | eventCommit | faultCommit | safeStopEdge
      | safeStopQualify | discrepancyTimeout | flushComplete | mctpRequest | p54vRemove | p3v3StbyRemove | railApply
      | pwrGoodFall | pwrGoodRise | holdupOkFall | holdupOkRise | holdupMeasure | thermalSample | pllUnlock
      | cdcSyncTimeout | cdcUncorrected => exact .inr ⟨rfl, _, fun _ => rfl⟩
  all_goals exact .inl ⟨_, fun _ => rfl⟩

/-- Settles O24: `step` takes the front command and runs its meaning. -/
theorem stepRunsTheFrontCommand : Obligations.StepRunsTheFrontCommand := fun _ _ _ => rfl

/-- Settles O26: both forms answer a state that keeps the fuses and the queue. -/
theorem everyCommandAnswers : Obligations.EveryCommandAnswers := by
  intro c s
  rcases exec_form c with ⟨f, hf⟩ | ⟨-, f, hf⟩
  · rw [hf]
    exact act_keeps s f
  · rw [hf]
    exact always_keeps s f

theorem run_succ_of_next {M : Host.Core} {n : Nat} {s t : M.State} (h : M.step s = .next t) :
    M.run (n + 1) s = M.run n t := by
  simp only [Host.Core.run, h]

/-- Settles O27, by induction on the number of steps: each takes the front command, which answers and keeps the rest. -/
theorem commandsRunFirstInFirstOut : Obligations.CommandsRunFirstInFirstOut := by
  intro n
  induction n with
  | zero => exact fun s _ => ⟨s, rfl, rfl, rfl⟩
  | succ n ih =>
    intro s hlen
    cases hpending : s.pending with
    | nil => simp [hpending] at hlen
    | cons c rest =>
      obtain ⟨t, ht, htHw, htPending⟩ := everyCommandAnswers c { s with pending := rest }
      obtain ⟨u, hu, huPending, huHw⟩ := ih t (by rw [htPending]; simpa [hpending] using hlen)
      have hstep : step s = .next t := by
        rw [step, hpending]
        exact ht
      refine ⟨u, (run_succ_of_next (M := core) hstep).trans hu, ?_, huHw.trans htHw⟩
      rw [huPending, htPending]
      rfl

/-- Settles O29: a command that does not act in the safe state is of the first form, which the safe state ignores. -/
theorem safeStateIgnoresCommands : Obligations.SafeStateIgnoresCommands := by
  intro c s hsafe hacts
  rcases exec_form c with ⟨f, hf⟩ | ⟨hc, -⟩
  · rw [hf, act_safe f hsafe]
  · rw [hc] at hacts
    cases hacts

end Sys2Proof.Machine
end

section
/-!
PROOFS. The safe state (R396, R397): the commands that act in it write registers beside GRAVE, error lines, records and the
blocks of power, media and clocks, so that nothing starts to run again. A reading of 105 degrees still lowers the duty of the
tiles (R451), which one of the statements denies.
-/
namespace Sys2Proof.Machine

/-! ## The safe state is one bit of FLT_STATUS -/

theorem State.safe_of_status {s t : State} (h : t.reg aFLT_STATUS = s.reg aFLT_STATUS) : t.safe = s.safe :=
  congrArg (fun n => bitsOf n 2 1 == 1) h

/-- The field is another than GRAVE: in another register, or above GRAVE in FLT_STATUS. -/
def Fld.sparesGrave (f : Fld) : Bool := aFLT_STATUS != f.addr || (3 ≤ f.lo && f.lo + f.width ≤ 64)

theorem Fld.sparesGrave_of_addr {f : Fld} (h : aFLT_STATUS ≠ f.addr) : f.sparesGrave = true := by
  simp [Fld.sparesGrave, h]

theorem State.safe_setFld {f : Fld} (hf : f.sparesGrave = true) (s : State) (v : Nat) : (s.setFld f v).safe = s.safe := by
  simp only [Fld.sparesGrave, Bool.or_eq_true, bne_iff_ne, Bool.and_eq_true, decide_eq_true_eq] at hf
  rcases hf with haddr | ⟨habove, hwidth⟩
  · exact State.safe_setFld_other s f v haddr
  · exact congrArg (· == 1) (State.fld_setFld_other s f fFLT_STATUS_GRAVE v hwidth (.inr (.inl habove)))

/-- Registers of the collector that have one reset value on every variant. -/
def collectorRegs : List Nat := [aFLT_STATUS, aFLT_CTRL, aFLT_COUNT_F2345]

theorem regReset_collector (f : Fuses) {a : Nat} (ha : a ∈ collectorRegs) : regReset f a = 0#64 := by
  have hpresent : ∀ b ∈ collectorRegs, regAbsent f.variant b = false := by cases f.variant <;> decide
  rw [regReset, if_neg (by simp [hpresent a ha])]
  simp only [collectorRegs, List.mem_cons, List.not_mem_nil, or_false] at ha
  obtain rfl | rfl | rfl := ha <;> rfl

/-- What a command leaves shows the collector's registers of its effect, whatever the fuses. -/
theorem State.reg_commit_collector (s t : State) {a : Nat} (ha : a ∈ collectorRegs) : (s.commit t).reg a = t.reg a := by
  simp only [State.reg, regReset_collector _ ha, State.commit_regs]

/-- No field of FLT_STATUS is cleared by a read. -/
theorem State.status_clearRead (s : State) (a mask : Nat) : (s.clearRead a mask).reg aFLT_STATUS = s.reg aFLT_STATUS := by
  by_cases ha : a = aFLT_STATUS
  · have hsame : s.clearRead aFLT_STATUS mask = s.putReg aFLT_STATUS (s.reg aFLT_STATUS) := rfl
    rw [ha, hsame, State.reg_putReg_same, Nat.mod_eq_of_lt (s.reg_lt _)]
  · rcases s.clearRead_eq a mask with hsame | ⟨v, hput⟩
    · rw [hsame]
    · rw [hput, State.reg_putReg_other _ _ (Ne.symm ha)]

theorem FClass.counter_sparesGrave (c : FClass) : c.counter.sparesGrave = true := by
  cases c <;> rfl

theorem Fld.sparesGrave_of_high {f : Fld} (h : 0x100000 ≤ f.addr) : f.sparesGrave = true :=
  Fld.sparesGrave_of_addr (by rw [aFLT_STATUS]; omega)

theorem correctedCounter_sparesGrave {src : Nat} {f : Fld} (h : correctedCounter src = some f) : f.sparesGrave = true := by
  refine Fld.sparesGrave_of_high ?_
  unfold correctedCounter at h
  split_ifs at h <;> obtain rfl := Option.some.inj h
  iterate 5 · decide
  · exact Nat.le_add_right_of_le (by decide)

/-! ## A quiet safe state, and what keeps it -/

/-- The safe state with nothing running: what an F5 leaves. -/
structure State.Halted (s : State) : Prop where
  safe : s.safe = true
  quiet : s.quiet = true

theorem State.quiet_congr {s t : State} (hnet : t.net = s.net) (hdice : t.dice = s.dice) (htiles : t.tiles = s.tiles) :
    t.quiet = s.quiet := by
  simp only [State.quiet, hnet, hdice, htiles]

/-- A lower duty starts nothing. -/
theorem State.quiet_hardLimit (s : State) : s.hardLimit.quiet = s.quiet := by
  simp [State.hardLimit, State.quiet, Map.mapVals, Function.comp_def]

namespace State.Halted
variable {s t : State}

theorem ite {p : Prop} [Decidable p] (hs : s.Halted) (ht : t.Halted) : (if p then s else t).Halted := by
  split
  · exact hs
  · exact ht

theorem safe_ite (h : s.Halted) (t : State) : (if s.safe then s else t).Halted := by
  rw [if_pos h.safe]
  exact h

/-- An update of the blocks that neither hold the registers nor run anything. -/
theorem of_eq (h : s.Halted) (hhw : t.hw = s.hw) (hregs : t.regs = s.regs) (hnet : t.net = s.net) (hdice : t.dice = s.dice)
    (htiles : t.tiles = s.tiles) : t.Halted :=
  ⟨(State.safe_of_status (State.reg_congr hhw hregs _)).trans h.safe, (State.quiet_congr hnet hdice htiles).trans h.quiet⟩

theorem setFld (h : s.Halted) {f : Fld} (hf : f.sparesGrave = true) (v : Nat) : (s.setFld f v).Halted :=
  ⟨(State.safe_setFld hf s v).trans h.safe, h.quiet⟩

theorem flag (h : s.Halted) {f : Fld} (hf : f.sparesGrave = true) : (s.flag f).Halted := h.setFld hf 1
theorem unflag (h : s.Halted) {f : Fld} (hf : f.sparesGrave = true) : (s.unflag f).Halted := h.setFld hf 0
theorem bump (h : s.Halted) {f : Fld} (hf : f.sparesGrave = true) (n : Nat) : (s.bump f n).Halted := h.setFld hf _

theorem emit (h : s.Halted) (o : Out) : (s.emit o).Halted := h.of_eq rfl rfl rfl rfl rfl
theorem used (h : s.Halted) : s.used.Halted := h.of_eq rfl rfl rfl rfl rfl
theorem setFlt (h : s.Halted) (x : FaultState) : (s.setFlt x).Halted := h.of_eq rfl rfl rfl rfl rfl
theorem raise (h : s.Halted) (src : Nat) (st : Status) (unit ctx : Nat) (cls : FClass) :
    (s.raise src st unit ctx cls).Halted := h.of_eq rfl rfl rfl rfl rfl
theorem setMod (h : s.Halted) (x : ModState) : (s.setMod x).Halted := h.of_eq rfl rfl rfl rfl rfl
theorem setPwr (h : s.Halted) (x : PowerState) : (s.setPwr x).Halted := h.of_eq rfl rfl rfl rfl rfl
theorem setClock (h : s.Halted) (x : ClockState) : (s.setClock x).Halted := h.of_eq rfl rfl rfl rfl rfl
theorem setMedia (h : s.Halted) (x : MediaState) : (s.setMedia x).Halted := h.of_eq rfl rfl rfl rfl rfl

theorem commit (h : t.Halted) (s : State) : (s.commit t).Halted :=
  ⟨(State.safe_of_status (s.reg_commit_collector t (by decide))).trans h.safe, h.quiet⟩

/-! ## Register reads (R397, R427) -/

theorem clearRead (h : s.Halted) (a mask : Nat) : (s.clearRead a mask).Halted := by
  refine ⟨(State.safe_of_status (s.status_clearRead a mask)).trans h.safe, ?_⟩
  rcases s.clearRead_eq a mask with hsame | ⟨v, hput⟩
  · rw [hsame]
    exact h.quiet
  · rw [hput]
    exact h.quiet

theorem hostRead (h : s.Halted) (x : Access1) : (s.hostRead x).Halted := by
  have hdrop : (s.dropLatch x.fn).Halted := h.of_eq rfl rfl rfl rfl rfl
  have hclear := hdrop.clearRead x.addr x.mask
  have hkeep : ∀ l, State.Halted { (s.dropLatch x.fn).clearRead x.addr x.mask with
      host := { ((s.dropLatch x.fn).clearRead x.addr x.mask).host with latches := l } } :=
    fun l => hclear.of_eq rfl rfl rfl rfl rfl
  exact ite h <| ite (hdrop.emit _) <| ite ((hdrop.flag (f := fGLB_STATUS_BAD_ACCESS) (by decide)).emit _) <|
    ite (hdrop.emit _) <| ite (hclear.emit _) <| ite (hclear.emit _) ((hkeep _).emit _)

/-! ## The collector (R382 to R384, R398) -/

theorem commitEvent (h : s.Halted) : s.commitEvent.Halted := by
  unfold State.commitEvent
  split
  · exact h
  · exact h.setFlt _

theorem postEvent (h : s.Halted) (ctx type : Nat) (record : Bytes) : (s.postEvent ctx type record).Halted :=
  h.of_eq rfl rfl rfl rfl rfl

theorem record (h : s.Halted) (e : ErrEvent) (applied : FClass) (esc cons first : Bool) :
    (s.record e applied esc cons first).Halted :=
  ite ((((h.setFlt _).bump applied.counter_sparesGrave 1).postEvent ..).postEvent ..)
    (((h.setFlt _).bump applied.counter_sparesGrave 1).postEvent ..)

theorem showFaultOut (h : s.Halted) : s.showFaultOut.Halted :=
  ite h ((h.setFld (f := fFLT_STATUS_FAULT_OUT) (by decide) _).emit _)

theorem takeFault (h : s.Halted) : s.takeFault.Halted := by
  unfold State.takeFault
  cases s.flt.committed with
  | nil => exact h
  | cons e es =>
    have hnext := h.setFlt { s.flt with committed := es }
    dsimp only
    rw [State.applyFault, if_pos hnext.safe, if_pos hnext.safe]
    cases e.kind with
    | fault => exact (hnext.record ..).showFaultOut
    | ackF3 | ackF4 | ackF2 => exact hnext.showFaultOut

/-! ## The SAFE_STOP monitor (R394, R395) -/

theorem setChannel (h : s.Halted) (p : Pin) (c : Channel) : (s.setChannel p c).Halted := by
  cases p <;> exact h.setFlt _

theorem showChannels (h : s.Halted) : s.showChannels.Halted :=
  (((h.setFld (by decide) _).setFld (by decide) _).setFld (by decide) _).setFld (by decide) _

theorem collectorEvent (h : s.Halted) (kind : EventKind) (st : Status) (unit ctx : Nat) (cls : FClass) (disc : Bool) :
    (s.collectorEvent kind st unit ctx cls disc).Halted := h.setFlt _

theorem demand (h : s.Halted) (disc : Bool) (skew : Nat) : (s.demand disc skew).Halted :=
  ((h.setFlt _).setFld (by decide) _).collectorEvent ..

theorem loneDemand (h : s.Halted) (disc : Bool) : (s.loneDemand disc).Halted := h.used.demand disc _

theorem disagree (h : s.Halted) : s.disagree.Halted :=
  ((((h.setFlt _).used.setFld (by decide) _).bump (by decide) _).flag (by decide)).collectorEvent ..

theorem timerFirst (h : s.Halted) : s.timerFirst.Halted := by
  unfold State.timerFirst
  split
  · exact ite (h.loneDemand true) h
  · exact h

theorem qualified (h : s.Halted) (p : Pin) : (s.qualified p).Halted :=
  have hfirst := h.timerFirst
  ite (ite hfirst <| ite (hfirst.demand ..) <| ite (hfirst.loneDemand false) (hfirst.setFlt _))
    (ite hfirst <| ite (hfirst.setFlt _).disagree (hfirst.setFlt _))

theorem monitorStart (h : s.Halted) : s.monitorStart.Halted :=
  ite (h.showChannels.loneDemand false) (ite (h.showChannels.loneDemand false) h.showChannels)

/-! ## Error lines (R382) -/

theorem memoryFault (h : s.Halted) (src unit : Nat) (cls : FClass) : (s.memoryFault src unit cls).Halted := h.used.raise ..

theorem refreshWb (h : s.Halted) : s.refreshWb.Halted := (h.setFld (by decide) _).setFld (by decide) _

theorem abortQueue (h : s.Halted) (n : Nat) : (s.abortQueue n).Halted := by
  unfold State.abortQueue
  split
  · exact h
  · exact State.Halted.refreshWb (h.of_eq rfl rfl rfl rfl rfl)

theorem onLine (h : s.Halted) (e : LineEvent) : (s.onLine e).Halted := by
  cases e with
  | event src unit ctx st cls => exact ite (h.raise ..) h
  | corrected src unit =>
    refine ite h ?_
    cases hc : correctedCounter src with
    | none => exact h.memoryFault ..
    | some f => exact (h.bump (correctedCounter_sparesGrave hc) 1).memoryFault ..
  | packer | innkeeper | pegs | logbook => exact (h.flag (by decide)).memoryFault ..
  | ledger n =>
    unfold State.onLine
    dsimp only
    split
    · exact h
    · exact ((h.flag (by decide)).abortQueue n).used.raise ..
  | fec p c u =>
    have hcounted := (h.bump (f := fNET_PORT_FEC_CORRECTED p) (Fld.sparesGrave_of_high (Nat.le_add_right_of_le (by decide))) c).bump
      (f := fNET_PORT_FEC_UNCORRECTED p) (Fld.sparesGrave_of_high (Nat.le_add_right_of_le (by decide))) u
    exact ite h (ite hcounted (hcounted.flag (Fld.sparesGrave_of_high (Nat.le_add_right_of_le (by decide)))))

/-! ## Rails, hold-up, sensors, clocks, MCTP -/

theorem setHoldup (h : s.Halted) (ok : Bool) : (s.setHoldup ok).Halted :=
  have hpin := (h.setFld (f := fPWR_STATUS_HOLDUP_OK) (by decide) (if ok then 1 else 0)).emit (.pin .holdupOk ok)
  have hmedia := ite (hpin.setFld (f := fMED_STATUS_WRITE_THROUGH) (by decide) _) hpin
  ite h (ite hmedia ((hmedia.flag (f := fPWR_ERR_HOLDUP_LOST) (by decide)).raise ..))

theorem startFlush (h : s.Halted) : s.startFlush.Halted := ite h (h.setMedia _)

theorem endFlush (h : s.Halted) (bad : Bool) : (s.endFlush bad).Halted := (h.setMedia _).refreshWb

theorem softLimit (h : s.Halted) (sensor : Nat) : (s.softLimit sensor).Halted :=
  have hflagged := ((ite h (h.setPwr _)).flag (f := fPWR_STATUS_THROTTLE_SOFT) (by decide)).flag
    (f := fPWR_ERR_THERMAL_SOFT) (by decide)
  ite (hflagged.raise ..) hflagged

theorem hardLimit (h : s.Halted) : s.hardLimit.Halted :=
  have hflagged := (h.flag (f := fPWR_STATUS_THROTTLE_HARD) (by decide)).flag (f := fPWR_ERR_THERMAL_HARD) (by decide)
  ⟨(State.safe_of_status (State.reg_congr rfl rfl _)).trans hflagged.safe, s.quiet_hardLimit.trans h.quiet⟩

theorem junction (h : s.Halted) (sensor tj : Nat) : (s.junction sensor tj).Halted :=
  have hshown := (h.setPwr _).setFld (f := fPWR_THERMAL_TJ_MAX_C) (by decide) _
  have htrip := ite (hshown.raise ..) hshown
  have hsoft := ite (htrip.softLimit sensor) htrip
  have hhard := ite hsoft.hardLimit (ite (hsoft.unflag (f := fPWR_STATUS_THROTTLE_HARD) (by decide)) hsoft)
  ite (hhard.setPwr _) hhard

theorem linkFault (h : s.Halted) (q : Nat) {f : Fld} (hf : f.sparesGrave = true) (st : Status) :
    (s.linkFault q f st).Halted := (((h.setClock _).safe_ite _).flag hf).raise ..

theorem mctp (h : s.Halted) (m : McMsg) : (s.mctp m).Halted := by
  cases m with
  | faultRecords => exact h.emit _
  | inventory | health => exact h.used.emit _
  | update op => exact h.safe_ite _

end State.Halted

/-! ## Every command but a removal of power -/

section
variable {s t : State}

theorem always_halted {c : Instr} {f : State → State} (ht : exec c s = .next t) (he : exec c s = always s f)
    (hf : (f s).Halted) : t.Halted := by
  rw [he] at ht
  obtain rfl := Host.Outcome.next.inj ht
  exact hf.commit s

variable (h : s.Halted)
include h

/-- A rail applied in order starts the monitor; one out of order resets nothing in the safe state (R397). -/
theorem railApply_halted {rail : Rail} (ht : exec (.railApply rail) s = .next t) : t.Halted := by
  have hrail : ∀ (had ok : Bool) (m : ModState), State.Halted (if had then s
      else if !ok then State.setMod (if s.safe then s else s.moduleReset)
        { (if s.safe then s else s.moduleReset).mod with held := true }
      else if rail = .p54v then (s.setMod m).monitorStart.showFaultOut else s.setMod m) := fun had ok m =>
    .ite h (.ite ((h.safe_ite _).setMod _) (.ite (h.setMod m).monitorStart.showFaultOut (h.setMod m)))
  refine always_halted ht (execRailApply.eq_def ..) ?_
  cases rail <;> exact hrail ..

theorem pllUnlock_halted {q : Option (Fin 4)} (ht : exec (.pllUnlock q) s = .next t) : t.Halted := by
  refine always_halted ht (execPllUnlock.eq_def ..) ?_
  cases q with
  | some q =>
    have hlock := Fld.sparesGrave_of_addr (f := fCLK_STATUS_PLL_LOCK.bit q) (show aFLT_STATUS ≠ aCLK_STATUS by decide)
    exact .ite h ((((h.unflag hlock).flag (by decide)).safe_ite _).raise ..)
  | none => exact .ite h (((h.unflag (by decide)).flag (by decide)).used.raise ..)

/-- No module reset follows a flush that ends in the safe state (R397). -/
theorem flushComplete_halted {readBack : Bool} (ht : exec (.flushComplete readBack) s = .next t) : t.Halted := by
  have hflushed := h.endFlush (!readBack)
  refine always_halted ht (execFlushComplete.eq_def ..) (.ite h ?_)
  dsimp only
  rw [if_pos hflushed.safe]
  exact hflushed.setFld (by decide) 2

theorem discrepancyTimeout_halted (ht : exec .discrepancyTimeout s = .next t) : t.Halted := by
  refine always_halted ht (execDiscrepancyTimeout.eq_def ..) ?_
  split
  · exact .ite (h.loneDemand true) h
  · exact h

theorem cdcSyncTimeout_halted {q : Fin 4} (ht : exec (.cdcSyncTimeout q) s = .next t) : t.Halted := by
  refine always_halted ht (execCdcSyncTimeout.eq_def ..) ?_
  split
  · exact .ite (h.linkFault q (by decide) stCDC_SYNC) h
  · exact h

/-- A command's effect in a quiet safe state leaves one. -/
theorem exec_halted {c : Instr} (hpower : removesPower c = false) (ht : exec c s = .next t) : t.Halted := by
  cases hacts : actsInSafe c with
  | false =>
    rw [safeStateIgnoresCommands c s h.safe hacts] at ht
    obtain rfl := Host.Outcome.next.inj ht
    exact h
  | true =>
    cases c
    case rcRegisterRead => exact always_halted ht (execRcRegisterRead.eq_def ..) (h.hostRead _)
    case lowerHalfRead => exact always_halted ht (execLowerHalfRead.eq_def ..) (h.hostRead _)
    case upperHalfRead => exact always_halted ht (execUpperHalfRead.eq_def ..) (h.hostRead _)
    case errorLineEvent => exact always_halted ht (execErrorLineEvent.eq_def ..) (h.onLine _)
    case eventCommit => exact always_halted ht (execEventCommit.eq_def ..) h.commitEvent
    case faultCommit => exact always_halted ht (execFaultCommit.eq_def ..) h.takeFault
    case safeStopEdge => exact always_halted ht (execSafeStopEdge.eq_def ..) (.ite h (h.setChannel ..).showChannels)
    case safeStopQualify =>
      exact always_halted ht (execSafeStopQualify.eq_def ..) (.ite h ((h.setChannel ..).showChannels.qualified _))
    case discrepancyTimeout => exact discrepancyTimeout_halted h ht
    case flushComplete => exact flushComplete_halted h ht
    case mctpRequest => exact always_halted ht (execMctpRequest.eq_def ..) (.ite (h.mctp _) h)
    case railApply => exact railApply_halted h ht
    case pwrGoodFall => exact always_halted ht (execPwrGoodFall.eq_def ..) (.ite h (.ite (h.setMod _).startFlush (h.setMod _)))
    case pwrGoodRise => exact always_halted ht (execPwrGoodRise.eq_def ..) (.ite h (h.setMod _))
    case holdupOkFall => exact always_halted ht (execHoldupOkFall.eq_def ..) (h.setHoldup false)
    case holdupOkRise => exact always_halted ht (execHoldupOkRise.eq_def ..) (.ite (h.setHoldup true) h)
    case holdupMeasure => exact always_halted ht (execHoldupMeasure.eq_def ..) (.ite h ((h.setMod _).setHoldup _))
    case thermalSample => exact always_halted ht (execThermalSample.eq_def ..) (.ite h (h.junction ..))
    case pllUnlock => exact pllUnlock_halted h ht
    case cdcSyncTimeout => exact cdcSyncTimeout_halted h ht
    case cdcUncorrected => exact always_halted ht (execCdcUncorrected.eq_def ..) (.ite (h.linkFault _ (by decide) _) h)
    case p54vRemove | p3v3StbyRemove => exact Bool.noConfusion hpower
    all_goals exact Bool.noConfusion hacts

end

theorem State.Halted.tick {s : State} (h : s.Halted) : s.tick.Halted :=
  .ite (h.of_eq rfl rfl rfl rfl rfl) (h.of_eq rfl rfl rfl rfl rfl)

/-- Settles O31: an idle step only counts time, and the front command is no removal of power, so `exec_halted` applies; the rest
of the queue stays as it was. -/
theorem safeStateIsFinal : Obligations.SafeStateIsFinal := by
  intro s t hfinal ht
  simp only [State.final, Bool.and_eq_true] at hfinal
  obtain ⟨⟨hsafe, hquiet⟩, hqueue⟩ := hfinal
  have hhalted : s.Halted := ⟨hsafe, hquiet⟩
  suffices h : t.Halted ∧ t.pending.all (fun c => !removesPower c) = true by
    simp [State.final, h.1.safe, h.1.quiet, h.2]
  unfold step at ht
  cases hpending : s.pending with
  | nil =>
    rw [hpending] at ht
    obtain rfl := Host.Outcome.next.inj ht
    exact ⟨hhalted.tick, by rw [State.tick]; split <;> simp [hpending]⟩
  | cons c rest =>
    rw [hpending] at ht
    rw [hpending, List.all_cons, Bool.and_eq_true, Bool.not_eq_true'] at hqueue
    obtain ⟨hpower, hrest⟩ := hqueue
    obtain ⟨u, hu, -, hkeeps⟩ := everyCommandAnswers c { s with pending := rest }
    obtain rfl := Host.Outcome.next.inj (hu.symm.trans ht)
    exact ⟨exec_halted (s := { s with pending := rest }) (hhalted.of_eq rfl rfl rfl rfl rfl) hpower ht, hkeeps ▸ hrest⟩

/-! ## What changes in the safe state -/

/-- The safe state with tile 0 at full duty. -/
def safeWithTile : State := { State.reset with regs := [(aFLT_STATUS, 4#64)], tiles := [(0, TileRec.off)] }

/-- Refutes O30: a reading of 105 degrees limits the tiles' duty to 16 of 64 (R451), in the safe state too. -/
theorem not_safeStateKeepsTheMachine : ¬ Obligations.SafeStateKeepsTheMachine := by
  intro h
  obtain ⟨t, ht, -, htiles, -⟩ := h (.thermalSample 0 105) safeWithTile (by decide +kernel) rfl
  obtain rfl := Host.Outcome.next.inj ht
  have hduty := congrArg (fun m => (Map.getD m 0 TileRec.off).duty) htiles
  exact absurd hduty (by decide +kernel)

end Sys2Proof.Machine
end

section
/-!
PROOFS. New chains (R313, R314): a handle holds its fields apart, the number of a new chain has room in it, and the chain
that it names has no byte written.
-/
namespace Sys2Proof.Machine

section
variable {cls ctx gen num : Nat} (hctx : ctx < 64) (hgen : gen < 2 ^ 24) (hnum : num < 2 ^ 20)

theorem handleNum_handleWord (cls ctx gen : Nat) (hnum : num < 2 ^ 20) : handleNum (handleWord cls ctx gen num) = num := by
  simp only [handleNum, handleWord, bitsOf]
  omega

include hnum

theorem handleReserved_handleWord (cls ctx gen : Nat) : bitsOf (handleWord cls ctx gen num) 20 12 = 0 := by
  simp only [handleWord, bitsOf]
  omega

include hgen

theorem handleGen_handleWord (cls ctx : Nat) : bitsOf (handleWord cls ctx gen num) 32 24 = gen := by
  simp only [handleWord, bitsOf]
  omega

include hctx

theorem handleCtx_handleWord (cls : Nat) : handleCtx (handleWord cls ctx gen num) = ctx := by
  simp only [handleCtx, handleWord, bitsOf]
  omega

theorem handleClass_handleWord (hcls : cls < 3) : bitsOf (handleWord cls ctx gen num) 62 2 = cls := by
  simp only [handleWord, bitsOf]
  omega

end

theorem lowestFree_le (m : Map Chain) (fuel i : Nat) : lowestFree m fuel i ≤ i + fuel := by
  induction fuel generalizing i with
  | zero => exact Nat.le_refl i
  | succ fuel ih =>
    rw [lowestFree]
    split
    · have := ih (i + 1)
      omega
    · omega

theorem Pool.length_takeN {cls n : Nat} {p q : Pool} {acc is : List Nat} (h : Pool.takeN cls n p acc = some (is, q)) :
    is.length = acc.length + n := by
  induction n generalizing p acc with
  | zero =>
    obtain ⟨rfl, -⟩ := Prod.mk.inj (Option.some.inj h)
    rw [List.length_reverse]
    rfl
  | succ n ih =>
    rw [Pool.takeN] at h
    split at h
    · rw [ih h, List.length_cons]
      omega
    · cases h

/-- Buffers of one class give a handle of that class. -/
theorem Chain.handle_of_class {c : Chain} {cls : Nat} {is : List Nat} (ctx num : Nat)
    (hbufs : c.bufs = is.map (fun i => (cls, i))) (his : is ≠ []) : c.handle ctx num = handleWord cls ctx c.gen num := by
  rw [Chain.handle, hbufs]
  cases is with
  | nil => exact absurd rfl his
  | cons i is => rfl

theorem Map.getD_of_forall {α : Type} {P : α → Prop} {m : Map α} {d : α} (h : ∀ e ∈ m, P e.2) (hd : P d) (i : Nat) :
    P (Map.getD m i d) := by
  induction m with
  | nil => exact hd
  | cons e m ih =>
    obtain ⟨he, hm⟩ := List.forall_mem_cons.1 h
    simp only [Map.getD, Map.find] at ih ⊢
    split
    · exact he
    · exact ih hm

theorem State.chainsOf_setChain (s : State) (ctx num : Nat) (c : Chain) :
    (s.setChain ctx num c).chainsOf ctx = Map.put (s.chainsOf ctx) num c := Map.getD_put_same ..

theorem Mem.read_empty (off len : Nat) : Mem.read [] off len = zeros len := by
  induction len generalizing off with
  | zero => rfl
  | succ len ih => rw [Mem.read, ih]; rfl

/-- What `alloc` answers: the handle of a new chain, whose number is free, with n buffers and no byte written. -/
theorem State.alloc_ok {s t : State} {ctx cls n agent tile h : Nat} (halloc : s.alloc ctx cls n agent tile = .ok (h, t)) :
    ∃ (p : Pool) (is : List Nat) (c : Chain), is.length = n ∧ c.bufs = is.map (fun i => (cls, i)) ∧ c.bytes = []
      ∧ c.gen = Map.getD (Map.getD s.ink.gens ctx []) (lowestFree (s.chainsOf ctx) ((s.chainsOf ctx).length + 1) 0) 1
      ∧ h = c.handle ctx (lowestFree (s.chainsOf ctx) ((s.chainsOf ctx).length + 1) 0)
      ∧ t = (s.setPool cls p).setChain ctx (lowestFree (s.chainsOf ctx) ((s.chainsOf ctx).length + 1) 0) c := by
  unfold State.alloc at halloc
  split at halloc
  · cases halloc
  split at halloc
  · cases halloc
  next is p htake =>
    obtain ⟨rfl, rfl⟩ := Prod.mk.inj (Except.ok.inj halloc)
    exact ⟨p, is, _, by rw [Pool.length_takeN htake]; simp, rfl, rfl, rfl, rfl, rfl⟩

/-- A live chain's handle finds it. -/
theorem State.findChain_handleWord {s : State} {cls ctx num : Nat} {c : Chain} (hcls : cls < 3) (hctx : ctx < 64)
    (hgen : c.gen < 2 ^ 24) (hnum : num < 2 ^ 20) (hlive : Map.find (s.chainsOf ctx) num = some c) :
    s.findChain ctx (handleWord cls ctx c.gen num) none = .ok (num, c) := by
  rw [State.findChain, if_neg, handleCtx_handleWord hctx hgen hnum, if_neg (not_not.2 rfl), handleNum_handleWord _ _ _ hnum,
    hlive]
  · simp only [handleGen_handleWord hgen hnum, ne_eq, not_true_eq_false, if_false]
  · rw [handleClass_handleWord hctx hgen hnum hcls, handleReserved_handleWord hnum]
    omega

/-- Settles O48: the new handle finds its chain, which holds no byte. -/
theorem newChainsReadZero : Obligations.NewChainsReadZero := by
  intro ctx cls n agent tile h off len s t hctx hcls hn hroom hgens halloc
  obtain ⟨p, is, c, hlen, hbufs, hbytes, hgen, rfl, rfl⟩ := State.alloc_ok halloc
  generalize hnum : lowestFree (s.chainsOf ctx) ((s.chainsOf ctx).length + 1) 0 = num at *
  have hnumLt : num < 2 ^ 20 := by
    have := lowestFree_le (s.chainsOf ctx) ((s.chainsOf ctx).length + 1) 0
    omega
  have hgenLt : c.gen < 2 ^ 24 := hgen ▸ Map.getD_of_forall (P := (· < 2 ^ 24)) hgens (by decide) num
  rw [Chain.handle_of_class ctx num hbufs (List.ne_nil_of_length_pos (by omega)), State.readHandle,
    handleCtx_handleWord hctx hgenLt hnumLt, State.findChain_handleWord hcls hctx hgenLt hnumLt (by
      rw [State.chainsOf_setChain, Map.find_put_same])]
  simp only [hbytes, Mem.read_empty]

end Sys2Proof.Machine
end

section
/-!
PROOFS. The peg unit (R325), device barriers (R331) and the calls of the shared services (R316 to R331): completing a ticket
touches the tiles only, so a call leaves in its own unit what the rule says.
-/
namespace Sys2Proof.Machine

/-! ## Tickets -/

/-- The result of a ticket goes to its tile, and nothing else changes. -/
theorem State.completeTicket_eq (s : State) (n l k len : Nat) (st : Status) :
    ∃ m, s.completeTicket n l k len st = { s with tiles := m } := by
  unfold State.completeTicket
  dsimp only
  split
  · exact ⟨_, rfl⟩
  · exact ⟨_, rfl⟩

theorem State.completeCall_eq (s : State) (n : Nat) (c : Call) (len : Nat) (st : Status) :
    ∃ m, s.completeCall n c len st = { s with tiles := m } := by
  obtain ⟨m, hm⟩ := State.completeTicket_eq
    (s.mapTile n (fun r => { r with calls := r.calls.filter (fun d => d.seq != c.seq) })) n c.lane c.ticket len st
  exact ⟨m, hm⟩

/-! ## Pegs (R325) -/

/-- The waits that a peg of a context at a value completes. -/
def PegWait.metBy (ctx v value : Nat) (w : PegWait) : Bool := w.ctx == ctx && w.peg == v && w.value ≤ value

theorem State.foldl_completeTicket_eq (waits : List PegWait) (s : State) :
    ∃ m, waits.foldl (fun s w => s.completeTicket w.tile w.lane w.ticket 0 stOK) s = { s with tiles := m } := by
  induction waits generalizing s with
  | nil => exact ⟨_, rfl⟩
  | cons w waits ih =>
    obtain ⟨m, hm⟩ := s.completeTicket_eq w.tile w.lane w.ticket 0 stOK
    obtain ⟨m', hm'⟩ := ih { s with tiles := m }
    exact ⟨m', by rw [List.foldl_cons, hm, hm']⟩

section
variable {s : State} {ctx v value : Nat} {p : Peg}

@[simp] theorem State.peg_setPegs_put_same (s : State) (ctx v : Nat) (p : Peg) :
    (s.setPegs ctx (Map.put (s.pegsOf ctx) v p)).peg ctx v = some p := by
  simp [State.peg, State.pegsOf, State.setPegs]

theorem State.peg_setPegs_put_other (s : State) (ctx : Nat) (p : Peg) {v q : Nat} (h : q ≠ v) :
    (s.setPegs ctx (Map.put (s.pegsOf ctx) v p)).peg ctx q = s.peg ctx q := by
  simp [State.peg, State.pegsOf, State.setPegs, Map.find_put_other _ _ h]

/-- Writing a mapped peg leaves its value, drops the waits it completes, and touches the tiles beside. -/
theorem State.setPeg_eq (hpeg : s.peg ctx v = some p) :
    ∃ m, s.setPeg ctx v value = { s with
      sync := { s.sync with
        pegs := Map.put s.sync.pegs ctx (Map.put (s.pegsOf ctx) v { p with value := value })
        waits := s.sync.waits.filter (fun w => !w.metBy ctx v value) }
      tiles := m } := by
  rw [State.setPeg, hpeg]
  dsimp only
  rw [State.retest, State.peg_setPegs_put_same]
  exact State.foldl_completeTicket_eq _ _

section
variable (value) (hpeg : s.peg ctx v = some p)
include hpeg

theorem State.peg_setPeg_same : (s.setPeg ctx v value).peg ctx v = some { p with value := value } := by
  obtain ⟨m, hm⟩ := State.setPeg_eq (value := value) hpeg
  rw [hm]
  exact s.peg_setPegs_put_same ..

theorem State.peg_setPeg_other {q : Nat} (hq : q ≠ v) : (s.setPeg ctx v value).peg ctx q = s.peg ctx q := by
  obtain ⟨m, hm⟩ := State.setPeg_eq (value := value) hpeg
  rw [hm]
  exact s.peg_setPegs_put_other ctx _ hq

theorem State.setPeg_flt : (s.setPeg ctx v value).flt = s.flt := by
  obtain ⟨m, hm⟩ := State.setPeg_eq (value := value) hpeg
  rw [hm]

theorem State.setPeg_waits :
    (s.setPeg ctx v value).sync.waits = s.sync.waits.filter (fun w => !w.metBy ctx v value) := by
  obtain ⟨m, hm⟩ := State.setPeg_eq (value := value) hpeg
  rw [hm]

end

variable (agent : Fin 8) {ctx : Fin 64} {peg : Nat} (hsafe : s.safe = false) (hpeg : s.peg ctx peg = some p)
include hsafe hpeg

theorem pegAdd_hub_completes {n : Nat} (hroom : p.value + n ≤ 0xFFFFFFFF) :
    Runs (.pegAdd (.hub agent ctx) peg n) s (s.setPeg ctx peg (p.value + n)) := by
  refine runs_act (execPegAdd.eq_def (.hub agent ctx) ..) hsafe ?_
  simp only [State.addPeg, hpeg, if_neg (Nat.not_lt.2 hroom)]

theorem pegAdd_hub_overflows {n : Nat} (hover : 0xFFFFFFFF < p.value + n) :
    Runs (.pegAdd (.hub agent ctx) peg n) s (s.raise srcPEG stPEG_OVERFLOW 0 ctx .f2) := by
  refine runs_act (execPegAdd.eq_def (.hub agent ctx) ..) hsafe ?_
  simp only [State.addPeg, hpeg, if_pos hover]

omit hpeg in
theorem pegSet_hub_completes (n : Nat) : Runs (.pegSet (.hub agent ctx) peg n) s (s.setPeg ctx peg (n % 2 ^ 32)) :=
  runs_act (execPegSet.eq_def (.hub agent ctx) ..) hsafe rfl

end

/-- Settles O50: an ADD within range and a SET write the peg, an ADD beyond it only raises F2. -/
theorem pegsAddExactlyOrOverflow : Obligations.PegsAddExactlyOrOverflow := by
  refine ⟨fun agent ctx peg n p s hsafe hpeg hroom => ?_, fun agent ctx peg n p s hsafe hpeg hover => ?_,
    fun agent ctx peg n p s hsafe hpeg => ?_⟩
  · exact ⟨_, pegAdd_hub_completes agent hsafe hpeg hroom, State.peg_setPeg_same _ hpeg,
      fun _ => State.peg_setPeg_other _ hpeg, State.setPeg_flt _ hpeg, State.setPeg_waits _ hpeg⟩
  · exact ⟨_, _, pegAdd_hub_overflows agent hsafe hpeg hover, rfl, rfl, rfl, rfl, rfl⟩
  · exact ⟨_, pegSet_hub_completes agent hsafe n, State.peg_setPeg_same _ hpeg, fun _ => State.peg_setPeg_other _ hpeg,
      State.setPeg_flt _ hpeg⟩

/-! ## Device barriers (R331) -/

section
variable {s : State} {tile : Fin 96} {c : Call}

/-- A fault of a call stops its lane and puts F2 on the tile's line, and leaves pegs and barriers alone. -/
theorem State.completeCall_laneFault (s : State) (tile : Nat) (c : Call) (st : Status) :
    ∃ e, ((((s.completeCall tile c 0 st).laneFault tile c.lane st).tile tile).lane c.lane).run = .faulted
      ∧ ((s.completeCall tile c 0 st).laneFault tile c.lane st).flt.lines = s.flt.lines ++ [e]
      ∧ e.status = st ∧ e.cls = .f2 ∧ ((s.completeCall tile c 0 st).laneFault tile c.lane st).sync = s.sync := by
  obtain ⟨m, hm⟩ := s.completeCall_eq tile c 0 st
  rw [hm]
  refine ⟨State.laneFaultEvent { s with tiles := m } tile st, ?_, ?_, rfl, rfl, ?_⟩
  · rw [State.tile_laneFault, State.lane_setLane_same]
  · simp [State.laneFault, State.raise, State.laneFaultEvent]
  · have hblocks := State.tileFault_otherBlocks (State.setLane { s with tiles := m } tile c.lane
      { (State.tile { s with tiles := m } tile).lane c.lane with run := .faulted }) tile st
    exact (congrArg State.sync hblocks :)

section
variable (h : Called s tile 0x12 1 c) (hunused : unusedZero c.desc [(32, 2), (34, 1)] = true)
  (hsense : fieldAt c.desc 34 1 ≤ 1) (hnum : fieldAt c.desc 32 2 ≤ 255)
include h hunused hsense hnum

theorem dbarArrive_completes {t : State}
    (harrive : s.dbarArrive (s.tileCtx tile) tile (fieldAt c.desc 32 2) (fieldAt c.desc 34 1 == 1) = .ok t) :
    Runs (.dbarArrive tile) s (t.completeCall tile c 0 stOK) := by
  refine runs_called (execDbarArrive.eq_def ..) h ?_
  rw [if_neg (by simp [hunused, hsense, hnum]), harrive]

theorem dbarArrive_faults {st : Status}
    (harrive : s.dbarArrive (s.tileCtx tile) tile (fieldAt c.desc 32 2) (fieldAt c.desc 34 1 == 1) = .error st) :
    Runs (.dbarArrive tile) s ((s.completeCall tile c 0 st).laneFault tile c.lane st) := by
  refine runs_called (execDbarArrive.eq_def ..) h ?_
  rw [if_neg (by simp [hunused, hsense, hnum]), harrive]

end
end

section
variable {s : State} {ctx t v : Nat} {sense : Bool} {b : Dbar} (hbar : Map.find (s.barsOf ctx) v = some b)
include hbar

theorem State.dbarArrive_outsider (hout : b.members.contains t = false) :
    s.dbarArrive ctx t v sense = .error stDBAR_NOT_MEMBER := by
  simp only [State.dbarArrive, hbar, hout, Bool.not_false, if_true]

theorem State.dbarArrive_badSense (hmember : b.members.contains t = true)
    (hbad : (b.arrived.contains t || sense == b.sense) = true) : s.dbarArrive ctx t v sense = .error stDBAR_SENSE := by
  simp only [State.dbarArrive, hbar, hmember, hbad, Bool.not_true, Bool.false_eq_true, if_false, if_true]

omit hbar in
theorem State.find_barsOf_setBar (s : State) (ctx v : Nat) (b : Dbar) :
    Map.find ((s.setBar ctx v b).barsOf ctx) v = some b := by
  simp [State.barsOf, State.setBar]

/-- An arrival before the last one is noted, and releases nothing. -/
theorem State.dbarArrive_early (hmember : b.members.contains t = true) (hfirst : b.arrived.contains t = false)
    (hsense : sense ≠ b.sense) (hmore : ∃ m ∈ b.members, m ≠ t ∧ b.arrived.contains m = false) :
    s.dbarArrive ctx t v sense = .ok (s.setBar ctx v { b with arrived := b.arrived ++ [t] }) := by
  have hopen : b.members.all ((b.arrived ++ [t]).contains ·) = false := by
    obtain ⟨m, hm, hmt, hnot⟩ := hmore
    refine List.all_eq_false.2 ⟨m, hm, ?_⟩
    simpa [hmt] using hnot
  simp only [State.dbarArrive, hbar, hmember, hfirst, Bool.not_true, Bool.false_eq_true, if_false, Bool.false_or, beq_iff_eq,
    hsense, State.releaseBar, State.find_barsOf_setBar, hopen, Bool.not_false, Bool.or_true, Bool.true_or, if_true]

end

/-- Settles O51: the three verdicts on an arrival, and what the call does with each. -/
theorem barrierArrivalsAreCheckedAgainstTheSense : Obligations.BarrierArrivalsAreCheckedAgainstTheSense := by
  rintro tile c v b s h rfl hunused hsense hnum - hbar
  have hfaults := fun st harrive => dbarArrive_faults (st := st) h hunused hsense hnum harrive
  refine ⟨fun hout => ?_, fun hmember hbad => ?_, fun hmember hfirst hother hmore => ?_⟩
  · obtain ⟨e, hstops⟩ := s.completeCall_laneFault tile c stDBAR_NOT_MEMBER
    exact ⟨_, e, hfaults _ (State.dbarArrive_outsider hbar hout), hstops⟩
  · obtain ⟨e, hstops⟩ := s.completeCall_laneFault tile c stDBAR_SENSE
    exact ⟨_, e, hfaults _ (State.dbarArrive_badSense hbar hmember hbad), hstops⟩
  · refine ⟨_, dbarArrive_completes h hunused hsense hnum (State.dbarArrive_early hbar hmember hfirst hother hmore), ?_⟩
    obtain ⟨m, hm⟩ := (s.setBar (s.tileCtx tile) (fieldAt c.desc 32 2)
      { b with arrived := b.arrived ++ [tile.val] }).completeCall_eq tile c 0 stOK
    rw [hm]
    exact ⟨rfl, s.find_barsOf_setBar ..⟩

/-! ## Calls of the Innkeeper and the peg unit (R316 to R325) -/

/-- A service call whose unused bytes are 0, and whose output fits, finishes with what the service answers. -/
theorem State.service_eq {s u : State} {tile engine op : Nat} {c : Call} {ranges : List (Nat × Nat)}
    {body : Call → State → EngRes × State} {e : EngRes} (h : Called s tile engine op c)
    (hunused : unusedZero c.desc ranges = true) (hbody : body c s = (e, u)) (hfits : e.out.length ≤ (descOut c.desc).2) :
    s.service tile engine op ranges body = u.finishCall tile c e := by
  rw [State.service, onCall_called h, if_neg (by simp [hunused]), hbody]
  exact if_neg (Nat.not_lt.2 hfits)

section
variable {s u : State} {tile : Fin 96} {c : Call} (agent : Fin 8) {ctx : Fin 64} (cls : Fin 4) (count : Nat) {num : Nat}
  {ch : Chain}

theorem alloc_call_completes {h : Nat} (hcall : Called s tile 0x10 0x01 c)
    (hunused : unusedZero c.desc [(40, 1), (42, 2)] = true)
    (hargs : allocArgsOk (fieldAt c.desc 40 1) (fieldAt c.desc 42 2) = true)
    (halloc : s.alloc (s.tileCtx tile) (fieldAt c.desc 40 1) (fieldAt c.desc 42 2) agTILE tile = .ok (h, u))
    (hfits : 8 ≤ (descOut c.desc).2) :
    Runs (.alloc (.call tile) cls count) s (u.finishCall tile c (output (toLE 8 h))) := by
  refine runs_act (execAlloc.eq_def (.call tile) cls count s) hcall.1
    (State.service_eq hcall hunused ?_ (by simpa [output] using hfits))
  simp only [hargs, halloc, Bool.not_true, Bool.false_eq_true, if_false]

variable {cls count} in
theorem alloc_hub_completes {h : Nat} (hsafe : s.safe = false) (hargs : allocArgsOk cls count = true)
    (halloc : s.alloc ctx cls count agent 0 = .ok (h, u)) : Runs (.alloc (.hub agent ctx) cls count) s u := by
  refine runs_act (execAlloc.eq_def (.hub agent ctx) cls count s) hsafe ?_
  simp only [hargs, halloc, Bool.not_true, Bool.false_eq_true, if_false]

theorem extend_call_completes (handle : Nat) (hcall : Called s tile 0x10 0x02 c)
    (hunused : unusedZero c.desc [(32, 8), (40, 1), (42, 2)] = true)
    (hfind : s.findChain (s.tileCtx tile) (fieldAt c.desc 32 8) (some (agTILE, tile.val)) = .ok (num, ch))
    (hargs : allocArgsOk (fieldAt c.desc 40 1) (fieldAt c.desc 42 2) = true)
    (hextend : s.extend (s.tileCtx tile) num ch (fieldAt c.desc 40 1) (fieldAt c.desc 42 2) = .ok u) :
    Runs (.extend (.call tile) handle cls count) s (u.finishCall tile c (answer stOK)) := by
  refine runs_act (execExtend.eq_def (.call tile) handle cls count s) hcall.1
    (State.service_eq hcall hunused ?_ (Nat.zero_le _))
  simp only [hfind, hargs, hextend, Bool.not_true, Bool.false_eq_true, if_false]

variable {cls count} in
theorem extend_hub_completes {handle : Nat} (hsafe : s.safe = false)
    (hfind : s.findChain ctx handle (some (agent.val, 0)) = .ok (num, ch)) (hargs : allocArgsOk cls count = true)
    (hextend : s.extend ctx num ch cls count = .ok u) : Runs (.extend (.hub agent ctx) handle cls count) s u := by
  refine runs_act (execExtend.eq_def (.hub agent ctx) handle cls count s) hsafe ?_
  simp only [hfind, hargs, hextend, Bool.not_true, Bool.false_eq_true, if_false]

theorem free_call_completes (handle : Nat) (hcall : Called s tile 0x10 0x03 c)
    (hidle : (s.tile tile).accesses (fieldAt c.desc 32 8) = false) (hunused : unusedZero c.desc [(32, 8)] = true)
    (hfind : s.findChain (s.tileCtx tile) (fieldAt c.desc 32 8) (some (agTILE, tile.val)) = .ok (num, ch)) :
    Runs (.free (.call tile) handle) s ((s.freeNum (s.tileCtx tile) num).finishCall tile c (answer stOK)) := by
  obtain ⟨hsafe, hhead, -⟩ := id hcall
  refine runs_act (execFree.eq_def (.call tile) handle s) hsafe ?_
  simp only [hhead, hidle, Bool.false_eq_true, if_false]
  refine State.service_eq hcall hunused ?_ (Nat.zero_le _)
  simp only [hfind]

theorem free_hub_completes {handle : Nat} (hsafe : s.safe = false)
    (hfind : s.findChain ctx handle (some (agent.val, 0)) = .ok (num, ch)) :
    Runs (.free (.hub agent ctx) handle) s (s.freeNum ctx num) := by
  refine runs_act (execFree.eq_def (.hub agent ctx) handle s) hsafe ?_
  simp only [hfind]

theorem handoff_call_completes (handle : Nat) (hcall : Called s tile 0x10 0x04 c)
    (hidle : (s.tile tile).accesses (fieldAt c.desc 32 8) = false)
    (hunused : unusedZero c.desc [(32, 8), (44, 1)] = true)
    (hfind : s.findChain (s.tileCtx tile) (fieldAt c.desc 32 8) (some (agTILE, tile.val)) = .ok (num, ch))
    (hagent : laneMayGive (fieldAt c.desc 44 1) = true) :
    Runs (.handoff (.call tile) handle agent) s
      ((s.setChain (s.tileCtx tile) num { ch with owner := fieldAt c.desc 44 1 }).finishCall tile c (answer stOK)) := by
  obtain ⟨hsafe, hhead, -⟩ := id hcall
  refine runs_act (execHandoff.eq_def (.call tile) handle agent s) hsafe ?_
  simp only [hhead, hidle, Bool.false_eq_true, if_false]
  refine State.service_eq hcall hunused ?_ (Nat.zero_le _)
  simp only [hfind, hagent, Bool.not_true, Bool.false_eq_true, if_false]

theorem handoff_hub_completes {giver : Fin 8} {handle : Nat} (hsafe : s.safe = false)
    (hfind : s.findChain ctx handle (some (giver.val, 0)) = .ok (num, ch)) :
    Runs (.handoff (.hub giver ctx) handle agent) s (s.setChain ctx num { ch with owner := agent }) := by
  refine runs_act (execHandoff.eq_def (.hub giver ctx) handle agent s) hsafe ?_
  simp only [hfind]

theorem inkInfo_completes (hcall : Called s tile 0x10 0x05 c) (hunused : unusedZero c.desc [(32, 8)] = true)
    (hfind : s.findChain (s.tileCtx tile) (fieldAt c.desc 32 8) none = .ok (num, ch)) (hfits : 10 ≤ (descOut c.desc).2) :
    Runs (.inkInfo tile) s (s.finishCall tile c (output (toLE 8 ch.size ++ toLE 2 ch.bufs.length))) := by
  refine runs_act (execInkInfo.eq_def ..) hcall.1 (State.service_eq hcall hunused ?_ (by simpa [output] using hfits))
  simp only [hfind]

theorem bufferScrubComplete_completes {cls : Fin 3} {i : Nat} {rest : List Nat} (hsafe : s.safe = false)
    (hscrub : (s.pool cls).scrub = i :: rest) :
    Runs (.bufferScrubComplete cls) s (s.setPool cls (Pool.give { s.pool cls with scrub := rest } i)) := by
  refine runs_act (execBufferScrubComplete.eq_def ..) hsafe ?_
  simp only [hscrub]

end

section
variable {s : State} {tile : Fin 96} {c : Call} {p : Peg} (peg value : Nat)
  (hpeg : s.peg (s.tileCtx tile) (fieldAt c.desc 32 2) = some p)
include hpeg

theorem pegAdd_call_completes (hcall : Called s tile 0x11 0x01 c)
    (hunused : unusedZero c.desc [(32, 2), (36, 4)] = true) (hn : fieldAt c.desc 36 4 ≠ 0)
    (hroom : p.value + fieldAt c.desc 36 4 ≤ 0xFFFFFFFF) :
    Runs (.pegAdd (.call tile) peg value) s
      ((s.setPeg (s.tileCtx tile) (fieldAt c.desc 32 2) (p.value + fieldAt c.desc 36 4)).finishCall tile c (answer stOK)) := by
  refine runs_act (execPegAdd.eq_def (.call tile) peg value s) hcall.1 (State.service_eq hcall hunused ?_ (Nat.zero_le _))
  simp only [if_neg hn, State.addPeg, hpeg, if_neg (Nat.not_lt.2 hroom)]

theorem pegWait_completes (hcall : Called s tile 0x11 0x02 c) (hunused : unusedZero c.desc [(32, 2), (36, 4)] = true)
    (hmet : fieldAt c.desc 36 4 ≤ p.value) : Runs (.pegWait tile) s (s.completeCall tile c 0 stOK) := by
  refine runs_called (execPegWait.eq_def ..) hcall ?_
  simp only [hunused, hpeg, Bool.not_true, Bool.false_eq_true, if_false, if_pos hmet]

theorem pegRead_completes (hcall : Called s tile 0x11 0x03 c) (hunused : unusedZero c.desc [(32, 2)] = true)
    (hfits : 4 ≤ (descOut c.desc).2) : Runs (.pegRead tile) s (s.finishCall tile c (output (toLE 4 p.value))) := by
  refine runs_act (execPegRead.eq_def ..) hcall.1 (State.service_eq hcall hunused ?_ (by simpa [output] using hfits))
  simp only [hpeg]

theorem pegSet_call_completes (hcall : Called s tile 0x11 0x04 c)
    (hunused : unusedZero c.desc [(32, 2), (36, 4)] = true) :
    Runs (.pegSet (.call tile) peg value) s
      ((s.setPeg (s.tileCtx tile) (fieldAt c.desc 32 2) (fieldAt c.desc 36 4)).finishCall tile c (answer stOK)) := by
  refine runs_act (execPegSet.eq_def (.call tile) peg value s) hcall.1 (State.service_eq hcall hunused ?_ (Nat.zero_le _))
  simp only [hpeg]

end

theorem dbarWait_completes {s : State} {tile : Fin 96} {c : Call} {b : Dbar} (hcall : Called s tile 0x12 0x02 c)
    (hunused : unusedZero c.desc [(32, 2), (34, 1)] = true) (hsense : fieldAt c.desc 34 1 ≤ 1)
    (hnum : fieldAt c.desc 32 2 ≤ 255) (hbar : Map.find (s.barsOf (s.tileCtx tile)) (fieldAt c.desc 32 2) = some b)
    (hopen : b.sense = (fieldAt c.desc 34 1 == 1)) : Runs (.dbarWait tile) s (s.completeCall tile c 0 stOK) := by
  refine runs_called (execDbarWait.eq_def ..) hcall ?_
  rw [if_neg (by simp [hunused, hsense, hnum])]
  simp only [hbar]
  exact if_pos hopen

/-- Settles O16: each call passes its checks, which the lemmas above show one by one. -/
theorem sharedServicesComplete : Obligations.SharedServicesComplete :=
  ⟨fun _ cls count _ _ _ _ => alloc_call_completes cls count, fun agent _ _ _ _ _ _ => alloc_hub_completes agent,
    fun _ handle cls count _ _ _ _ _ => extend_call_completes cls count handle,
    fun agent _ _ _ _ _ _ _ _ => extend_hub_completes agent, fun _ handle _ _ _ _ => free_call_completes handle,
    fun agent _ _ _ _ _ => free_hub_completes agent, fun _ handle _ agent _ _ _ => handoff_call_completes agent handle,
    fun _ agent _ _ _ _ _ => handoff_hub_completes agent, fun _ _ _ _ _ => inkInfo_completes,
    fun _ _ _ _ => bufferScrubComplete_completes,
    fun _ peg value _ _ _ hcall hunused hn hpeg => pegAdd_call_completes peg value hpeg hcall hunused hn,
    fun agent _ _ _ _ _ hsafe hpeg => pegAdd_hub_completes agent hsafe hpeg,
    fun _ _ _ _ hcall hunused hpeg => pegWait_completes hpeg hcall hunused,
    fun _ _ _ _ hcall hunused hpeg => pegRead_completes hpeg hcall hunused,
    fun _ peg value _ _ _ hcall hunused hpeg => pegSet_call_completes peg value hpeg hcall hunused,
    fun agent _ _ value _ _ hsafe _ => pegSet_hub_completes agent hsafe value,
    fun _ _ _ _ hcall hunused hsense hnum => dbarArrive_completes hcall hunused hsense hnum,
    fun _ _ _ _ => dbarWait_completes⟩

end Sys2Proof.Machine
end

section
/-!
PROOFS. The collector's pin (R398) and the force writes (R388): FLT_STATUS.FAULT_OUT is written last, from fields beside it; a
force write puts one event on a line or sets FORCE_REFUSED.
-/
namespace Sys2Proof.Machine

/-! ## FAULT_OUT (R398) -/

theorem State.faultOut_iff (s : State) :
    s.faultOut = true ↔ s.fld fFLT_STATUS_READY = 0 ∨ s.safe = true ∨ s.fld fFLT_STATUS_F4_UNACK = 1
      ∨ (s.fld fFLT_STATUS_F3_UNACK = 1 ∧ s.fld fFLT_CTRL_OUT_F3 = 1) := by
  simp [State.faultOut, or_assoc]

/-- The fields that drive FAULT_OUT_N. -/
def pinFields : List Fld :=
  [fFLT_STATUS_READY, fFLT_STATUS_GRAVE, fFLT_STATUS_F4_UNACK, fFLT_STATUS_F3_UNACK, fFLT_CTRL_OUT_F3]

theorem State.faultOut_congr {s t : State} (h : ∀ f ∈ pinFields, t.fld f = s.fld f) : t.faultOut = s.faultOut := by
  simp only [pinFields, List.forall_mem_cons] at h
  obtain ⟨hready, hgrave, hf4, hf3, hout, -⟩ := h
  simp only [State.faultOut, State.safe, hready, hgrave, hf4, hf3, hout]

theorem pinFields_beside : ∀ f ∈ pinFields, f.addr ≠ fFLT_STATUS_FAULT_OUT.addr
    ∨ f.lo + f.width ≤ fFLT_STATUS_FAULT_OUT.lo ∨ fFLT_STATUS_FAULT_OUT.lo + fFLT_STATUS_FAULT_OUT.width ≤ f.lo := by decide

/-- The pin shows its conditions: writing FAULT_OUT changes none of them. -/
theorem State.showFaultOut_shows (s : State) :
    s.showFaultOut.fld fFLT_STATUS_FAULT_OUT = 1 ↔ s.showFaultOut.faultOut = true := by
  by_cases h : s.fld fFLT_STATUS_FAULT_OUT = if s.faultOut = true then 1 else 0
  · have hsame : s.showFaultOut = s := if_pos h
    rw [hsame, h]
    cases s.faultOut <;> decide
  · have hput : s.showFaultOut = (s.setFld fFLT_STATUS_FAULT_OUT (if s.faultOut then 1 else 0)).emit _ := if_neg h
    have hpins : s.showFaultOut.faultOut = s.faultOut := State.faultOut_congr fun f hf => by
      rw [hput, State.fld_emit, State.fld_setFld_other _ _ _ _ (by decide) (pinFields_beside f hf)]
    rw [hpins, hput, State.fld_emit, State.fld_setFld_same _ _ _ (by decide)]
    cases s.faultOut <;> decide

theorem State.fld_commit_collector (s t : State) {f : Fld} (hf : f.addr ∈ collectorRegs) : (s.commit t).fld f = t.fld f := by
  rw [State.fld, s.reg_commit_collector t hf, State.fld]

theorem State.faultOut_commit (s t : State) : (s.commit t).faultOut = t.faultOut := by
  have hpins : ∀ f ∈ pinFields, f.addr ∈ collectorRegs := by decide
  exact State.faultOut_congr fun f hf => s.fld_commit_collector t (hpins f hf)

theorem State.takeFault_shows {s : State} (h : s.flt.committed ≠ []) : ∃ u : State, s.takeFault = u.showFaultOut := by
  unfold State.takeFault
  cases hc : s.flt.committed with
  | nil => exact absurd hc h
  | cons e es =>
    dsimp only
    cases e.kind <;> exact ⟨_, rfl⟩

/-- Settles O39: every event taken ends with `showFaultOut`. -/
theorem faultOutFollowsItsConditions : Obligations.FaultOutFollowsItsConditions := by
  intro s h
  obtain ⟨u, hu⟩ := State.takeFault_shows h
  refine ⟨_, execFaultCommit.eq_def s, ?_⟩
  rw [← State.faultOut_iff, hu, State.faultOut_commit, State.fld_commit_collector _ _ (by decide)]
  exact u.showFaultOut_shows

/-! ## Force writes (R388) -/

section
variable {s : State} (v : BitVec 64) (hsafe : s.safe = false) (hr : s.reaches 0 = true)
include hsafe hr

theorem fltForceWrite_completes : Runs (.fltForceWrite 0 false v) s (s.forceWrite v.toNat) :=
  runs_fltWrite (body := fun s => s.forceWrite v.toNat) rfl hsafe hr rfl

theorem fltForceWrite_upper : Runs (.fltForceWrite 0 true v) s (s.disarmPrev.unflag fFLT_CTRL_ARM_F5) :=
  runs_fltWrite (body := fun s => s.disarmPrev.unflag fFLT_CTRL_ARM_F5) rfl hsafe hr rfl

end

/-- The event that a force write asks for (Table 17.15). -/
def forcedEvent (s : State) (v : Nat) (cls : FClass) : ErrEvent :=
  { kind := .fault, src := bitsOf v 16 16, status := stFLT_FORCED, unit := 0, ctx := ctxOrNone (bitsOf v 0 8), cls := cls,
    stamp := s.dtime, forced := true, discrepancy := false, concurrent := false }

/-- A force write clears ARM_F5 first. -/
def State.disarmed (s : State) : State := s.disarmPrev.unflag fFLT_CTRL_ARM_F5

theorem State.forceWrite_injects {s : State} {v : Nat} {cls : FClass} (hcls : FClass.named (bitsOf v 8 3) = some cls)
    (hsrc : sourceListed (bitsOf v 16 16) = true)
    (harmed : cls = .f5 → s.flt.armPrev = true ∧ s.fld fFLT_CTRL_ARM_F5 = 1) :
    s.forceWrite v = s.disarmed.push (forcedEvent s v cls) := by
  simp only [State.forceWrite, hcls, hsrc]
  rw [if_neg]
  · rfl
  · rintro (hnot | ⟨h5, hunarmed⟩)
    · simp at hnot
    · obtain ⟨hprev, harm⟩ := harmed h5
      simp [hprev, harm] at hunarmed

theorem State.forceWrite_refused {s : State} {v : Nat}
    (hbad : FClass.named (bitsOf v 8 3) = none ∨ sourceListed (bitsOf v 16 16) = false
      ∨ (FClass.named (bitsOf v 8 3) = some .f5 ∧ (s.flt.armPrev = false ∨ s.fld fFLT_CTRL_ARM_F5 = 0))) :
    s.forceWrite v = s.disarmed.flag fFLT_STATUS_FORCE_REFUSED := by
  unfold State.forceWrite
  dsimp only
  cases hcls : FClass.named (bitsOf v 8 3) with
  | none => rfl
  | some cls =>
    refine if_pos ?_
    rw [hcls] at hbad
    rcases hbad with hnone | hsrc | ⟨h5, hunarmed⟩
    · cases hnone
    · exact .inl (by rw [hsrc]; rfl)
    · refine .inr ⟨Option.some.inj h5, ?_⟩
      rcases hunarmed with hprev | harm
      · simp [hprev]
      · simp [harm]

theorem State.arm_disarmed (s : State) : s.disarmed.fld fFLT_CTRL_ARM_F5 = 0 :=
  State.fld_setFld_same _ _ _ (by decide)

theorem State.refused_disarmed (s : State) :
    s.disarmed.fld fFLT_STATUS_FORCE_REFUSED = s.fld fFLT_STATUS_FORCE_REFUSED :=
  (State.fld_setFld_addr _ _ _ _ (by decide)).trans (State.fld_congr rfl rfl _)

/-- Settles O40: a force write injects its event, is refused, or only disarms. -/
theorem forceWritesInjectOrAreRefused : Obligations.ForceWritesInjectOrAreRefused := by
  refine ⟨fun v cls s hsafe hr hcls hsrc harmed => ?_, fun v s hsafe hr hbad => ?_, fun v s hsafe hr => ?_⟩
  · have hruns := fltForceWrite_completes v hsafe hr
    rw [State.forceWrite_injects hcls hsrc harmed] at hruns
    exact ⟨_, hruns, rfl, (State.fld_commit rfl _).trans s.arm_disarmed, (State.fld_commit rfl _).trans s.refused_disarmed⟩
  · have hruns := fltForceWrite_completes v hsafe hr
    rw [State.forceWrite_refused hbad] at hruns
    exact ⟨_, hruns, rfl, (State.fld_commit rfl _).trans (State.fld_setFld_same _ _ _ (by decide)),
      (State.fld_commit rfl _).trans ((State.fld_setFld_addr _ _ _ _ (by decide)).trans s.arm_disarmed)⟩
  · exact ⟨_, fltForceWrite_upper v hsafe hr, rfl, (State.fld_commit rfl _).trans s.arm_disarmed,
      (State.fld_commit rfl _).trans s.refused_disarmed⟩

end Sys2Proof.Machine
end

section
/-!
PROOFS. An F5 that is taken (R396): it is recorded and counted, and `enterSafe` halts the part, starts the flush and leaves the
records.
-/
namespace Sys2Proof.Machine

/-! ## What leaves the records and the counter of F5 as they are -/

structure State.KeepsRecords (s t : State) : Prop where
  hw : t.hw = s.hw
  flt : t.flt = s.flt
  count : t.reg aFLT_COUNT_F2345 = s.reg aFLT_COUNT_F2345

namespace State.KeepsRecords
variable {s t u : State}

theorem refl (s : State) : s.KeepsRecords s := ⟨rfl, rfl, rfl⟩

theorem setFld (h : s.KeepsRecords t) {f : Fld} (hf : aFLT_COUNT_F2345 ≠ f.addr) (v : Nat) : s.KeepsRecords (t.setFld f v) :=
  ⟨(State.setFld_hw ..).trans h.hw, (State.setFld_flt ..).trans h.flt, (State.reg_setFld_other _ _ _ hf).trans h.count⟩

theorem of_eq (h : s.KeepsRecords t) (hhw : u.hw = t.hw) (hregs : u.regs = t.regs) (hflt : u.flt = t.flt) :
    s.KeepsRecords u := ⟨hhw.trans h.hw, hflt.trans h.flt, (State.reg_congr hhw hregs _).trans h.count⟩

theorem emit (h : s.KeepsRecords t) (o : Out) : s.KeepsRecords (t.emit o) := h.of_eq rfl rfl rfl

theorem ite {p : Prop} [Decidable p] (ht : s.KeepsRecords t) (hu : s.KeepsRecords u) :
    s.KeepsRecords (if p then t else u) := by
  split
  · exact ht
  · exact hu

theorem latchFirst (h : s.KeepsRecords t) (e : ErrEvent) (c : FClass) : s.KeepsRecords (t.latchFirst e c) :=
  have hfields := ((((h.setFld (f := fFLT_FIRST_STATUS) (by decide) e.status.toNat).setFld (f := fFLT_FIRST_SOURCE)
    (by decide) e.src).setFld (f := fFLT_FIRST_CLASS) (by decide) c.code).setFld (f := fFLT_FIRST_CONTEXT) (by decide)
    e.ctx).setFld (f := fFLT_FIRST_VALID) (by decide) 1
  ⟨(State.putReg_hw ..).trans hfields.hw, (State.putReg_flt ..).trans hfields.flt,
    (State.reg_putReg_other _ _ (by decide)).trans hfields.count⟩

theorem startFlush (h : s.KeepsRecords t) : s.KeepsRecords t.startFlush := ite h (h.of_eq rfl rfl rfl)

theorem showFaultOut (h : s.KeepsRecords t) : s.KeepsRecords t.showFaultOut :=
  ite h ((h.setFld (f := fFLT_STATUS_FAULT_OUT) (by decide) _).emit _)

theorem enterSafe (h : s.KeepsRecords t) : s.KeepsRecords t.enterSafe := by
  have hgrave := h.setFld (f := fFLT_STATUS_GRAVE) (by decide) 1
  refine startFlush (List.foldlRecOn _ _ (of_eq (List.foldlRecOn _ _ hgrave fun u hu p _ => hu.emit _) rfl rfl rfl) ?_)
  exact fun u hu q _ => ite (hu.setFld (f := fCLK_STATUS_QPS) (by decide) _) hu

end State.KeepsRecords

/-! ## The record of the event (R383) -/

/-- A record is appended, its class is counted, and the event posted; nothing else changes. -/
theorem State.record_eq (s : State) (e : ErrEvent) (applied : FClass) (esc cons first : Bool) :
    ∃ r seq host, s.record e applied esc cons first = { (s.setFlt { s.flt with seq := seq, records := s.flt.records ++ [r] }).bump
      applied.counter 1 with host := host } := by
  unfold State.record
  dsimp only
  split <;> exact ⟨_, _, _, rfl⟩

theorem State.fld_bump_same (s : State) {f : Fld} (n : Nat) (h : f.lo + f.width ≤ 64) :
    (s.bump f n).fld f = min (s.fld f + n) (2 ^ f.width - 1) := by
  rw [State.bump, State.fld_setFld_same _ _ _ h]
  exact Nat.mod_eq_of_lt (Nat.lt_of_le_of_lt (Nat.min_le_right ..) (Nat.sub_lt (Nat.two_pow_pos _) Nat.one_pos))

theorem State.record_f5 (s : State) (e : ErrEvent) (esc cons first : Bool) :
    (s.record e .f5 esc cons first).hw = s.hw
      ∧ (s.record e .f5 esc cons first).flt.committed = s.flt.committed
      ∧ (s.record e .f5 esc cons first).flt.records.length = s.flt.records.length + 1
      ∧ (s.record e .f5 esc cons first).fld fFLT_COUNT_F2345_F5
        = min (s.fld fFLT_COUNT_F2345_F5 + 1) (2 ^ fFLT_COUNT_F2345_F5.width - 1) := by
  obtain ⟨r, seq, host, hrecord⟩ := s.record_eq e .f5 esc cons first
  let x := { s.flt with seq := seq, records := s.flt.records ++ [r] }
  have hhw : ((s.setFlt x).bump FClass.f5.counter 1).hw = s.hw := State.setFld_hw ..
  have hflt : ((s.setFlt x).bump FClass.f5.counter 1).flt = x := State.setFld_flt ..
  have hcount := (s.setFlt x).fld_bump_same (f := FClass.f5.counter) 1 (by decide)
  rw [hrecord]
  have hcommitted := congrArg FaultState.committed hflt
  have hlength := (congrArg (fun y : FaultState => y.records.length) hflt).trans List.length_append
  exact ⟨hhw, hcommitted, hlength, hcount⟩

/-! ## The halt (R396) -/

theorem State.safe_flag_grave (s : State) : (s.flag fFLT_STATUS_GRAVE).safe = true := by
  rw [State.safe, State.flag, State.fld_setFld_same _ _ _ (by decide)]
  decide

theorem State.enterSafe_halted (s : State) : s.enterSafe.Halted := by
  refine State.Halted.startFlush (List.foldlRecOn _ _ ⟨?_, ?_⟩ fun t ht q _ => .ite (ht.setFld (by decide) _) ht)
  · refine Eq.trans (State.safe_of_status (State.reg_congr rfl rfl _)) ?_
    exact List.foldlRecOn (motive := fun t : State => t.safe = true) _ _ s.safe_flag_grave
      fun t ht p _ => (State.safe_of_status (State.reg_congr rfl rfl _)).trans ht
  · simp only [State.quiet, Map.mapVals, List.all_map, List.isEmpty_nil, Bool.true_and, List.all_eq_true,
      Function.comp_apply, bne_iff_ne]
    intro r _ l _
    split
    · exact LaneRun.noConfusion
    · assumption

theorem State.startFlush_flushes {s : State} (h : s.hw.variant.hasMedia = true) :
    s.startFlush.media.flushing.isSome = true := by
  unfold State.startFlush
  split
  · next hno => simpa [h] using hno
  · rfl

theorem State.enterSafe_flushes {s : State} (h : s.hw.variant.hasMedia = true) :
    s.enterSafe.media.flushing.isSome = true := by
  obtain ⟨w, hw⟩ : ∃ w : State, s.enterSafe = w.startFlush := ⟨_, rfl⟩
  have hkept : w.startFlush.hw = s.hw := hw ▸ (State.KeepsRecords.refl s).enterSafe.hw
  have hsame : w.startFlush.hw = w.hw := ((State.KeepsRecords.refl w).startFlush).hw
  rw [hw]
  exact State.startFlush_flushes (by rw [← hsame, hkept, h])

theorem State.applyFault_f5 {s : State} {e : ErrEvent} (hsafe : s.safe = false) (hcls : e.cls = .f5) :
    s.applyFault e = State.enterSafe (if s.isFirst then (s.record e .f5 false false s.isFirst).latchFirst e .f5
      else s.record e .f5 false false s.isFirst) := by
  rw [State.applyFault, if_neg (by simp [hsafe]), hcls]
  dsimp only [State.escalate]
  rw [show (FClass.f5 != FClass.f5) = false from rfl]

theorem State.showFaultOut_media (s : State) : s.showFaultOut.media = s.media := by
  simp only [State.showFaultOut, apply_ite State.media]
  exact ite_self _

/-- Settles O32: the event is recorded and counted as F5, and the halt, which starts the flush, leaves the records. -/
theorem graveFaultEntersTheSafeState : Obligations.GraveFaultEntersTheSafeState := by
  intro e es s hsafe hcommitted hkind hcls
  let s₁ := s.setFlt { s.flt with committed := es }
  let r := s₁.record e .f5 false false s₁.isFirst
  let u := if s₁.isFirst then r.latchFirst e .f5 else r
  obtain ⟨hhw, hes, hlength, hcount⟩ := s₁.record_f5 e false false s₁.isFirst
  have hu : r.KeepsRecords u := .ite ((State.KeepsRecords.refl r).latchFirst e .f5) (.refl r)
  have hkeeps : r.KeepsRecords u.enterSafe.showFaultOut := hu.enterSafe.showFaultOut
  have htaken : s.takeFault = u.enterSafe.showFaultOut :=
    (State.takeFault_fault hcommitted hkind).trans (congrArg _ (State.applyFault_f5 hsafe hcls))
  have hhalted : (s.commit u.enterSafe.showFaultOut).Halted := u.enterSafe_halted.showFaultOut.commit s
  refine ⟨_, (execFaultCommit.eq_def s).trans (congrArg (fun t => Host.Outcome.next (s.commit t)) htaken),
    hhalted.safe, hhalted.quiet, ?_, ?_, ?_, ?_⟩
  · intro hmedia
    have hflushes := State.enterSafe_flushes (s := u) (by rw [hu.hw, hhw]; exact hmedia)
    rwa [← State.showFaultOut_media] at hflushes
  · exact (congrArg FaultState.committed hkeeps.flt).trans hes
  · exact (congrArg (fun y : FaultState => y.records.length) hkeeps.flt).trans hlength
  · rw [State.fld_commit_collector _ _ (by decide)]
    exact (congrArg (fun n => bitsOf n fFLT_COUNT_F2345_F5.lo fFLT_COUNT_F2345_F5.width) hkeeps.count).trans hcount

end Sys2Proof.Machine
end

section
/-!
PROOFS. The SAFE_STOP monitor (R394, R395): the qualification of a level, and what a demand or a disagreement leaves.
-/
namespace Sys2Proof.Machine

/-! ## What the monitor changes -/

/-- Only the monitor, the error lines and the listed registers differ. -/
structure State.MonitorOnly (regs : List Nat) (s t : State) : Prop where
  hw : t.hw = s.hw
  reg : ∀ a, a ∉ regs → t.reg a = s.reg a
  tiles : t.tiles = s.tiles
  net : t.net = s.net
  ctxs : t.ctxs = s.ctxs
  dtime : t.dtime = s.dtime
  standby : t.flt.sinceStandby = s.flt.sinceStandby

namespace State.MonitorOnly
variable {regs : List Nat} {s t u : State}

theorem refl (s : State) : MonitorOnly regs s s := ⟨rfl, fun _ _ => rfl, rfl, rfl, rfl, rfl, rfl⟩

theorem setFld (h : MonitorOnly regs s t) {f : Fld} (hf : f.addr ∈ regs) (v : Nat) : MonitorOnly regs s (t.setFld f v) :=
  ⟨(State.setFld_hw ..).trans h.hw,
    fun a ha => (State.reg_setFld_other _ _ _ (ne_of_mem_of_not_mem hf ha).symm).trans (h.reg a ha), h.tiles, h.net,
    h.ctxs, h.dtime,
    (congrArg FaultState.sinceStandby (State.setFld_flt ..)).trans h.standby⟩

theorem mono {more : List Nat} (h : MonitorOnly regs s t) : MonitorOnly (regs ++ more) s t :=
  ⟨h.hw, fun a ha => h.reg a (fun hmem => ha (List.mem_append_left _ hmem)), h.tiles, h.net, h.ctxs, h.dtime, h.standby⟩

theorem setFlt (h : MonitorOnly regs s t) {x : FaultState} (hx : x.sinceStandby = t.flt.sinceStandby) :
    MonitorOnly regs s (t.setFlt x) := ⟨h.hw, h.reg, h.tiles, h.net, h.ctxs, h.dtime, hx.trans h.standby⟩

theorem used (h : MonitorOnly regs s t) : MonitorOnly regs s t.used :=
  ⟨h.hw, h.reg, h.tiles, h.net, h.ctxs, h.dtime, h.standby⟩

theorem bump (h : MonitorOnly regs s t) {f : Fld} (hf : f.addr ∈ regs) (n : Nat) : MonitorOnly regs s (t.bump f n) :=
  h.setFld hf _

theorem flag (h : MonitorOnly regs s t) {f : Fld} (hf : f.addr ∈ regs) : MonitorOnly regs s (t.flag f) := h.setFld hf 1

theorem collectorEvent (h : MonitorOnly regs s t) (kind : EventKind) (st : Status) (unit ctx : Nat) (cls : FClass)
    (disc : Bool) : MonitorOnly regs s (t.collectorEvent kind st unit ctx cls disc) := h.setFlt rfl

theorem setChannel (h : MonitorOnly regs s t) (pin : Pin) (c : Channel) : MonitorOnly regs s (t.setChannel pin c) := by
  cases pin <;> exact h.setFlt rfl

section
variable (hregs : aFLT_SAFE_STATUS ∈ regs)
include hregs

theorem showChannels (h : MonitorOnly regs s t) : MonitorOnly regs s t.showChannels :=
  (((h.setFld (f := fFLT_SAFE_STATUS_A_RAW) hregs _).setFld (f := fFLT_SAFE_STATUS_B_RAW) hregs _).setFld
    (f := fFLT_SAFE_STATUS_A_QUALIFIED) hregs _).setFld (f := fFLT_SAFE_STATUS_B_QUALIFIED) hregs _

theorem demand (h : MonitorOnly regs s t) (disc : Bool) (skew : Nat) : MonitorOnly regs s (t.demand disc skew) :=
  have hskew := (h.setFlt (x := { t.flt with timer := none, demanded := true }) rfl).setFld
    (f := fFLT_SAFE_STATUS_LAST_SKEW_US) hregs (min skew (2 ^ 32 - 1))
  hskew.collectorEvent .fault stSAFE_STOP_DEMAND 1 noCtx .f5 disc

theorem disagree (hstatus : aFLT_STATUS ∈ regs) (h : MonitorOnly regs s t) : MonitorOnly regs s t.disagree :=
  have hskew := (h.setFlt (x := { t.flt with timer := none }) rfl).used.setFld (f := fFLT_SAFE_STATUS_LAST_SKEW_US) hregs
    (State.free (t.setFlt { t.flt with timer := none }) 32)
  ((hskew.bump (f := fFLT_SAFE_STATUS_DISAGREE_COUNT) hregs 1).flag (f := fFLT_STATUS_SAFE_DEGRADED) hstatus).collectorEvent
    .fault stSAFE_STOP_DISAGREE 1 noCtx .f3 false

end

/-- What a command that only moved the monitor leaves. -/
theorem commit (h : MonitorOnly regs s t) : MonitorOnly regs s (s.commit t) :=
  ⟨rfl, fun a ha => (State.reg_commit h.hw a).trans (h.reg a ha), h.tiles, h.net, h.ctxs, h.dtime, h.standby⟩

theorem monTime (h : MonitorOnly regs s t) : t.monTime = s.monTime := by
  rw [State.monTime, h.standby, h.dtime, State.monTime]

theorem fld (h : MonitorOnly regs s t) {f : Fld} (hf : f.addr ∉ regs) : t.fld f = s.fld f := by
  rw [State.fld, h.reg _ hf, State.fld]

end State.MonitorOnly

/-! ## A level that counts -/

/-- The channel takes its raw level, and the registers show it. -/
def State.atLevel (s : State) (pin : Pin) : State :=
  (s.setChannel pin { s.channel pin with qualified := (s.channel pin).raw, qualAt := s.monTime }).showChannels

section
variable (s : State) (pin : Pin)

theorem State.showChannels_flt : s.showChannels.flt = s.flt := by
  simp [State.showChannels]

theorem State.atLevel_only : State.MonitorOnly [aFLT_SAFE_STATUS] s (s.atLevel pin) :=
  ((State.MonitorOnly.refl s).setChannel ..).showChannels (by decide)

theorem State.atLevel_channel :
    (s.atLevel pin).channel pin = { s.channel pin with qualified := (s.channel pin).raw, qualAt := s.monTime } := by
  unfold State.atLevel State.channel
  rw [State.showChannels_flt]
  cases pin <;> rfl

theorem State.atLevel_other : (s.atLevel pin).channel pin.other = s.channel pin.other := by
  unfold State.atLevel State.channel
  rw [State.showChannels_flt]
  cases pin <;> rfl

theorem State.atLevel_timer : (s.atLevel pin).flt.timer = s.flt.timer := by
  unfold State.atLevel
  rw [State.showChannels_flt]
  cases pin <;> rfl

theorem State.atLevel_demanded : (s.atLevel pin).flt.demanded = s.flt.demanded := by
  unfold State.atLevel
  rw [State.showChannels_flt]
  cases pin <;> rfl

theorem State.atLevel_lines : (s.atLevel pin).flt.lines = s.flt.lines := by
  unfold State.atLevel
  rw [State.showChannels_flt]
  cases pin <;> rfl

end

/-- Before its end the timer demands nothing. -/
theorem State.timerFirst_before {s : State} (h : ∀ since, s.flt.timer = some since → s.monTime ≤ since + s.discrepancyNs) :
    s.timerFirst = s := by
  unfold State.timerFirst
  split
  · next since htimer => exact if_neg (Nat.not_lt.2 (h since htimer))
  · rfl

theorem State.atLevel_timerFirst {s : State} {pin : Pin}
    (h : ∀ since, s.flt.timer = some since → s.monTime ≤ since + s.discrepancyNs) :
    (s.atLevel pin).timerFirst = s.atLevel pin := by
  have honly := s.atLevel_only pin
  refine State.timerFirst_before fun since htimer => ?_
  rw [honly.monTime, State.discrepancyNs, honly.fld (by decide)]
  exact h since (s.atLevel_timer pin ▸ htimer)

/-! ## What a demand and a disagreement leave -/

/-- The event of the monitor. -/
def monitorEvent (s : State) (st : Status) (cls : FClass) (disc : Bool) : ErrEvent :=
  { kind := .fault, src := 0, status := st, unit := 1, ctx := noCtx, cls := cls, stamp := s.dtime, forced := false,
    discrepancy := disc, concurrent := false }

section
variable (s : State)

theorem State.demand_flt (disc : Bool) (skew : Nat) : (s.demand disc skew).flt = { s.flt with
    timer := none, demanded := true, lines := s.flt.lines ++ [monitorEvent s stSAFE_STOP_DEMAND .f5 disc] } := by
  simp [State.demand, State.collectorEvent, State.push, monitorEvent]

theorem State.demand_skew (disc : Bool) (skew : Nat) :
    (s.demand disc skew).fld fFLT_SAFE_STATUS_LAST_SKEW_US = min skew (2 ^ 32 - 1) :=
  (State.fld_setFld_same (s.setFlt { s.flt with timer := none, demanded := true }) fFLT_SAFE_STATUS_LAST_SKEW_US _
    (by decide)).trans (Nat.mod_eq_of_lt (Nat.lt_of_le_of_lt (Nat.min_le_right ..) (by decide)))

theorem State.disagree_flt : s.disagree.flt = { s.flt with
    timer := none, lines := s.flt.lines ++ [monitorEvent s stSAFE_STOP_DISAGREE .f3 false] } := by
  simp [State.disagree, State.collectorEvent, State.push, State.bump, State.flag, monitorEvent]

theorem State.fld_collectorEvent (kind : EventKind) (st : Status) (unit ctx : Nat) (cls : FClass) (disc : Bool) (f : Fld) :
    (s.collectorEvent kind st unit ctx cls disc).fld f = s.fld f := State.fld_congr rfl rfl f

theorem State.disagree_degraded : s.disagree.fld fFLT_STATUS_SAFE_DEGRADED = 1 := by
  unfold State.disagree
  dsimp only
  rw [State.fld_collectorEvent, State.flag, State.fld_setFld_same _ _ _ (by decide)]
  rfl

end

/-! ## What follows the level that counts -/

/-- No channel is asserted: the timer and the demand are over. -/
def State.released (s : State) : State := s.setFlt { s.flt with timer := none, demanded := false }

section
variable {s : State} {pin : Pin} (htimer : ∀ since, s.flt.timer = some since → s.monTime ≤ since + s.discrepancyNs)
include htimer

theorem State.qualified_atLevel_demand (hraw : (s.channel pin).raw = true) (hdemanded : s.flt.demanded = false)
    (hother : (s.channel pin.other).qualified = true) : (s.atLevel pin).qualified pin
      = (s.atLevel pin).demand false ((s.monTime - (s.channel pin.other).qualAt) / 1000) := by
  simp only [State.qualified, State.atLevel_timerFirst htimer, State.atLevel_channel, State.atLevel_other,
    State.atLevel_demanded, hraw, hdemanded, hother, if_true, Bool.false_eq_true, if_false]

theorem State.qualified_atLevel_lone (hraw : (s.channel pin).raw = true) (hdemanded : s.flt.demanded = false)
    (hother : (s.channel pin.other).qualified = false) : (s.atLevel pin).qualified pin
      = if s.fld fFLT_STATUS_SAFE_DEGRADED = 1 then (s.atLevel pin).loneDemand false
        else (s.atLevel pin).setFlt { (s.atLevel pin).flt with timer := some s.monTime } := by
  have honly := s.atLevel_only pin
  simp only [State.qualified, State.atLevel_timerFirst htimer, State.atLevel_channel, State.atLevel_other,
    State.atLevel_demanded, hraw, hdemanded, hother, if_true, Bool.false_eq_true, if_false,
    honly.fld (f := fFLT_STATUS_SAFE_DEGRADED) (by decide), honly.monTime]

theorem State.qualified_atLevel_disagree (hraw : (s.channel pin).raw = false)
    (hother : (s.channel pin.other).qualified = false) {since : Nat} (hsince : s.flt.timer = some since) :
    (s.atLevel pin).qualified pin
      = (s.atLevel pin).released.disagree := by
  simp only [State.qualified, State.atLevel_timerFirst htimer, State.atLevel_channel, State.atLevel_other,
    State.atLevel_timer, hraw, hother, hsince, State.released, Option.isSome_some, if_true, Bool.false_eq_true, if_false]

end

/-- The channels are the fault state's. -/
theorem State.channel_congr {s t : State} (hA : t.flt.chanA = s.flt.chanA) (hB : t.flt.chanB = s.flt.chanB) (pin : Pin) :
    t.channel pin = s.channel pin := by
  cases pin
  · exact hA
  · exact hB

section
variable (s w : State)

theorem State.channel_demand (disc : Bool) (skew : Nat) (pin : Pin) : (w.demand disc skew).channel pin = w.channel pin :=
  State.channel_congr (by rw [w.demand_flt]) (by rw [w.demand_flt]) pin

theorem State.atLevel_qualified {pin : Pin} (hraw : (s.channel pin).raw = true) :
    ((s.atLevel pin).channel pin).qualified = true := by
  rw [State.atLevel_channel, hraw]

/-- What a demand leaves, as the command that makes it commits it. -/
theorem State.commit_demand_flt (disc : Bool) (skew : Nat) :
    ∃ e, (s.commit (w.demand disc skew)).flt = { w.flt with timer := none, demanded := true, lines := w.flt.lines ++ [e] }
      ∧ e.cls = .f5 ∧ e.status = stSAFE_STOP_DEMAND ∧ e.stamp = w.dtime ∧ e.discrepancy = disc :=
  ⟨monitorEvent w stSAFE_STOP_DEMAND .f5 disc, w.demand_flt disc skew, rfl, rfl, rfl, rfl⟩

end

/-- A lone assertion or the timer's end is a demand with a free skew. -/
theorem State.MonitorOnly.loneDemand {s w : State} (h : MonitorOnly [aFLT_SAFE_STATUS] s w) (disc : Bool) :
    MonitorOnly [aFLT_SAFE_STATUS] s (w.loneDemand disc) := h.used.demand (by decide) ..

/-- Settles O41: the level is taken first, and the case of R394 then decides between demand, timer and disagreement. -/
theorem safeStopChannelsMakeDemands : Obligations.SafeStopChannelsMakeDemands := by
  refine ⟨fun pin s hearly => ?_, fun pin s hraw hqual hstable hdemanded hdegraded htimer => ?_,
    fun since s hsince hdue => ?_, fun pin since s hraw hqual hstable hother hsince hbefore => ?_,
    fun pin s hdegraded hraw hqual hstable hdemanded hnone => ?_⟩
  · exact runs_always (execSafeStopQualify.eq_def ..) (if_pos (.inr hearly))
  · have hruns := safeStopQualify_completes (by rw [hraw, hqual]; decide) hstable
    have honly := s.atLevel_only pin
    cases hother : (s.channel pin.other).qualified with
    | true =>
      rw [← State.atLevel, State.qualified_atLevel_demand htimer hraw hdemanded hother] at hruns
      have hdemand := honly.demand (by decide) false ((s.monTime - (s.channel pin.other).qualAt) / 1000)
      obtain ⟨e, hflt, hcls, hst, hstamp, hdisc⟩ :=
        s.commit_demand_flt (s.atLevel pin) false ((s.monTime - (s.channel pin.other).qualAt) / 1000)
      refine ⟨_, hruns, ?_, fun _ => ⟨by rw [hflt], ⟨e, by rw [hflt, State.atLevel_lines], hcls, hst,
        hstamp.trans honly.dtime, hdisc⟩, ?_⟩, fun h => (Bool.noConfusion h),
        fun a ha => hdemand.commit.reg a (by simpa using ha), hdemand.tiles, hdemand.net, hdemand.ctxs⟩
      · exact (congrArg Channel.qualified ((s.atLevel pin).channel_demand ..)).trans (s.atLevel_qualified hraw)
      · exact (State.fld_commit hdemand.hw _).trans ((s.atLevel pin).demand_skew ..)
    | false =>
      rw [← State.atLevel, State.qualified_atLevel_lone htimer hraw hdemanded hother, if_neg (by simp [hdegraded])] at hruns
      have htimed := honly.setFlt (x := { (s.atLevel pin).flt with timer := some s.monTime }) rfl
      refine ⟨_, hruns, ?_, fun h => Bool.noConfusion h, fun _ => ⟨s.atLevel_lines pin, rfl⟩,
        fun a ha => htimed.commit.reg a (by simpa using ha), htimed.tiles, htimed.net, htimed.ctxs⟩
      exact (congrArg Channel.qualified (State.channel_congr (s := s.atLevel pin) rfl rfl pin)).trans (s.atLevel_qualified hraw)
  · have hruns := discrepancyTimeout_completes hsince hdue
    have honly := (State.MonitorOnly.refl s).loneDemand true
    obtain ⟨e, hflt, hcls, hst, -, hdisc⟩ := s.commit_demand_flt s.used true (s.free 32)
    exact ⟨_, e, hruns, congrArg FaultState.lines hflt, hcls, hst, hdisc, congrArg FaultState.timer hflt,
      fun a ha => honly.commit.reg a (by simpa using ha), honly.tiles, honly.net, honly.ctxs⟩
  · have hruns := safeStopQualify_completes (by rw [hraw, hqual]; decide) hstable
    have htimer : ∀ since, s.flt.timer = some since → s.monTime ≤ since + s.discrepancyNs := fun n hn => by
      obtain rfl := Option.some.inj (hsince.symm.trans hn)
      exact hbefore.le
    rw [← State.atLevel, State.qualified_atLevel_disagree htimer hraw hother hsince] at hruns
    have honly : State.MonitorOnly ([aFLT_SAFE_STATUS] ++ [aFLT_STATUS]) s (s.atLevel pin).released :=
      (s.atLevel_only pin).mono.setFlt rfl
    have hflt := (s.atLevel pin).released.disagree_flt
    have hdisagree := honly.disagree (by decide) (by decide)
    refine ⟨_, monitorEvent (s.atLevel pin).released stSAFE_STOP_DISAGREE .f3 false, hruns,
      (congrArg FaultState.lines hflt).trans ?_, rfl, rfl, congrArg FaultState.timer hflt, ?_, ?_⟩
    · exact congrArg (· ++ _) (s.atLevel_lines pin)
    · exact (State.fld_commit hdisagree.hw _).trans (State.disagree_degraded _)
    · exact fun a h1 h2 => hdisagree.commit.reg a (by simp [h1, h2])
  · have hruns := safeStopQualify_completes (by rw [hraw, hqual]; decide) hstable
    have htimer : ∀ since, s.flt.timer = some since → s.monTime ≤ since + s.discrepancyNs := by simp [hnone]
    have honly := s.atLevel_only pin
    have hdegree : ∀ {w : State}, State.MonitorOnly [aFLT_SAFE_STATUS] s w →
        (s.commit w).fld fFLT_STATUS_SAFE_DEGRADED = 1 := fun h => (h.commit.fld (by decide)).trans hdegraded
    cases hother : (s.channel pin.other).qualified with
    | true =>
      rw [← State.atLevel, State.qualified_atLevel_demand htimer hraw hdemanded hother] at hruns
      obtain ⟨e, hflt, hcls, hst, -, -⟩ :=
        s.commit_demand_flt (s.atLevel pin) false ((s.monTime - (s.channel pin.other).qualAt) / 1000)
      exact ⟨_, e, hruns, by rw [hflt, State.atLevel_lines], hcls, hst, by rw [hflt], hdegree (honly.demand (by decide) ..)⟩
    | false =>
      rw [← State.atLevel, State.qualified_atLevel_lone htimer hraw hdemanded hother, if_pos hdegraded] at hruns
      obtain ⟨e, hflt, hcls, hst, -, -⟩ := s.commit_demand_flt (s.atLevel pin).used false ((s.atLevel pin).free 32)
      exact ⟨_, e, hruns, (congrArg FaultState.lines hflt).trans (congrArg (· ++ [e]) (s.atLevel_lines pin)), hcls, hst,
        congrArg FaultState.demanded hflt, hdegree (honly.loneDemand false)⟩

end Sys2Proof.Machine
end

section
/-!
PROOFS. Reset values, the governor's duty (R449), and that GCM opens what it seals (R371): a byte of a message is added to its
byte of the key stream, and adding it twice gives the byte back.
-/
namespace Sys2Proof.Machine

/-- Settles O28: closed facts about the state after reset. -/
theorem resetHoldsTheTablesValues : Obligations.ResetHoldsTheTablesValues := by
  unfold Obligations.ResetHoldsTheTablesValues
  decide +kernel

/-! ## The governor's duty (R449) -/

/-- The duties from 64 down, of which the governor takes the first that fits. -/
theorem dutyFor_cases (nonTile est : Nat) (allow : Int) :
    (∃ i, i < 64 ∧ dutyFor nonTile est allow = 64 - i ∧ ((nonTile * 640 + est * (64 - i) : Nat) : Int) ≤ allow * 640
        ∧ ∀ j, j < i → allow * 640 < ((nonTile * 640 + est * (64 - j) : Nat) : Int))
      ∨ (dutyFor nonTile est allow = 1 ∧ ∀ j, j < 64 → allow * 640 < ((nonTile * 640 + est * (64 - j) : Nat) : Int)) := by
  unfold dutyFor
  rw [List.find?_map]
  cases hfind : (List.range 64).find? _ with
  | none =>
    refine .inr ⟨rfl, fun j hj => ?_⟩
    have hnone := List.find?_eq_none.1 hfind j (List.mem_range.2 hj)
    simpa using hnone
  | some i =>
    obtain ⟨hfits, hmem, hfirst⟩ := List.find?_range_eq_some.1 hfind
    exact .inl ⟨i, List.mem_range.1 hmem, rfl, by simpa using hfits, fun j hj => by simpa using hfirst j hj⟩

/-- Settles O60: a duty d is the one 64 - d places down the list. -/
theorem dutyIsTheLargestWithinTheAllowance : Obligations.DutyIsTheLargestWithinTheAllowance := by
  intro nonTile est allow
  rcases dutyFor_cases nonTile est allow with ⟨i, hi, hduty, hfits, hfirst⟩ | ⟨hduty, hnone⟩
  · rw [hduty]
    refine ⟨by omega, Nat.sub_le .., .inl hfits, fun d hlow hhigh => ?_⟩
    have hover := hfirst (64 - d) (by omega)
    rwa [Nat.sub_sub_self hhigh] at hover
  · rw [hduty]
    refine ⟨le_refl 1, by decide, .inr rfl, fun d hlow hhigh => ?_⟩
    have hover := hnone (64 - d) (by omega)
    rwa [Nat.sub_sub_self hhigh] at hover

/-! ## Blocks and their exclusive or -/

theorem getD_slice_zero (data : Bytes) {i n : Nat} (h : i < n) : (slice data 0 n).getD i 0#8 = data.getD i 0#8 := by
  simp only [slice, zeros, List.drop_zero, List.getD_eq_getElem?_getD]
  by_cases hi : i < data.length
  · rw [List.getElem?_append_left (by simp; omega), List.getElem?_take_of_lt h]
  · rw [List.getElem?_append_right (by simp; omega), List.getElem?_replicate, List.getElem?_eq_none (by omega)]
    split <;> rfl

theorem length_slice (data : Bytes) (off n : Nat) : (slice data off n).length = n := by
  simp [slice, zeros]

theorem length_xorBytes (a b : Bytes) : (xorBytes a b).length = max a.length b.length := by
  induction a, b using xorBytes.induct with
  | case1 a as b bs ih => simp [xorBytes, ih]
  | case2 as => cases as <;> simp [xorBytes]
  | case3 bs => cases bs <;> simp [xorBytes]

theorem getD_xorBytes (a b : Bytes) (i : Nat) : (xorBytes a b).getD i 0#8 = a.getD i 0#8 ^^^ b.getD i 0#8 := by
  induction a, b using xorBytes.induct generalizing i with
  | case1 a as b bs ih => cases i <;> simp_all [xorBytes]
  | case2 as => cases as <;> simp [xorBytes]
  | case3 bs => cases bs <;> simp [xorBytes]

/-! ## The key stream -/

theorem aesRounds_length_le (ks : List (List Nat)) (st : List Nat) (h : ks ≠ []) : (aesRounds ks st).length ≤ 16 := by
  induction ks, st using aesRounds.induct with
  | case1 st => exact absurd rfl h
  | case2 st k => simp [aesRounds, xorNats, aesShift]
  | case3 k ks st hne ih =>
    rw [aesRounds]
    · exact ih hne
    · exact hne

theorem aesRoundKeys_length (key : Bytes) : 2 ≤ (aesRoundKeys key).length := by
  simp [aesRoundKeys]

/-- A block of key stream has at most 16 bytes. -/
theorem aesEncrypt_length_le (key block : Bytes) : (aesEncrypt key block).length ≤ 16 := by
  have hkeys := aesRoundKeys_length key
  unfold aesEncrypt
  split
  · next hnil => simp [hnil] at hkeys
  · next k ks hcons =>
    have hks : ks ≠ [] := by
      rintro rfl
      simp [hcons] at hkeys
    simpa [ofNats] using aesRounds_length_le ks _ hks

/-- Byte i of the key stream from counter c. -/
def keyByte (key nonce : Bytes) (c i : Nat) : Byte := (aesEncrypt key (nonce ++ toBE 4 (c + i / 16))).getD (i % 16) 0#8

section
variable (key nonce : Bytes)

theorem length_cryptBlock (b k : Bytes) : (xorBytes (slice b 0 16) (aesEncrypt key k)).length = 16 := by
  rw [length_xorBytes, length_slice, Nat.max_eq_left (aesEncrypt_length_le ..)]

theorem length_gcmCtr (n c : Nat) (data : Bytes) : (gcmCtr key nonce c (blocks16 n data)).length = 16 * n := by
  induction n generalizing c data with
  | zero => rfl
  | succ n ih => rw [blocks16, gcmCtr, List.length_append, length_cryptBlock, ih, Nat.mul_succ, Nat.add_comm]

theorem getD_gcmCtr {n i : Nat} (h : i < 16 * n) (c : Nat) (data : Bytes) :
    (gcmCtr key nonce c (blocks16 n data)).getD i 0#8 = data.getD i 0#8 ^^^ keyByte key nonce c i := by
  induction n generalizing i c data with
  | zero => omega
  | succ n ih =>
    rw [blocks16, gcmCtr]
    by_cases hi : i < 16
    · rw [List.getD_append _ _ _ _ (by rw [length_cryptBlock]; exact hi), getD_xorBytes, getD_slice_zero _ hi, keyByte,
        Nat.div_eq_of_lt hi, Nat.mod_eq_of_lt hi, Nat.add_zero]
    · have hnext : keyByte key nonce (c + 1) (i - 16) = keyByte key nonce c i := by
        rw [keyByte, keyByte, show c + 1 + (i - 16) / 16 = c + i / 16 by omega, show (i - 16) % 16 = i % 16 by omega]
      rw [List.getD_append_right _ _ _ _ (by rw [length_cryptBlock]; omega), length_cryptBlock,
        ih (by omega) (c + 1) (data.drop 16), hnext]
      simp [List.getD_eq_getElem?_getD, show 16 + (i - 16) = i by omega]

theorem length_gcmCrypt (data : Bytes) : (gcmCrypt key nonce data).length = data.length := by
  rw [gcmCrypt, List.length_take, blocksOf, length_gcmCtr, ceilDiv]
  omega

theorem getD_gcmCrypt (data : Bytes) {i : Nat} (h : i < data.length) :
    (gcmCrypt key nonce data).getD i 0#8 = data.getD i 0#8 ^^^ keyByte key nonce 2 i := by
  rw [gcmCrypt, List.getD_eq_getElem?_getD, List.getElem?_take_of_lt h, ← List.getD_eq_getElem?_getD, blocksOf,
    getD_gcmCtr _ _ (by rw [ceilDiv]; omega)]

theorem gcmCrypt_gcmCrypt (data : Bytes) : gcmCrypt key nonce (gcmCrypt key nonce data) = data := by
  have hlength : (gcmCrypt key nonce (gcmCrypt key nonce data)).length = data.length := by
    rw [length_gcmCrypt, length_gcmCrypt]
  refine List.ext_getElem hlength fun i h h' => ?_
  have hbyte := getD_gcmCrypt key nonce (gcmCrypt key nonce data) (i := i) (by rwa [length_gcmCrypt])
  rw [getD_gcmCrypt _ _ _ h', BitVec.xor_assoc, BitVec.xor_self, BitVec.xor_zero] at hbyte
  rwa [List.getD_eq_getElem _ _ h, List.getD_eq_getElem _ _ h'] at hbyte

end

/-- Settles O57: the tag is the same, and the key stream added twice gives the plaintext back. -/
theorem sealedDataOpens : Obligations.SealedDataOpens := fun key nonce _ pt _ _ =>
  (if_pos rfl).trans (congrArg some (gcmCrypt_gcmCrypt key nonce pt))

end Sys2Proof.Machine
end

section
/-!
PROOFS. Resets and functions (R349, R357, R421), and power (R445 to R451): each command runs the effect that its state permits.
-/
namespace Sys2Proof.Machine

/-! ## Resets and functions -/

section
variable {s : State} (hsafe : s.safe = false)
include hsafe

theorem perstNAssert_completes (hperst : s.mod.perst = false) :
    Runs .perstNAssert s (State.resetPcie { s.deviceReset with mod := { s.mod with perst := true } }) :=
  runs_act (execPerstNAssert.eq_def ..) hsafe (if_neg (by simp [hperst]))

theorem modResetNAssert_completes (hreset : s.mod.modReset = false) :
    Runs .modResetNAssert s { s.moduleReset with mod := { s.moduleReset.mod with modReset := true } } :=
  runs_act (execModResetNAssert.eq_def ..) hsafe (if_neg (by simp [hreset]))

theorem vfFlr_completes {vf : Fin 64} (hvf : vf ≠ 0) (hready : s.host.vfReady.contains vf.val) :
    Runs (.vfFlr vf) s (s.vfReset vf) :=
  runs_act (execVfFlr.eq_def ..) hsafe (if_neg (by rw [hready]; simp [hvf]))

theorem vfEnable_completes (count : Fin 64) (hnone : s.host.numVFs = 0) :
    Runs (.vfEnable count) s (((List.range count).map (· + 1)).foldl State.attach
      { s with host := { s.host with numVFs := count, vfReady := (List.range count).map (· + 1) } }) :=
  runs_act (execVfEnable.eq_def ..) hsafe (if_neg (not_not.2 hnone))

theorem vfFlrComplete_completes {vf : Fin 64} (hvf : vf ≠ 0) (henabled : vf.val ≤ s.host.numVFs)
    (hnot : s.host.vfReady.contains vf.val = false) :
    Runs (.vfFlrComplete vf) s (State.attach { s with host := { s.host with vfReady := s.host.vfReady ++ [vf.val] } } vf) :=
  runs_act (execVfFlrComplete.eq_def ..) hsafe (if_neg (by rw [hnot]; simp [hvf, henabled]))

end

/-- Settles O4: each reset and each change of a function runs its effect. -/
theorem resetsAndFunctionsComplete : Obligations.ResetsAndFunctionsComplete := by
  refine ⟨fun s hsafe => perstNAssert_completes hsafe, fun s hsafe => modResetNAssert_completes hsafe, fun s hsafe => ?_,
    fun vf s hsafe => vfFlr_completes hsafe, fun s hsafe => ?_, fun count s hsafe => vfEnable_completes hsafe count,
    fun vf s hsafe => vfFlrComplete_completes hsafe, fun d3hot s hsafe hup => ?_, fun s hsafe => ?_,
    fun s hsafe hreset => ?_⟩
  · exact runs_act (execPf0Flr.eq_def ..) hsafe rfl
  · exact ⟨_, runs_act (execVfDisable.eq_def ..) hsafe rfl, rfl, rfl⟩
  · exact ⟨_, runs_act (execPf0PowerState.eq_def ..) hsafe (if_pos hup), rfl, rfl⟩
  · exact ⟨_, runs_act (execPerstNRelease.eq_def ..) hsafe rfl, rfl, rfl⟩
  · exact ⟨_, runs_act (execModResetNRelease.eq_def ..) hsafe (if_pos hreset), rfl, rfl⟩

/-! ## Rails (R445, R359) -/

section
variable {s : State}

theorem p3v3StbyApply_completes (hoff : s.mod.p3v3 = false) :
    Runs (.railApply .p3v3Stby) s (s.setMod { s.mod with p3v3 := true }) :=
  runs_always (execRailApply.eq_def .p3v3Stby s) (by simp [hoff])

theorem p12vAuxApply_completes (hoff : s.mod.p12v = false) (hstandby : s.mod.p3v3 = true) :
    Runs (.railApply .p12vAux) s (s.setMod { s.mod with p12v := true }) :=
  runs_always (execRailApply.eq_def .p12vAux s) (by simp [hoff, hstandby])

theorem p54vApply_completes (hoff : s.mod.p54v = false) (hstandby : s.mod.p3v3 = true) (haux : s.mod.p12v = true) :
    Runs (.railApply .p54v) s ((s.setMod { s.mod with p54v := true, held := false }).monitorStart.showFaultOut) :=
  runs_always (execRailApply.eq_def .p54v s) (by simp [hoff, hstandby, haux])

/-! ## PWR_GOOD and the hold-up store (R446, R447) -/

theorem State.startFlush_mod (s : State) : s.startFlush.mod = s.mod := by
  unfold State.startFlush
  split <;> rfl

theorem pwrGoodFall_completes (hgood : s.mod.pwrGood = true) :
    Runs .pwrGoodFall s (if s.fld fPWR_STATUS_HOLDUP_OK = 1 then (s.setMod { s.mod with pwrGood := false }).startFlush
      else s.setMod { s.mod with pwrGood := false }) :=
  runs_always (execPwrGoodFall.eq_def ..) (if_neg (by simp [hgood]))

theorem pwrGoodFall_flushes (hgood : s.mod.pwrGood = true) :
    ∃ t, exec .pwrGoodFall s = .next t ∧ t.mod = { s.mod with pwrGood := false }
      ∧ (s.fld fPWR_STATUS_HOLDUP_OK = 1 → s.hw.variant.hasMedia → t.media.flushing.isSome) := by
  have hruns := pwrGoodFall_completes hgood
  by_cases hholdup : s.fld fPWR_STATUS_HOLDUP_OK = 1
  · rw [if_pos hholdup] at hruns
    exact ⟨_, hruns, State.startFlush_mod _, fun _ hmedia => State.startFlush_flushes
      (s := s.setMod { s.mod with pwrGood := false }) hmedia⟩
  · rw [if_neg hholdup] at hruns
    exact ⟨_, hruns, rfl, fun h => absurd h hholdup⟩

theorem holdupMeasure_completes (joules : Nat) (hpower : s.mod.p54v = true)
    (hdue : s.mod.measuredAt = 0 ∨ s.mod.measuredAt + 24 * 3600 * 10 ^ 9 ≤ s.dtime) :
    Runs (.holdupMeasure joules) s ((s.setMod { s.mod with measuredAt := s.dtime }).setHoldup (30 ≤ joules)) := by
  refine runs_always (execHoldupMeasure.eq_def ..) (if_neg ?_)
  rintro (hoff | ⟨hmeasured, hearly⟩)
  · simp [hpower] at hoff
  · exact hdue.elim hmeasured (Nat.not_le.2 hearly)

/-! ## The governor and the junction (R448 to R451) -/

theorem governorSample_completes (input nonTile : Nat) (est : List Nat) (pulses inlet : Nat) (still : Bool)
    (hsafe : s.safe = false) (hpower : s.mod.p54v = true)
    (hdue : s.pwr.samples = [] ∨ s.pwr.sampledAt + 10000 ≤ s.dtime) :
    Runs (.governorSample input nonTile est pulses inlet still) s (s.governor input nonTile est pulses inlet still) := by
  refine runs_act (execGovernorSample.eq_def ..) hsafe (if_neg ?_)
  rintro (hoff | ⟨hsampled, hearly⟩)
  · simp [hpower] at hoff
  · exact hdue.elim (fun hnone => by simp [hnone] at hsampled) (Nat.not_le.2 hearly)

theorem thermalSample_completes (sensor tj : Nat) (hpower : s.mod.p54v = true)
    (hdue : s.fld fPWR_THERMAL_TJ_MAX_C = 0 ∨ s.pwr.thermalAt + 100000 ≤ s.dtime) :
    Runs (.thermalSample sensor tj) s (s.junction sensor tj) := by
  refine runs_always (execThermalSample.eq_def ..) (if_neg ?_)
  rintro (hoff | ⟨hread, hearly⟩)
  · simp [hpower] at hoff
  · exact hdue.elim hread (Nat.not_le.2 hearly)

section
variable (hsafe : s.safe = false) (hsoft : s.fld fPWR_STATUS_THROTTLE_SOFT ≠ 0)
include hsafe hsoft

theorem thermalSoftStep_lowers (hfalling : s.pwr.falling = true) (hdue : s.pwr.stepAt + 1000000 ≤ s.dtime) :
    Runs .thermalSoftStep s (s.setPwr { s.pwr with lowered := min 100 (s.pwr.lowered + 2), stepAt := s.dtime }) :=
  runs_act (execThermalSoftStep.eq_def ..) hsafe (by simp [hsoft, hfalling, Nat.not_lt.2 hdue])

theorem thermalSoftStep_raises (hrising : s.pwr.falling = false) (hdue : s.pwr.stepAt + 10000000 ≤ s.dtime)
    (hleft : 1 < s.pwr.lowered) :
    Runs .thermalSoftStep s (s.setPwr { s.pwr with lowered := s.pwr.lowered - 1, stepAt := s.dtime }) := by
  refine runs_act (execThermalSoftStep.eq_def ..) hsafe ?_
  simp only [hrising, Bool.false_eq_true, if_false]
  rw [if_neg (not_or.2 ⟨hsoft, Nat.not_lt.2 hdue⟩)]
  exact if_neg (Nat.sub_ne_zero_of_lt hleft)

end

end

/-- Settles O5: each command runs its effect, and a fall of PWR_GOOD starts the flush that the hold-up store carries. -/
theorem powerCompletes : Obligations.PowerCompletes := by
  refine ⟨fun stored s hon => ?_, fun stored s hon => ?_, fun s hoff => ?_, fun s hoff hstandby => ?_,
    fun s hoff hstandby haux => ?_, fun s hgood => ?_, fun s hbad => ?_, fun s hok => ?_, fun s hon hlow => ?_,
    fun joules s hon hdue => ?_, fun input nonTile est pulses inlet still s hsafe hon hdue => ?_,
    fun sensor tj s hon hdue => ?_, fun s hsafe hsoft hfalling hdue => ?_, fun s hsafe hsoft hrising hdue hleft => ?_⟩
  · exact runs_always (execP54vRemove.eq_def ..) (if_pos hon)
  · exact runs_always (execP3v3StbyRemove.eq_def ..) (if_pos hon)
  · exact ⟨_, p3v3StbyApply_completes hoff, rfl, rfl⟩
  · exact ⟨_, p12vAuxApply_completes hoff hstandby, rfl, rfl⟩
  · exact p54vApply_completes hoff hstandby haux
  · exact pwrGoodFall_flushes hgood
  · exact ⟨_, runs_always (execPwrGoodRise.eq_def ..) (if_neg (by simp [hbad])), rfl, rfl⟩
  · exact runs_always (execHoldupOkFall.eq_def ..) rfl
  · exact runs_always (execHoldupOkRise.eq_def ..) (if_pos hon)
  · exact holdupMeasure_completes joules hon hdue
  · exact governorSample_completes input nonTile est pulses inlet still hsafe hon hdue
  · exact thermalSample_completes sensor tj hon hdue
  · exact ⟨_, thermalSoftStep_lowers hsafe hsoft hfalling hdue, rfl, rfl⟩
  · exact ⟨_, thermalSoftStep_raises hsafe hsoft hrising hdue hleft, rfl, rfl⟩

end Sys2Proof.Machine
end

section
/-!
PROOFS. Clocks and crossings (R452 to R455): each command runs the effect that the state of its quarter, pin or link permits.
-/
namespace Sys2Proof.Machine

/-! ## Quarters and PLLs (R452, R453) -/

section
variable {s : State} {q : Fin 4} (hsafe : s.safe = false) (hpresent : s.quarterPresent q = true)
include hsafe hpresent

theorem quarterIdleEntry_toQps1 {idle : Nat} (hqps : s.qps q = 0) (hidle : s.quarterIdle q = true)
    (hon : s.fld fCLK_QPS_CFG_IDLE1_US ≠ 0) (hlong : s.fld fCLK_QPS_CFG_IDLE1_US * 1000 ≤ idle) :
    Runs (.quarterIdleEntry q idle) s (s.setQps q 1) := by
  refine runs_act (execQuarterIdleEntry.eq_def ..) hsafe ?_
  simp [hpresent, hqps, hidle, hon, hlong]

theorem quarterWake_completes (hqps : s.qps q ≠ 0) : Runs (.quarterWake q) s
    (((s.clockFrom q (exitLatency (s.qps q))).setQps q 0).flag (fCLK_STATUS_PLL_LOCK.bit q)) :=
  runs_act (execQuarterWake.eq_def ..) hsafe (if_neg (by simp [hpresent, hqps]))

omit hsafe in
theorem pllUnlock_quarter (hlocked : s.fld (fCLK_STATUS_PLL_LOCK.bit q) ≠ 0) : Runs (.pllUnlock (some q)) s
    ((((s.unflag (fCLK_STATUS_PLL_LOCK.bit q)).flag fCLK_ERR_PLL_UNLOCK).lockLost q).raise (srcQUARTER q) stPLL_UNLOCK 1
      noCtx .f3) :=
  runs_always (execPllUnlock.eq_def (some q) s) (if_neg (by simp [hpresent, hlocked]))

/-! ## Quarter links (R455) -/

section
variable (hdown : s.clock.links.contains q.val = false) (hunfenced : s.clock.fenced.contains q.val = false)
  (hruns : s.clockRuns q = true)
include hdown hunfenced hruns

theorem cdcResync_sends (hquiet : Map.find s.clock.syncAt q = none) :
    Runs (.cdcResync q false) s (s.setClock { s.clock with syncAt := Map.put s.clock.syncAt q s.dtime }) := by
  refine runs_act (execCdcResync.eq_def ..) hsafe ?_
  dsimp only
  rw [hpresent, hdown, hunfenced, hruns, hquiet]
  rfl

theorem cdcResync_enables {since : Nat} (hsent : Map.find s.clock.syncAt q = some since) (hearly : s.dtime < since + 10000) :
    Runs (.cdcResync q true) s
      (s.setClock { s.clock with syncAt := Map.del s.clock.syncAt q, links := s.clock.links ++ [q.val] }) := by
  refine runs_act (execCdcResync.eq_def ..) hsafe ?_
  dsimp only
  rw [hpresent, hdown, hunfenced, hruns, hsent]
  exact if_pos (And.intro rfl hearly)

end

end

section
variable {s : State}

theorem cdcSyncTimeout_completes {q : Fin 4} {since : Nat} (hsent : Map.find s.clock.syncAt q = some since)
    (hdue : since + 10000 ≤ s.dtime) : Runs (.cdcSyncTimeout q) s (s.linkFault q fCLK_ERR_CDC_SYNC stCDC_SYNC) :=
  runs_always (execCdcSyncTimeout.eq_def ..) (by simp [hsent, hdue])

section
variable {q : Fin 4} {vc : Fin 3} {stamp : Nat} {rest : List Nat} (hsafe : s.safe = false)
include hsafe

theorem cdcEntryRead_up (hentry : Map.getD s.clock.fifos (fifoKey q true vc) [] = stamp :: rest)
    (hdue : stamp + 4 ≤ s.dtime) : Runs (.cdcEntryRead q true vc) s
      (s.setClock { s.clock with fifos := Map.setD [] s.clock.fifos (fifoKey q true vc) rest }) := by
  refine runs_act (execCdcEntryRead.eq_def ..) hsafe ?_
  simp [hentry, Nat.not_lt.2 hdue]

theorem cdcEntryRead_down (hentry : Map.getD s.clock.fifos (fifoKey q false vc) [] = stamp :: rest)
    (hruns : s.quarterRuns q = true) (hdue : max stamp (Map.getD s.clock.clockAt q 0) + 4 ≤ s.dtime) :
    Runs (.cdcEntryRead q false vc) s
      (s.setClock { s.clock with fifos := Map.setD [] s.clock.fifos (fifoKey q false vc) rest }) := by
  refine runs_act (execCdcEntryRead.eq_def ..) hsafe ?_
  simp only [hentry, hruns, Bool.false_eq_true, if_false]
  exact if_neg (by simp [Nat.not_lt.2 hdue])

end

/-! ## Profiles and time pins (R453, R454) -/

theorem clockProfile_completes {sq : Fin 256} {r : HostReq} {profile : Nat} (h : Asked s 0 sq 0x4A r) (hlisted : profile ≤ 2)
    (hstill : (s.taken r).anySeatedRun = false) : Runs (.clockProfile sq profile) s
      (((((List.range s.hw.variant.quarters).filter (fun q => (s.taken r).qps q ≤ 1)).foldl
        (fun s q => s.clockFrom q (200000 * (q + 1))) (s.taken r)).setFld fCLK_STATUS_PROFILE profile).answer r stOK) := by
  refine runs_asked (execClockProfile.eq_def ..) h ?_
  rw [if_neg (Nat.not_lt.2 hlisted), hstill]
  rfl

section
variable (hsafe : s.safe = false)
include hsafe

theorem ppsInMissing_completes (hon : s.fld fCLK_PPS_CFG_PPS_IN_EN ≠ 0) (hfirst : s.clock.ppsMissed = false)
    (hdue : s.reg aCLK_PPS_IN_STAMP + 1500000000 ≤ s.dtime) : Runs .ppsInMissing s
      (((s.setClock { s.clock with ppsMissed := true }).flag fCLK_ERR_PPS_IN_MISSING).used.raise (s.free 16)
        stPPS_IN_MISSING 0 noCtx .f0) := by
  refine runs_act (execPpsInMissing.eq_def s) hsafe (if_neg ?_)
  simp [hon, hfirst, Nat.not_lt.2 hdue]

theorem ppsOutPulse_rises (hlow : s.clock.ppsOutAt = none) (hon : s.fld fCLK_PPS_CFG_PPS_OUT_EN = 1)
    (htimed : s.fld fSTEP_STATUS_TIME ≤ 1) (hsecond : s.dtime % 10 ^ 9 = 0) : Runs .ppsOutPulse s
      ((s.setClock { s.clock with ppsOutAt := some s.dtime }).emit (.pin .ppsOut true)) := by
  refine runs_act (execPpsOutPulse.eq_def s) hsafe ?_
  rw [hlow]
  exact if_pos ⟨hon, htimed, hsecond⟩

theorem ppsOutPulse_falls {since : Nat} (hhigh : s.clock.ppsOutAt = some since)
    (hdue : since + s.fld fCLK_PPS_CFG_OUT_WIDTH_MS * 1000000 ≤ s.dtime) : Runs .ppsOutPulse s
      ((s.setClock { s.clock with ppsOutAt := none }).emit (.pin .ppsOut false)) := by
  refine runs_act (execPpsOutPulse.eq_def s) hsafe ?_
  rw [hhigh]
  exact if_pos hdue

end

end

/-- Settles O6: each command runs its effect. -/
theorem clocksComplete : Obligations.ClocksComplete := by
  refine ⟨fun q idle s hsafe hpresent => quarterIdleEntry_toQps1 hsafe hpresent,
    fun q s hsafe hpresent => quarterWake_completes hsafe hpresent, fun sq r profile s => clockProfile_completes,
    fun q s _ hpresent => pllUnlock_quarter hpresent, fun s hlocked => ?_, fun offset s hsafe hon => ?_,
    fun s hsafe => ppsInMissing_completes hsafe, fun s hsafe hlow hon htimed hsecond => ?_,
    fun since s hsafe hhigh hdue => ?_, fun q s hsafe hpresent hdown hunfenced hruns hquiet => ?_,
    fun q since s hsafe hpresent hdown hunfenced hruns hsent hearly => ?_, fun q since s => cdcSyncTimeout_completes,
    fun q s hpresent => ?_, fun q vc stamp rest s hsafe => cdcEntryRead_up hsafe,
    fun q vc stamp rest s hsafe => cdcEntryRead_down hsafe⟩
  · exact runs_always (execPllUnlock.eq_def none s) (if_neg hlocked)
  · exact runs_act (execPpsInEdge.eq_def ..) hsafe (if_neg hon)
  · exact ⟨_, ppsOutPulse_rises hsafe hlow hon htimed hsecond, rfl, rfl, rfl⟩
  · exact ⟨_, ppsOutPulse_falls hsafe hhigh hdue, rfl, rfl, rfl⟩
  · exact ⟨_, cdcResync_sends hsafe hpresent hdown hunfenced hruns hquiet, rfl, rfl⟩
  · exact ⟨_, cdcResync_enables hsafe hpresent hdown hunfenced hruns hsent hearly, rfl, rfl⟩
  · exact runs_always (execCdcUncorrected.eq_def ..) (if_pos hpresent)

end Sys2Proof.Machine
end

section
/-!
PROOFS. Rings (R334, R356, R431 to R436): what the device examines and writes, and the opcodes NOP and DUMP.
-/
namespace Sys2Proof.Machine

/-! ## Entries the device writes (R433, R434, R356) -/

section
variable {s : State}

theorem State.atQuantum_zero (s : State) : s.atQuantum 0 = true := by
  simp [State.atQuantum]

theorem State.releaseOne_found {c q : Nat} {e : Completion} (hdone : s.host.done.find? (fun e => e.ctx == c && e.cq == q) = some e)
    (hon : s.ringOn c q rkCQ = true) (hgood : s.ringError c q = false) (hroom : s.ringRoom c q = true) :
    s.releaseOne c q = State.writeEntry { s with host := { s.host with done := s.host.done.erase e } } c q
      (e.entry (s.ringPtr c q).phase) := by
  rw [State.releaseOne, hdone]
  exact if_neg (by simp [hon, hgood, hroom])

/-- The owner's events are written as plaintext. -/
theorem State.writeEvent_owner {e : EventItem} {r : Nat} (hevent : s.host.events.find? (fun e => e.ctx == 0) = some e)
    (hring : s.eventRing e = some r) (hgood : s.ringError 0 r = false) (hroom : s.ringRoom 0 r = true) :
    s.writeEvent 0 = State.writeEntry { s with host := { s.host with events := s.host.events.erase e } } 0 r
      (e.plain (s.ringPtr 0 r).phase) := by
  simp [State.writeEvent, hevent, hring, hgood, hroom]

variable (hsafe : s.safe = false)
include hsafe

theorem completionRelease_completes {ctx : Fin 64} {cq : Fin 256} {e : Completion} (hinstant : s.atQuantum ctx = true)
    (hdone : s.host.done.find? (fun e => e.ctx == ctx.val && e.cq == cq.val) = some e) (hon : s.ringOn ctx cq rkCQ = true)
    (hgood : s.ringError ctx cq = false) (hroom : s.ringRoom ctx cq = true) : Runs (.completionRelease ctx cq) s
      (State.writeEntry { s with host := { s.host with done := s.host.done.erase e } } ctx cq
        (e.entry (s.ringPtr ctx cq).phase)) :=
  runs_act (execCompletionRelease.eq_def ..) hsafe ((if_pos hinstant).trans (State.releaseOne_found hdone hon hgood hroom))

theorem eventEntryWrite_owner {e : EventItem} {r : Nat} (hevent : s.host.events.find? (fun e => e.ctx == 0) = some e)
    (hring : s.eventRing e = some r) (hgood : s.ringError 0 r = false) (hroom : s.ringRoom 0 r = true) :
    Runs (.eventEntryWrite 0) s (State.writeEntry { s with host := { s.host with events := s.host.events.erase e } } 0 r
      (e.plain (s.ringPtr 0 r).phase)) :=
  runs_act (execEventEntryWrite.eq_def 0 s) hsafe
    ((if_pos s.atQuantum_zero).trans (State.writeEvent_owner hevent hring hgood hroom))

theorem quantumInstant_completes {ctx : Fin 64} (htenant : ctx ≠ 0) (hinstant : s.atQuantum ctx = true) :
    Runs (.quantumInstant ctx) s
      (((s.host.done.filter (fun e => e.ctx == ctx.val)).foldl (fun s e => s.releaseOne ctx e.cq) s).sendHeld ctx) := by
  have hdue : ¬ (ctx = 0 ∨ (!s.atQuantum ctx) = true) := not_or.2 ⟨htenant, by simp [hinstant]⟩
  exact runs_act (execQuantumInstant.eq_def ..) hsafe (if_neg hdue)

/-! ## Descriptors (R431, R432) and MSI-X (R436) -/

theorem descriptorExamine_completes {ctx : Fin 64} {sq : Fin 256} (d : Vector Byte 64) (dma : Bool)
    (hready : s.canExamine ctx sq = true) : Runs (.descriptorExamine ctx sq true d dma) s (s.examine ctx sq d.toList dma) :=
  runs_act (execDescriptorExamine.eq_def ctx sq true d dma s) hsafe
    ((if_neg (by simp [hready])).trans (if_neg Bool.noConfusion))

theorem descriptorExamine_faults {ctx : Fin 64} {sq : Fin 256} (d : Vector Byte 64) (dma : Bool)
    (hready : s.canExamine ctx sq = true) : Runs (.descriptorExamine ctx sq false d dma) s (s.ringFault ctx sq) :=
  runs_act (execDescriptorExamine.eq_def ctx sq false d dma s) hsafe
    ((if_neg (by simp [hready])).trans (if_pos rfl))

theorem msixUnmask_sends {fn : Fin 64} {v : Fin 32} (hreaches : s.reaches fn = true)
    (hmasked : bitOf (s.msixOf fn).masked v = true) (hwaits : bitOf (s.msixOf fn).pendingBits v = true) :
    Runs (.msixUnmask fn v) s ((s.setMsix fn { s.msixOf fn with
      masked := putBits (s.msixOf fn).masked v 1 0
      pendingBits := putBits (s.msixOf fn).pendingBits v 1 0 }).signal fn v) :=
  runs_act (execMsixUnmask.eq_def ..) hsafe ((if_neg (by simp [hreaches, hmasked])).trans (if_pos hwaits))

end

/-! ## NOP and DUMP (R334) -/

theorem dump_completes {ctx : Fin 64} {sq : Fin 256} {r : HostReq} {n : Nat} {ct tag : Bytes} {s t : State}
    (h : Asked s ctx sq 0x02 r) (hsealed : (s.taken r).sealOut ctx ((s.taken r).syncDump ctx) = some (n, ct, tag, t))
    (hfits : (sealedBytes n ct tag).length ≤ r.len) :
    Runs (.dump ctx sq) s ((t.writeBuf r (sealedBytes n ct tag)).answer r stOK) := by
  refine runs_asked (execDump.eq_def ..) h ?_
  rw [hsealed]
  exact if_neg (Nat.not_lt.2 hfits)

/-- Settles O7: each command runs its effect. -/
theorem ringsComplete : Obligations.RingsComplete := by
  refine ⟨fun ctx sq d dma s hsafe hready => ⟨?_, ?_⟩,
    fun ctx cq e s hsafe hinstant hdone hon hgood hroom => completionRelease_completes hsafe hinstant hdone hon hgood hroom,
    fun e r s hsafe => eventEntryWrite_owner hsafe, fun ctx s hsafe => quantumInstant_completes hsafe,
    fun fn v s hsafe => msixUnmask_sends hsafe, fun ctx sq r s h => ?_, fun ctx sq r n ct tag s t => dump_completes⟩
  · exact descriptorExamine_completes hsafe d dma hready
  · exact descriptorExamine_faults hsafe d dma hready
  · exact runs_asked (execNop.eq_def ..) h rfl

end Sys2Proof.Machine
end

section
/-!
PROOFS. Firmware update and boot (R397, R404, R458 to R466): an update opcode answers what `runUpd` gives, or waits for the
switch that it starts.
-/
namespace Sys2Proof.Machine

/-! ## Update opcodes (R461 to R466) -/

section
variable (i : Instr) {s t : State} {sq opcode : Nat} {r : HostReq} {sized : HostReq → Bool} {op : UpdOp}
  (he : exec i s = act s (fun s => s.onUpd sq opcode sized op)) (h : Asked s 0 sq opcode r) (hsized : sized r = true)
include he h hsized

theorem runs_upd {st : Status} (hrun : (s.taken r).runUpd op = (st, t, none)) : Runs i s (t.answer r st) := by
  refine runs_asked he h ?_
  rw [if_neg (by simp [hsized]), hrun]

theorem runs_updSwitch {st : Status} {c : Nat} (hrun : (s.taken r).runUpd op = (st, t, some c)) :
    Runs i s (t.await r (.update c)) := by
  refine runs_asked he h ?_
  rw [if_neg (by simp [hsized]), hrun]

end

/-- A whole image of a free component starts a download. -/
theorem State.updBegin_whole {s : State} {buf : Bytes} {fit : FwFit} (hok : headerOk buf = true) (hfree : s.updComp = none)
    (hlevel : s.levelStatus (fieldAt buf 6 1) (hdrImage buf []) fit = none) (hwhole : hdrDelta buf = false) :
    s.updBegin buf fit = if signed buf then (((s.setStaging (fieldAt buf 6 1) { Bank.empty with header := buf }).setUpd
      (fieldAt buf 6 1) usDOWNLOADING).showNext (fieldAt buf 6 1)).upd stOK else s.badSignature := by
  unfold State.updBegin
  cases hsigned : signed buf <;> simp [hok, hfree, hlevel, hwhole]

theorem updBegin_completes {sq : Fin 256} {r : HostReq} {buf : Bytes} {fit : FwFit} {s : State} (h : Asked s 0 sq 0xF0 r)
    (hlen : r.len = buf.length) (hok : headerOk buf = true) (hfree : (s.taken r).updComp = none)
    (hlevel : (s.taken r).levelStatus (fieldAt buf 6 1) (hdrImage buf []) fit = none) (hwhole : hdrDelta buf = false) :
    Runs (.updBegin sq buf fit) s
      (if signed buf then
        ((((((s.taken r).setStaging (fieldAt buf 6 1) { Bank.empty with header := buf }).setUpd (fieldAt buf 6 1)
          usDOWNLOADING).showNext (fieldAt buf 6 1)).setFld fUPD_STATUS_LAST_STATUS 0).answer r stOK)
       else (State.showStatus (s.taken r).badSignature).2.1.answer r (s.taken r).badSignature.1) := by
  have hbegin := State.updBegin_whole hok hfree hlevel hwhole
  split
  · next hsigned =>
    rw [if_pos hsigned] at hbegin
    exact runs_upd (.updBegin sq buf fit) (execUpdBegin.eq_def ..) h (beq_iff_eq.2 hlen) (congrArg State.showStatus hbegin)
  · next hsigned =>
    rw [if_neg hsigned] at hbegin
    exact runs_upd (.updBegin sq buf fit) (execUpdBegin.eq_def ..) h (beq_iff_eq.2 hlen) (congrArg State.showStatus hbegin)

/-! ## Switches, trials and boot -/

section
variable {s : State} (hsafe : s.safe = false)
include hsafe

theorem updSwitchComplete_finishes {lowest : Nat} {check : Bool} {c left : Nat}
    (hswitch : s.fw.switching = some (c, left, false)) (hstep : s.fw.switchStep = none) (hlast : left ≤ 1) :
    Runs (.updSwitchComplete lowest check) s
      ((s.setFw { s.fw with switching := none, switchStep := none }).finishSwitch c lowest check) := by
  refine runs_act (execUpdSwitchComplete.eq_def ..) hsafe ?_
  simp [hswitch, hstep, Nat.not_lt.2 hlast]

theorem trialTimeout_rollsBack {c : Fin 4} {since : Nat} (htrial : Map.find s.fw.trialAt c = some since)
    (hstate : s.updState c = usTRIAL) (hdue : since + s.fld fUPD_CFG_CONFIRM_S * 10 ^ 9 ≤ s.dtime) :
    Runs (.trialTimeout c) s (s.rollback c) := by
  refine runs_act (execTrialTimeout.eq_def ..) hsafe ?_
  rw [htrial]
  exact if_neg (not_or.2 ⟨not_not.2 hstate, Nat.not_lt.2 hdue⟩)

theorem bootStage_completes (facts : BootFacts) (hheld : s.mod.held = false) (hgood : s.mod.pwrGood = true)
    (hreset : s.mod.modReset = false) (hrecovery : s.mod.recovery = false) (hstopped : s.mod.stopped = false)
    (hleft : s.mod.booted < 5) : Runs (.bootStage facts) s (s.bootStage facts) :=
  runs_act (execBootStage.eq_def ..) hsafe (if_neg (by simp [hheld, hgood, hreset, hrecovery, hstopped, hleft]))

/-! ## MCTP requests (R397, R462) -/

theorem State.mctp_update {op : UpdOp} {st : Status} {c : Option Nat} {u : State} (hrun : s.runUpd op = (st, u, c)) :
    s.mctp (.update op) = u.emit (.i3c (toLE 2 st.toNat)) := by
  rw [State.mctp, if_neg (by simp [hsafe]), hrun]

theorem mctpRequest_update {op : UpdOp} {st : Status} {c : Option Nat} {u : State} (hserved : s.mctpServed = true)
    (hrun : s.runUpd op = (st, u, c)) : Runs (.mctpRequest (.update op)) s (u.emit (.i3c (toLE 2 st.toNat))) :=
  runs_always (execMctpRequest.eq_def (.update op) s) ((if_pos hserved).trans (State.mctp_update hsafe hrun))

end

/-- Settles O13: each command runs its effect. -/
theorem updateAndBootComplete : Obligations.UpdateAndBootComplete := by
  refine ⟨fun sq r buf fit c s u h hlen hok hc hu hfree hlevel hwhole => ?_, fun sq r off buf s t h hlen hrun => ?_,
    fun sq r bad fit s t h hrun => ?_, fun sq r fit readBack c s t h hrun => ?_, fun sq r fit readBack s t h hrun => ?_,
    fun sq r readBack s t h hrun => ?_, fun sq r s t h hrun => ?_, fun sq r s t h hrun => ?_,
    fun lowest check c left s hsafe => updSwitchComplete_finishes hsafe,
    fun c since s hsafe => trialTimeout_rollsBack hsafe, fun facts s hsafe => bootStage_completes hsafe facts,
    fun s hsafe hdue => ?_, fun s hserved => ?_, fun op st c s u hsafe => mctpRequest_update hsafe⟩
  · subst hu hc
    exact updBegin_completes h hlen hok hfree hlevel hwhole
  · exact runs_upd (.updWrite sq off buf) (execUpdWrite.eq_def ..) h (beq_iff_eq.2 hlen) hrun
  · exact runs_upd (.updVerify sq bad fit) (execUpdVerify.eq_def ..) h rfl hrun
  · exact runs_updSwitch (.updActivate sq fit readBack) (execUpdActivate.eq_def ..) h rfl hrun
  · exact runs_upd (.updActivate sq fit readBack) (execUpdActivate.eq_def ..) h rfl hrun
  · exact runs_upd (.updConfirm sq readBack) (execUpdConfirm.eq_def ..) h rfl hrun
  · exact runs_upd (.updAbort sq) (execUpdAbort.eq_def ..) h rfl hrun
  · exact runs_upd (.updRevert sq) (execUpdRevert.eq_def ..) h rfl hrun
  · exact ⟨_, runs_act (execWatchdogExpiry.eq_def ..) hsafe (if_pos hdue), rfl, rfl⟩
  · exact ⟨_, runs_always (execMctpRequest.eq_def ..) (if_pos hserved), rfl, rfl⟩

end Sys2Proof.Machine
end
